-- ==== Sys2Proof/Word.lean ====
section
/-! DEFINITION. The words of the CN816: the widths the manual treats as bits, and the numbered things as finite types. -/

namespace Sys2Proof

/-- A byte of the workstation link, a character's data, a byte of a record's body. -/
abbrev Byte := BitVec 8

/-- A monotonic count of milliseconds (R155): 32 bits, wrapping. -/
abbrev Ms := BitVec 32

/-- A unit identity: a 48-bit serial number (00_scope.md, Conventions). -/
abbrev Identity := BitVec 48

/-- A line address (00_scope.md, Conventions): 0 the part, 1 to 14 units, 15 general call. -/
abbrev Addr := BitVec 4

/-- The urgency of a line frame, 0 to 3. -/
abbrev Urgency := BitVec 2

/-- Counter lines 1 to 4, as 0 to 3. -/
abbrev LineId := Fin 4

/-- Customer positions 1 to 8, as 0 to 7. -/
abbrev Pos := Fin 8

/-- Directory entries 0 to 15. -/
abbrev EntryId := Fin 16

/-- Frame records 0 to 63. -/
abbrev RecId := Fin 64

/-- Request slots 0 to 3. -/
abbrev SlotId := Fin 4

/-- Record classes and queue classes 0, 1, 2. -/
abbrev Cls := Fin 3

/-- A byte from a number. -/
abbrev byteOf (n : Nat) : Byte := BitVec.ofNat 8 n

end Sys2Proof
end

