-- ==== Sys2Proof/Syntax.lean ====
section
/-! DEFINITION. The commands of the CN816: one constructor for each row of spec/opcode_table.json, with its operands.
A character of a counter line is given by its sample reads (R25), so that the value of each bit, the noise, the parity and
the framing are the model's to judge. -/

namespace Sys2Proof

/-- The three reads that value one bit of a counter line (R25): `true` is recessive, a one (2.1). -/
structure Bit3 where
  a : Bool
  b : Bool
  c : Bool
  deriving DecidableEq, Repr, Inhabited

/-- The eleven bits of a character (R26), each as its three reads; `d0` is the least significant data bit, sent first. -/
structure RawChar where
  start : Bit3
  d0 : Bit3
  d1 : Bit3
  d2 : Bit3
  d3 : Bit3
  d4 : Bit3
  d5 : Bit3
  d6 : Bit3
  d7 : Bit3
  parity : Bit3
  stop : Bit3
  deriving DecidableEq, Repr, Inhabited

/-- The two moments of a character of a counter line at which something happens: its start edge, the first sample tick that reads
dominant (R27, R32), and its stop bit, at which it is settled (R27; log 6). -/
inductive CharMoment where
  | startEdge
  | stopBit
  deriving DecidableEq, Repr, Inhabited

/-- A character of the workstation link (R167): the level at the middle of each of its ten bits, `true` being mark; `d0` is the
least significant data bit, sent first. `marked`: the link has been at the mark level since the character before it ended, so that
this one opens with a falling edge (log 39). -/
structure LinkChar where
  marked : Bool
  start : Bool
  d0 : Bool
  d1 : Bool
  d2 : Bool
  d3 : Bool
  d4 : Bool
  d5 : Bool
  d6 : Bool
  d7 : Bool
  stop : Bool
  deriving DecidableEq, Repr, Inhabited

/-- The character of a link that falls to space and stays there. -/
def LinkChar.space : LinkChar :=
  { marked := true, start := false, d0 := false, d1 := false, d2 := false, d3 := false, d4 := false, d5 := false, d6 := false
    d7 := false, stop := false }

/-- The levels of the strap pins LRATE1, LRATE0 (as the value 0 to 3 of R167) and PDEF. -/
structure Straps where
  lrate : BitVec 2
  pdef : Bool
  deriving DecidableEq, Repr, Inhabited

/-- The commands. A line, an entry, a record or a position is named by its number counted from 0.
The handling of a request has no operand from the request: its type, tag and body stand in its slot (R173, R175; log 10).
`edge` is the monotonic count at the character's start edge (R27), read only for the first character of a frame (log 6). -/
inductive Instr where
  /-- POWER_ON: whether the RESET pin is then asserted, and the strap levels. -/
  | powerOn (resetHeld : Bool) (straps : Straps)
  /-- RESET_ASSERTED -/
  | resetAsserted
  /-- RESET_RELEASED: the strap levels that start-up samples. -/
  | resetReleased (straps : Straps)
  /-- PAUSE_ASSERTED -/
  | pauseAsserted
  /-- PAUSE_RELEASED -/
  | pauseReleased
  /-- RECORD_RECEIVED: the character of the check byte that completes a well-formed record. -/
  | recordReceived (c : LinkChar)
  /-- RECORD_DAMAGED: the character of the length byte or check byte at which a record is abandoned. -/
  | recordDamaged (c : LinkChar)
  /-- LINK_FRAMING_ERROR: the character whose stop bit reads space; one of a link held at space where none is named. -/
  | linkFramingError (c : LinkChar := LinkChar.space)
  /-- LINK_GAP_EXPIRY -/
  | linkGapExpiry
  /-- LINK_RECORD_SENT -/
  | linkRecordSent
  /-- UNKNOWN_REQUEST -/
  | unknownRequest
  /-- IDENTIFY -/
  | identify
  /-- DEVICE_STATUS -/
  | deviceStatus
  /-- RESTART -/
  | restart
  /-- TIME_SET -/
  | timeSet
  /-- TIME_GET -/
  | timeGet
  /-- LINE_START -/
  | lineStart
  /-- LINE_STOP_DRAIN: the start edge of the header that is in progress on the line at that moment, if one is (R41; log 6). -/
  | lineStopDrain (header : Option Ms := none)
  /-- LINE_STOP_FORCE -/
  | lineStopForce
  /-- LINE_STATUS -/
  | lineStatus
  /-- POOL_STATUS -/
  | poolStatus
  /-- UNIT_LIST -/
  | unitList
  /-- UNIT_INFO -/
  | unitInfo
  /-- UNIT_BIND -/
  | unitBind
  /-- UNIT_UNBIND -/
  | unitUnbind
  /-- UNIT_FORGET -/
  | unitForget
  /-- SCREEN_SET -/
  | screenSet
  /-- SCREEN_GET -/
  | screenGet
  /-- UNIT_SEND -/
  | unitSend
  /-- ENTRY_OPEN -/
  | entryOpen
  /-- ENTRY_CANCEL -/
  | entryCancel
  /-- ENTRY_STATUS -/
  | entryStatus
  /-- CARD_READ -/
  | cardRead
  /-- CARD_RESEND -/
  | cardResend
  /-- CARD_EJECT -/
  | cardEject
  /-- CARD_RETAIN -/
  | cardRetain
  /-- CARD_STATUS -/
  | cardStatus
  /-- PROFILE_SET -/
  | profileSet
  /-- PROFILE_GET -/
  | profileGet
  /-- PROFILE_COMMIT -/
  | profileCommit
  /-- PROFILE_LOAD -/
  | profileLoad
  /-- VERIFY_PASSES: of the store write with this number; 0 is the number of none (R191; log 42). -/
  | verifyPasses (write : Nat := 0)
  /-- WRITE_LIMIT_REACHED: of the store write with this number; 0 is the number of none (R191; log 42). -/
  | writeLimitReached (write : Nat := 0)
  /-- CHARACTER_RECEIVED: the character settled at its stop bit, `edge` being the count at its start edge. With the moment `startEdge`
  the start edge alone, given first where another event falls between the two; `edge` and `raw` are not read then (log 6). -/
  | characterReceived (line : LineId) (edge : Ms) (raw : RawChar) (moment : CharMoment := .stopBit)
  /-- FALSE_START: the reads of the start bit. -/
  | falseStart (line : LineId) (start : Bit3)
  /-- FRAMING_ERROR -/
  | framingError (line : LineId) (raw : RawChar)
  /-- LENGTH_CHARACTER -/
  | lengthCharacter (line : LineId) (raw : RawChar)
  /-- OVERSIZE_ABANDON_END -/
  | oversizeAbandonEnd (line : LineId)
  /-- CHARACTER_GAP_EXPIRY -/
  | characterGapExpiry (line : LineId)
  /-- UNIT_EVENT_DATA_FRAME: the check character of an event or data frame. -/
  | unitEventDataFrame (line : LineId) (raw : RawChar)
  /-- HELLO: the check character of a HELLO. -/
  | hello (line : LineId) (raw : RawChar)
  /-- UNIT_STATUS: the check character of a STATUS. -/
  | unitStatus (line : LineId) (raw : RawChar)
  /-- UNIT_ACK: the check character of an ACK. -/
  | unitAck (line : LineId) (raw : RawChar)
  /-- LINE_IDLE -/
  | lineIdle (line : LineId)
  /-- LINE_STUCK -/
  | lineStuck (line : LineId)
  /-- LOST_ARBITRATION: the bit 0 to 10 of the header at which the mismatch is read. -/
  | lostArbitration (line : LineId) (bit : Nat)
  /-- BIT_ERROR: the character of the transmission, counted from 0, and its bit 0 to 10. -/
  | bitError (line : LineId) (chr : Nat) (bit : Nat)
  /-- FRAME_TRANSMITTED -/
  | frameTransmitted (line : LineId)
  /-- ACK_TIMEOUT: the line and the destination whose frame awaits acknowledgement. -/
  | ackTimeout (line : LineId) (dest : Addr)
  /-- QUEUE_LIMIT_EXPIRY: the line, and the record and destination that name the entry. -/
  | queueLimitExpiry (line : LineId) (record : RecId) (dest : Addr)
  /-- GRANT_TIMER_EXPIRY -/
  | grantTimerExpiry (e : EntryId)
  /-- SILENCE_TIMER_EXPIRY -/
  | silenceTimerExpiry (e : EntryId)
  /-- LOST_TIMER_EXPIRY -/
  | lostTimerExpiry (e : EntryId)
  /-- FIRST_KEY_TIMEOUT -/
  | firstKeyTimeout (p : Pos)
  /-- INTER_KEY_TIMEOUT -/
  | interKeyTimeout (p : Pos)
  /-- PIN_GUARD_EXPIRY -/
  | pinGuardExpiry (p : Pos)
  /-- DISPLAY_RETRY_EXPIRY -/
  | displayRetryExpiry (p : Pos)
  /-- READ_TIMER_EXPIRY -/
  | readTimerExpiry (p : Pos)
  /-- TAKE_TIMER_EXPIRY -/
  | takeTimerExpiry (p : Pos)
  /-- MOVEMENT_TIMER_EXPIRY -/
  | movementTimerExpiry (p : Pos)
  /-- ATTENDANCE_TIMER_EXPIRY -/
  | attendanceTimerExpiry
  /-- LINK_BYTE_RECEIVED: a character whose byte neither completes nor abandons a record, or a false start. -/
  | linkByteReceived (c : LinkChar)
  deriving DecidableEq, Repr

end Sys2Proof
end

