-- ==== Sys2Proof/Config.lean ====
section
/-! DEFINITION. The numbers that the manual fixes for this part, and the one thing it leaves free: the order of timer expiries
that fall on one millisecond boundary. -/

namespace Sys2Proof

/-- R159: "each expiry is a separate event, and either may be taken first". The n-th choice among coincident expiries; no body,
so that nothing can be proved of it (log 3). -/
opaque Config.freeOrder : Nat → Nat

/-- R1: the pool has 256 body chunks. -/
abbrev Config.chunks : Nat := 256
/-- R1: a chunk has 32 bytes. -/
abbrev Config.chunkBytes : Nat := 32
/-- R15: the most references a record may have. -/
abbrev Config.maxRefs : Nat := 20
/-- R59: the places of an ack list. -/
abbrev Config.ackPlaces : Nat := 4
/-- R65: attempts that end a frame NO_ACK. -/
abbrev Config.maxAttempts : Nat := 3
/-- R80: GRANT frames offered in one grant cycle. -/
abbrev Config.maxGrants : Nat := 3
/-- R84: the spacing of WHO frames to one stray address, in ms. -/
abbrev Config.whoSpacing : Nat := 1000
/-- R133: the display retry time, in ms. -/
abbrev Config.displayRetry : Nat := 100
/-- R147: the movement time, in ms. -/
abbrev Config.movement : Nat := 5000
/-- Counts of the lines, the pool and the screen list saturate here (00_scope.md, Counts). -/
abbrev Config.count16 : Nat := 65535
/-- The dropped and damaged counts saturate here (R177). -/
abbrev Config.count8 : Nat := 255
/-- R169: the longest body of a link record. -/
abbrev Config.maxLinkBody : Nat := 250
/-- R50, R53: the longest body of a line frame. -/
abbrev Config.maxFrameBody : Nat := 120
/-- R53: the receive buffer. -/
abbrev Config.receiveBuffer : Nat := 16
/-- R167: the lead byte of a link record. -/
abbrev Config.lead : Byte := 0xC3
/-- R180: the part code. -/
abbrev Config.partCode : Nat := 816
/-- R180: the revision. -/
abbrev Config.revision : Nat := 1
/-- R180: the size of the profile store, 8 blocks of 128 bytes. -/
abbrev Config.storeBytes : Nat := 1024

end Sys2Proof
end

