-- ==== Sys2Proof/Machine/Types.lean ====
section
/-! DEFINITION. The types of the state of each block (plain data), with the manual's names. Values of a field that the
manual gives as a code are inductive types here; the codes stand in Machine/Operands.lean. -/

namespace Sys2Proof.Machine

/-- A timer (R159): `none` stopped; `some n`: n millisecond boundaries until it expires, `some 0`: its expiry is due. -/
abbrev Timer := Option Nat

inductive UnitKind where
  | reader | keypad
  deriving DecidableEq, Repr, Inhabited

inductive Condition where
  | ok | fault
  deriving DecidableEq, Repr, Inhabited

/-- Display tones, weakest first (R68). -/
inductive Tone where
  | none | click | buzz
  deriving DecidableEq, Repr, Inhabited

/-- The frame families of R50. -/
inductive Family where
  | event | exchange | control | data
  deriving DecidableEq, Repr, Inhabited

/-- The frame kinds of R51. -/
inductive FrameKind where
  | key | cardMove | alert
  | ack | display | cardCommand | unitCommand
  | hello | status | grant | who | refuse
  | track | data
  deriving DecidableEq, Repr, Inhabited

/-- The notice kinds of R101. -/
inductive NoticeKind where
  | key | cardMove | track | alert | data
  | entryResult | readDone | sendDone | commitDone | start
  deriving DecidableEq, Repr, Inhabited

/-! ## Frame Pool (chapter 1) -/

inductive RecState where
  | free | filling | reserved | stored
  deriving DecidableEq, Repr, Inhabited

/-- R2: the origin of a record. -/
inductive Origin where
  | unit (e : EntryId) (l : LineId) (a : Addr)
  | workstation (tag : Byte)
  | part
  deriving DecidableEq, Repr, Inhabited

/-- R2: what a record's body is. -/
inductive RecKind where
  | frame (k : FrameKind)
  | notice (k : NoticeKind)
  deriving DecidableEq, Repr, Inhabited

/-- R2: a frame record. -/
structure Rec where
  state : RecState
  origin : Origin
  kind : RecKind
  cls : Cls
  urg : Urgency
  arrival : Ms
  len : Nat
  chunks : List Nat
  refs : Nat
  promise : Option Byte
  deriving DecidableEq, Repr

/-- R7: the three tests of an admission, in their order. -/
inductive AdmissionTest where
  | chunk | record | quota
  deriving DecidableEq, Repr, Inhabited

/-- R7, R8: an admission request: class, chunk need and origin, and the fields the requester writes. -/
structure Admission where
  cls : Cls
  need : Nat
  origin : Origin
  kind : RecKind
  urg : Urgency
  arrival : Ms
  state : RecState
  promise : Option Byte
  deriving DecidableEq, Repr

/-- The pool. F, G and the holdings are computed (R4, R10). `refusals` is indexed by 3 x test + class (R9). -/
structure Pool where
  free : List Nat
  mem : List Host.Cell
  recs : Vector Rec 64
  refusals : Vector Nat 9
  refLimit : Nat
  lowF : Nat
  lowG : Nat
  deriving DecidableEq, Repr

/-! ## Counter lines (chapters 2 and 3) -/

/-- R39: a line's state; STUCK remembers ACTIVE or DRAINING. -/
inductive LineState where
  | stopped
  | active
  | draining
  | stuck (rememberedDraining : Bool)
  deriving DecidableEq, Repr, Inhabited

/-- R24: the timing settings of a line: divisor D and samples per bit S. -/
structure Timing where
  d : Nat
  s : Nat
  deriving DecidableEq, Repr, Inhabited

/-- R47: the twelve counters of a line, in table order. -/
structure LineCounters where
  parity : Nat
  framing : Nat
  noisy : Nat
  falseStart : Nat
  check : Nat
  oversize : Nat
  gap : Nat
  busy : Nat
  stray : Nat
  arbLoss : Nat
  bitError : Nat
  stuck : Nat
  deriving DecidableEq, Repr, Inhabited

/-- R53: where the body of a frame in reception goes. An event or data frame names its directory entry. -/
inductive BodyDest where
  | undecided
  | buffer
  | record (r : RecId) (e : EntryId)
  | refused (e : EntryId)
  | stray
  | nowhere
  deriving DecidableEq, Repr, Inhabited

/-- R50, R52 to R54: the character that frame assembly takes next. -/
inductive RxStage where
  | second
  | length
  | body (left : Nat)
  | check
  deriving DecidableEq, Repr, Inhabited

/-- A frame in reception (R52 to R54). `sum` is over the characters taken so far; `inDrain`: its header began while the
line was DRAINING (R41). `buf` is the receive buffer of R53. -/
structure RxFrame where
  stage : RxStage
  head : Byte
  second : Byte
  sum : Byte
  bad : Bool
  discarded : Bool
  inDrain : Bool
  arrival : Ms
  dest : BodyDest
  buf : List Byte
  deriving DecidableEq, Repr

/-- The receive assembly of a line: hunting for a frame; completing a header that is in progress, one whose start edge has been seen
(R27), that of a frame that won an arbitration (R36), or one that a drain found begun (R41, log 6); in a frame; or in the abandonment
of an oversize frame (R53). -/
inductive Rx where
  | hunting
  | completing (arrival : Ms) (inDrain : Bool)
  | inFrame (f : RxFrame)
  | abandoned
  deriving DecidableEq, Repr

/-- R59: a pending acknowledgement; `accepted` false is BUSY. -/
structure PendingAck where
  dest : Addr
  seq : Bool
  accepted : Bool
  deriving DecidableEq, Repr, Inhabited

/-- R60: the owner of a queue entry; a copy is owned by Dispatch with its SEND_DONE record. -/
inductive Owner where
  | directory
  | entry (p : Pos)
  | card (p : Pos)
  | timeBase
  | dispatch (sendDone : RecId)
  deriving DecidableEq, Repr, Inhabited

/-- R60: an entry of a control queue or pass queue. `isOpen` is the field Open; `lastBit` the sequence bit of its latest
transmission (R58, R63); `inTx` and `awaiting` say where its reference is (R13). -/
structure QEntry where
  record : RecId
  dest : Addr
  target : Option EntryId
  queuedAt : Ms
  attempts : Nat
  sent : Bool
  isOpen : Bool
  awaiting : Bool
  inTx : Bool
  lastBit : Bool
  ackTimer : Timer
  limitTimer : Timer
  owner : Owner
  deriving DecidableEq, Repr

/-- R67: the outcomes of a queue entry; REFUSED carries the unit's reason byte. -/
inductive FrameOutcome where
  | delivered
  | refused (reason : Byte)
  | noAck
  | expired
  | lineStopped
  | unitGone
  deriving DecidableEq, Repr, Inhabited

/-- What is being transmitted: the head of the ack list, the queue entry marked `inTx`, or a frame whose entry has already
ended UNIT_GONE (R67) and whose reference the transmission still holds. -/
inductive TxSource where
  | ack
  | queued
  | detached (r : RecId)
  deriving DecidableEq, Repr, Inhabited

/-- R34: a transmission in progress: its characters from header to check, and when it began. -/
structure Tx where
  src : TxSource
  chars : List Byte
  startedAt : Ms
  inDrain : Bool
  deriving DecidableEq, Repr

/-- A counter line and its Line Engine. -/
structure Line where
  state : LineState
  timing : Option Timing
  idle : Bool
  rx : Rx
  acks : List PendingAck
  control : List QEntry
  pass : List QEntry
  tx : Option Tx
  whoAt : Vector (Option Ms) 16
  counters : LineCounters
  mark : Bool
  latest : Ms
  deriving DecidableEq, Repr

/-! ## Unit Directory (chapter 4) -/

inductive EntryState where
  | free | pending | active | silent | lost
  deriving DecidableEq, Repr, Inhabited

/-- R70: a directory entry. Chunks held is computed from the pool (R10). -/
structure DirEntry where
  identity : Identity
  kind : UnitKind
  state : EntryState
  line : LineId
  addr : Option Addr
  pos : Option Pos
  pinned : Bool
  established : Bool
  lastHeard : Ms
  grantAttempts : Nat
  outBit : Bool
  inBit : Option Bool
  condition : Condition
  grantTimer : Timer
  silenceTimer : Timer
  lostTimer : Timer
  mark : Bool
  latest : Ms
  deriving DecidableEq, Repr

/-! ## Dispatch (chapter 5) -/

inductive ScreenType where
  | source | kind
  deriving DecidableEq, Repr, Inhabited

inductive SelectorKind where
  | any | identity | position | line
  deriving DecidableEq, Repr, Inhabited

inductive ScreenKind where
  | key | cardMove | track | alert | data
  deriving DecidableEq, Repr, Inhabited

inductive ScreenAction where
  | pass | drop | reclass | witness
  deriving DecidableEq, Repr, Inhabited

/-- R91: a screen list entry, without its hit count. `selValue` is the six selector bytes, the first least significant (R202). -/
structure ScreenEntry where
  inUse : Bool
  type : ScreenType
  selector : SelectorKind
  selValue : Identity
  kind : ScreenKind
  action : ScreenAction
  cls : Cls
  deriving DecidableEq, Repr, Inhabited

/-- The unit fields of a notice entry (R101). -/
structure UnitRef where
  identity : Identity
  line : LineId
  addr : Option Addr
  kind : UnitKind
  deriving DecidableEq, Repr, Inhabited

/-- R101: a notice entry. -/
structure Notice where
  record : RecId
  kind : NoticeKind
  tag : Byte
  unit : Option UnitRef
  pos : Option Pos
  witnessed : Bool
  resent : Bool
  deriving DecidableEq, Repr

/-- R105: one target of a UNIT_SEND. -/
structure Target where
  e : EntryId
  identity : Identity
  line : LineId
  ended : Bool
  deriving DecidableEq, Repr, Inhabited

/-- R105: the fan-out bookkeeping of a UNIT_SEND. -/
structure Fanout where
  sendDone : RecId
  body : RecId
  tag : Byte
  targets : List Target
  outstanding : Nat
  deriving DecidableEq, Repr

/-! ## Entry contexts (chapter 6) -/

/-- R115: the field kind of a session with its parameters. -/
inductive Field where
  | amount (decimals maxValue minValue : Nat)
  | digits (minLen maxLen : Nat) (mask : Bool)
  | pin (minLen maxLen : Nat)
  | confirm
  deriving DecidableEq, Repr, Inhabited

/-- R112: the session of a context that is OPEN (`active` false) or ACTIVE (`active` true). -/
structure Session where
  active : Bool
  field : Field
  value : Nat
  digits : List Nat
  prompt : List Byte
  pfx : List Byte
  firstKey : Nat
  interKey : Nat
  firstTimer : Timer
  interTimer : Timer
  result : RecId
  tag : Byte
  keypad : EntryId
  keypadId : Identity
  witness : Bool
  deriving DecidableEq, Repr

/-- Two lines of 16 display characters. -/
structure DisplayLines where
  line1 : List Byte
  line2 : List Byte
  deriving DecidableEq, Repr, Inhabited

/-- R112: an entry context; `sess` is `none` in IDLE. -/
structure EntryCtx where
  sess : Option Session
  target : Option (EntryId × Identity)
  wanted : DisplayLines
  dispPending : Bool
  pendTone : Tone
  retryTimer : Timer
  guardTimer : Timer
  deriving DecidableEq, Repr

inductive EntryOutcome where
  | completed | cancelled | timedOut | aborted
  deriving DecidableEq, Repr, Inhabited

/-- R198: the causes of session endings and of card context changes. -/
inductive Cause where
  | enter | cancel | firstKey | interKey | entryCancel
  | unitLost | unitRestarted | unitMoved | unbound | displaced | lineStopped | unattended
  | cardInserted | cardRemoved | cardPresented | cardRetained | jammed | request
  | readComplete | readTimedOut | unitRefused | unitFailed | takeTimeout | movementTimeout
  | status | poolFull | reset
  deriving DecidableEq, Repr, Inhabited

/-! ## Card contexts (chapter 7) -/

inductive CardState where
  | empty | present | reading | read | ejecting | presented | retaining | fault
  deriving DecidableEq, Repr, Inhabited

inductive TrackStatus where
  | ok | blank | error
  deriving DecidableEq, Repr, Inhabited

inductive CardCommand where
  | read | eject | retain
  deriving DecidableEq, Repr, Inhabited

inductive ReadOutcome where
  | ok | timedOut | unitRefused | unitFailed | withdrawn | aborted | unitGone
  deriving DecidableEq, Repr, Inhabited

inductive Movement where
  | inserted | removed | presented | retained | jammed
  deriving DecidableEq, Repr, Inhabited

/-- R136: a card context. `holds` is indexed by track number less 1. The queue entry of the current command is named by its
record. -/
structure CardCtx where
  state : CardState
  cause : Cause
  mask : BitVec 3
  holds : Vector (Option (TrackStatus × RecId)) 3
  readTimer : Timer
  takeTimer : Timer
  moveTimer : Timer
  result : Option RecId
  tag : Byte
  reader : Option (EntryId × Identity)
  current : Option (CardCommand × RecId)
  mark : Bool
  latest : Ms
  deriving DecidableEq, Repr

/-! ## Time Base and Attendance (chapter 8) -/

structure TimeBase where
  mono : Ms
  offset : Ms
  attended : Bool
  latest : Ms
  mark : Bool
  timer : Timer
  deriving DecidableEq, Repr

/-! ## Workstation Link (chapter 9) -/

inductive SlotState where
  | free | taken | replied | sending
  deriving DecidableEq, Repr, Inhabited

/-- R176: the reply statuses. -/
inductive Status where
  | ok | clamped | unknownRequest | badLength | badParameter | wrongState | sessionBusy | noSuchUnit
  | noSession | slotTaken | poolFull | storeBusy
  deriving DecidableEq, Repr, Inhabited

/-- R173: a request slot; `fields` is the reply body after its three common fields (R176). -/
structure Slot where
  state : SlotState
  type : Byte
  tag : Byte
  body : List Byte
  status : Status
  fields : List Byte
  deriving DecidableEq, Repr

/-- What the link transmitter is sending: a slot's reply, a notice with the reference it holds, or a state notice. -/
inductive LinkSource where
  | reply (k : SlotId)
  | notice (r : RecId)
  | mark
  deriving DecidableEq, Repr, Inhabited

/-- R178: the record being sent, with all its bytes from lead to check. -/
structure LinkTx where
  src : LinkSource
  bytes : List Byte
  deriving DecidableEq, Repr

/-- The Workstation Link. `asm` is the assembly buffer from its lead onward; its length gives the assembly state (R169).
`awaitMark`: after a framing error the receiver sees no start edge until the link has returned to mark (R167). -/
structure Link where
  rxOn : Bool
  asm : List Byte
  awaitMark : Bool
  slots : Vector Slot 4
  order : List SlotId
  restartPending : Bool
  dropped : Nat
  damaged : Nat
  tx : Option LinkTx
  deriving DecidableEq, Repr

/-! ## Profile Store (chapter 10) -/

/-- R184: the profile items of one line. -/
structure LineItems where
  enabled : Bool
  d : Nat
  s : Nat
  deriving DecidableEq, Repr, Inhabited

/-- R184: a profile. Times in the unit the item is given in; `writeLimit` is the code 0 to 3 of R202. -/
structure Profile where
  lines : Vector LineItems 4
  ackTimeout : Nat
  queueLimit : Nat
  grantTimeout : Nat
  silenceLimit : Nat
  lostLimit : Nat
  reserve0 : Nat
  reserve1 : Nat
  unitQuota : Nat
  wsQuota : Nat
  bulkAge : Nat
  firstKey : Nat
  interKey : Nat
  pinGuard : Nat
  readTimeout : Nat
  takeTimeout : Nat
  readOnInsert : BitVec 8
  wsSilence : Nat
  closedText : List Byte
  writeLimit : Nat
  pins : Vector (Option (Identity × Pos)) 16
  screen : Vector ScreenEntry 16
  deriving DecidableEq, Repr

inductive StoreState where
  | blank | incomplete | complete
  deriving DecidableEq, Repr, Inhabited

/-- R189: a running commit. `unit` is 0 for the begin marker, 1 to 8 for a block, 9 for the end marker (R192); `write` is the number of
the write in progress, by which its two events name it (R191, log 42). -/
structure Commit where
  snapshot : Profile
  limit : Nat
  unit : Fin 10
  attempt : Nat
  rewrites : Nat
  promise : RecId
  acceptedAt : Ms
  write : Nat
  deriving DecidableEq, Repr

/-- The Profile Store. A block holds its part of a profile; it is represented by the profile it was written from (log 23).
`begun` is the model's own count of the writes begun (log 42). -/
structure Store where
  state : StoreState
  blocks : Vector Profile 8
  commit : Option Commit
  begun : Nat
  deriving DecidableEq, Repr

inductive ResetCause where
  | powerOn | resetPin | restart
  deriving DecidableEq, Repr, Inhabited

inductive ProfileOutcome where
  | loaded | blank | incomplete | defaultsForced
  deriving DecidableEq, Repr, Inhabited

end Sys2Proof.Machine
end

