-- ==== Sys2Proof/Machine/Operands.lean ====
section
/-! DEFINITION. The forms in which operands and results travel: the value of a character's bits (R25 to R30), little-endian
fields and their readers, the value codes of R198, the first two characters of a line frame (R199), the check sums of R50
and R168, and the elapsed times of R160. -/

namespace Sys2Proof.Machine

/-! ## Bits and characters of a counter line -/

/-- R25: the value of a bit is the majority of its three reads. -/
def bitValue (b : Bit3) : Bool :=
  (b.a && b.b) || (b.b && b.c) || (b.a && b.c)

/-- R27: a bit whose three reads are not all alike is noisy. -/
def bitNoisy (b : Bit3) : Bool :=
  !((b.a == b.b) && (b.b == b.c))

/-- A bit read three times alike. -/
def cleanBit (v : Bool) : Bit3 := { a := v, b := v, c := v }

/-- R26: the eleven bits in the order sent. -/
def rawBits (c : RawChar) : List Bit3 :=
  [c.start, c.d0, c.d1, c.d2, c.d3, c.d4, c.d5, c.d6, c.d7, c.parity, c.stop]

/-- R26: the eight data bits, least significant first. -/
def rawData (c : RawChar) : List Bool :=
  [c.d0, c.d1, c.d2, c.d3, c.d4, c.d5, c.d6, c.d7].map bitValue

/-- A number from its bits, least significant first. -/
def natOfBits : List Bool → Nat
  | [] => 0
  | b :: bs => b.toNat + 2 * natOfBits bs

/-- The data byte of a character. -/
def charByte (c : RawChar) : Byte := byteOf (natOfBits (rawData c))

/-- R27: a noisy character contains one or more noisy bits. -/
def charNoisy (c : RawChar) : Bool := (rawBits c).any bitNoisy

/-- R28: a start bit valued recessive is a false start. -/
def charFalseStart (c : RawChar) : Bool := bitValue c.start

/-- R29: a parity error is an even number of ones in the data and parity bits. -/
def charParityError (c : RawChar) : Bool :=
  !((bitValue c.parity :: rawData c).foldr xor false)

/-- R30: a stop bit valued dominant is a framing error. -/
def charFramingError (c : RawChar) : Bool := !(bitValue c.stop)

/-- R26: bit k of the character that carries b, in the order sent: start, data from the least significant bit, odd parity, stop. -/
def sentBit (b : Byte) (k : Nat) : Bool :=
  if k = 0 then false
  else if k ≤ 8 then b.getLsbD (k - 1)
  else if k = 9 then !((List.range 8).foldr (fun i acc => xor (b.getLsbD i) acc) false)
  else true

/-! ## Characters of the workstation link (R167) -/

/-- R167: the data byte of a link character, its least significant bit first. -/
def linkByte (c : LinkChar) : Byte := byteOf (natOfBits [c.d0, c.d1, c.d2, c.d3, c.d4, c.d5, c.d6, c.d7])

/-- R167: a start bit that reads mark at its middle is a false start. -/
def linkFalseStart (c : LinkChar) : Bool := c.start

/-- R167: a character whose stop bit reads space has a framing error. -/
def linkFramingBad (c : LinkChar) : Bool := !c.start && !c.stop

/-- R167: a character that brings a byte: start bit space, stop bit mark. -/
def linkGood (c : LinkChar) : Bool := !c.start && c.stop

/-- R167: bit k of the link character that carries b, `true` being mark: start, data from the least significant bit, stop. -/
def linkSentBit (b : Byte) (k : Nat) : Bool :=
  if k = 0 then false
  else if k ≤ 8 then b.getLsbD (k - 1)
  else true

/-- The link character that carries b, the link at mark before it (R167). -/
def linkChar (b : Byte) : LinkChar :=
  { marked := true, start := linkSentBit b 0
    d0 := linkSentBit b 1, d1 := linkSentBit b 2, d2 := linkSentBit b 3, d3 := linkSentBit b 4
    d4 := linkSentBit b 5, d5 := linkSentBit b 6, d6 := linkSentBit b 7, d7 := linkSentBit b 8
    stop := linkSentBit b 9 }

/-- R167: the bit rate of the link by the straps. -/
def linkBitRate (r : BitVec 2) : Nat :=
  match r.toNat with
  | 0 => 19200
  | 1 => 57600
  | 2 => 115200
  | _ => 230400

/-! ## Clean characters of a counter line -/

/-- The character that carries b without noise (R26). -/
def cleanChar (b : Byte) : RawChar :=
  { start := cleanBit (sentBit b 0)
    d0 := cleanBit (sentBit b 1), d1 := cleanBit (sentBit b 2), d2 := cleanBit (sentBit b 3), d3 := cleanBit (sentBit b 4)
    d4 := cleanBit (sentBit b 5), d5 := cleanBit (sentBit b 6), d6 := cleanBit (sentBit b 7), d7 := cleanBit (sentBit b 8)
    parity := cleanBit (sentBit b 9), stop := cleanBit (sentBit b 10) }

/-! ## Fields of bytes -/

/-- Multi-byte numbers are little-endian (chapter 11). -/
def leBytes : Nat → Nat → List Byte
  | 0, _ => []
  | k + 1, n => byteOf n :: leBytes k (n / 256)

/-- The number that little-endian bytes hold. -/
def leNat : List Byte → Nat
  | [] => 0
  | b :: bs => b.toNat + 256 * leNat bs

/-- The byte at offset i of a body. -/
def byteAt (body : List Byte) (i : Nat) : Byte := body.getD i 0

/-- The n bytes from offset i of a body. -/
def bytesAt (body : List Byte) (i n : Nat) : List Byte := (body.drop i).take n

/-- The little-endian number of n bytes at offset i. -/
def numAt (body : List Byte) (i n : Nat) : Nat := leNat (bytesAt body i n)

/-- The identity in the six bytes at offset i (chapter 11: least significant first). -/
def identityAt (body : List Byte) (i : Nat) : Identity := BitVec.ofNat 48 (numAt body i 6)

/-- The six bytes of an identity. -/
def identityBytes (i : Identity) : List Byte := leBytes 6 i.toNat

/-- A yes-or-no byte (R198). -/
def boolByte (b : Bool) : Byte := if b then 1 else 0

/-- A count in one byte; counts saturate at the largest value of their field (00_scope.md, Counts). -/
def count1 (n : Nat) : List Byte := [byteOf (min n 255)]

/-- A count in two bytes. -/
def count2 (n : Nat) : List Byte := leBytes 2 (min n 65535)

/-- A list filled with v, or cut, to n places. -/
def padTo (n : Nat) (v : Byte) (l : List Byte) : List Byte := l.take n ++ List.replicate (n - l.length) v

/-- The 8-bit sum of bytes. -/
def byteSum (l : List Byte) : Byte := l.foldr (· + ·) 0

/-- The value that makes the sum 0 modulo 256 (R50, R168). -/
def checkByte (l : List Byte) : Byte := - byteSum l

/-- R160: an elapsed time is a difference modulo 2^32. -/
def elapsed (now earlier : Ms) : Nat := (now - earlier).toNat

/-- A count that rises by 1 and saturates. -/
def satInc (cap n : Nat) : Nat := min cap (n + 1)

/-- The milliseconds left on a timer, 0 when it is stopped. -/
def timerLeft (t : Timer) : Nat := t.getD 0

/-- R159: the expiry of a running timer is due when no boundary is left. -/
def timerDue (t : Timer) : Bool := t == some 0

/-! ## Packed digits (R122, R201) -/

/-- Digits packed two to a byte, the earlier in bits 4 to 7, the filler 15 in an unused half. -/
def packDigits : List Nat → List Byte
  | [] => []
  | [a] => [byteOf (16 * a + 15)]
  | a :: b :: rest => byteOf (16 * a + b) :: packDigits rest

/-! ## Value codes (R198) -/

def UnitKind.code : UnitKind → Byte
  | .reader => 1 | .keypad => 2

def UnitKind.ofCode (b : Byte) : Option UnitKind :=
  if b = 1 then some .reader else if b = 2 then some .keypad else none

def Condition.code : Condition → Byte
  | .ok => 0 | .fault => 1

def Condition.ofCode (b : Byte) : Option Condition :=
  if b = 0 then some .ok else if b = 1 then some .fault else none

def Tone.code : Tone → Byte
  | .none => 0 | .click => 1 | .buzz => 2

def Tone.ofCode (b : Byte) : Tone :=
  if b = 2 then .buzz else if b = 1 then .click else .none

/-- R68, R132: BUZZ is stronger than CLICK and CLICK than NONE. -/
def strongerTone : Tone → Tone → Tone
  | .buzz, _ => .buzz
  | _, .buzz => .buzz
  | .click, _ => .click
  | _, .click => .click
  | .none, .none => .none

def Movement.ofCode (b : Byte) : Option Movement :=
  if b = 1 then some .inserted else if b = 2 then some .removed else if b = 3 then some .presented
  else if b = 4 then some .retained else if b = 5 then some .jammed else none

def CardCommand.code : CardCommand → Byte
  | .read => 1 | .eject => 2 | .retain => 3

def TrackStatus.code : TrackStatus → Byte
  | .ok => 0 | .blank => 1 | .error => 2

def TrackStatus.ofCode (b : Byte) : Option TrackStatus :=
  if b = 0 then some .ok else if b = 1 then some .blank else if b = 2 then some .error else none

/-- R198: the codes NOT_READ and NOT_REQUESTED. -/
def trackNotRead : Byte := 3
def trackNotRequested : Byte := 4

def EntryState.code : EntryState → Byte
  | .free => 0 | .pending => 1 | .active => 2 | .silent => 3 | .lost => 4

def LineState.code : LineState → Byte
  | .stopped => 0 | .active => 1 | .draining => 2 | .stuck _ => 3

/-- The remembered state of a line, 0xFF when it is not STUCK (R201). -/
def LineState.rememberedCode : LineState → Byte
  | .stuck false => 1 | .stuck true => 2 | _ => 0xFF

def CardState.code : CardState → Byte
  | .empty => 0 | .present => 1 | .reading => 2 | .read => 3 | .ejecting => 4 | .presented => 5 | .retaining => 6 | .fault => 7

/-- R198: the context state is IDLE, OPEN or ACTIVE. -/
def sessionCode : Option Session → Byte
  | none => 0
  | some ss => if ss.active then 2 else 1

def Field.code : Field → Byte
  | .amount .. => 1 | .digits .. => 2 | .pin .. => 3 | .confirm => 4

def EntryOutcome.code : EntryOutcome → Byte
  | .completed => 0 | .cancelled => 1 | .timedOut => 2 | .aborted => 3

def ReadOutcome.code : ReadOutcome → Byte
  | .ok => 0 | .timedOut => 1 | .unitRefused => 2 | .unitFailed => 3 | .withdrawn => 4 | .aborted => 5 | .unitGone => 6

/-- R198: copy outcomes. -/
def FrameOutcome.code : FrameOutcome → Byte
  | .delivered => 0 | .refused _ => 1 | .noAck => 2 | .expired => 3 | .lineStopped => 4 | .unitGone => 5

def Cause.code : Cause → Byte
  | .enter => 1 | .cancel => 2 | .firstKey => 3 | .interKey => 4 | .entryCancel => 5 | .unitLost => 6 | .unitRestarted => 7
  | .unitMoved => 8 | .unbound => 9 | .displaced => 10 | .lineStopped => 11 | .unattended => 12 | .cardInserted => 13
  | .cardRemoved => 14 | .cardPresented => 15 | .cardRetained => 16 | .jammed => 17 | .request => 18 | .readComplete => 19
  | .readTimedOut => 20 | .unitRefused => 21 | .unitFailed => 22 | .takeTimeout => 23 | .movementTimeout => 24 | .status => 25
  | .poolFull => 26 | .reset => 27

/-- R198: attendance, 0 ATTENDED, 1 UNATTENDED. -/
def attendanceCode (attended : Bool) : Byte := if attended then 0 else 1

def ResetCause.code : ResetCause → Byte
  | .powerOn => 1 | .resetPin => 2 | .restart => 3

def ProfileOutcome.code : ProfileOutcome → Byte
  | .loaded => 0 | .blank => 1 | .incomplete => 2 | .defaultsForced => 3

def StoreState.code : StoreState → Byte
  | .blank => 0 | .incomplete => 1 | .complete => 2

def ScreenType.code : ScreenType → Byte
  | .source => 0 | .kind => 1

def ScreenType.ofCode (b : Byte) : Option ScreenType :=
  if b = 0 then some .source else if b = 1 then some .kind else none

def SelectorKind.code : SelectorKind → Byte
  | .any => 0 | .identity => 1 | .position => 2 | .line => 3

def SelectorKind.ofCode (b : Byte) : Option SelectorKind :=
  if b = 0 then some .any else if b = 1 then some .identity else if b = 2 then some .position
  else if b = 3 then some .line else none

def ScreenKind.code : ScreenKind → Byte
  | .key => 0 | .cardMove => 1 | .track => 2 | .alert => 3 | .data => 4

def ScreenKind.ofCode (b : Byte) : Option ScreenKind :=
  if b = 0 then some .key else if b = 1 then some .cardMove else if b = 2 then some .track
  else if b = 3 then some .alert else if b = 4 then some .data else none

def ScreenAction.code : ScreenAction → Byte
  | .pass => 0 | .drop => 1 | .reclass => 2 | .witness => 3

def ScreenAction.ofCode (b : Byte) : Option ScreenAction :=
  if b = 0 then some .pass else if b = 1 then some .drop else if b = 2 then some .reclass
  else if b = 3 then some .witness else none

def Status.code : Status → Byte
  | .ok => 0 | .clamped => 1 | .unknownRequest => 2 | .badLength => 3 | .badParameter => 4 | .wrongState => 5
  | .sessionBusy => 6 | .noSuchUnit => 7 | .noSession => 8 | .slotTaken => 9 | .poolFull => 10 | .storeBusy => 11

/-- R201: notice type codes. -/
def NoticeKind.code : NoticeKind → Byte
  | .key => 0x80 | .cardMove => 0x81 | .track => 0x82 | .alert => 0x83 | .data => 0x84
  | .entryResult => 0x90 | .readDone => 0x91 | .sendDone => 0x92 | .commitDone => 0x93 | .start => 0x94

/-! ## Numbered operands -/

/-- A line number 1 to 4. -/
def lineOfByte (b : Byte) : Option LineId :=
  if h : 1 ≤ b.toNat ∧ b.toNat ≤ 4 then some ⟨b.toNat - 1, by omega⟩ else none

/-- A position 1 to 8. -/
def posOfByte (b : Byte) : Option Pos :=
  if h : 1 ≤ b.toNat ∧ b.toNat ≤ 8 then some ⟨b.toNat - 1, by omega⟩ else none

/-- The number of a line on the link. -/
def lineByte (l : LineId) : Byte := byteOf (l.val + 1)

/-- The number of a position on the link, 0 when absent. -/
def posByte : Option Pos → Byte
  | none => 0
  | some p => byteOf (p.val + 1)

/-- A line address in a byte, 0 when absent. -/
def addrByte : Option Addr → Byte
  | none => 0
  | some a => byteOf a.toNat

/-! ## Line frames (R50, R51, R199) -/

def Family.code : Family → Nat
  | .event => 0 | .exchange => 1 | .control => 2 | .data => 3

def Family.ofCode : Nat → Family
  | 0 => .event | 1 => .exchange | 2 => .control | _ => .data

def FrameKind.family : FrameKind → Family
  | .key | .cardMove | .alert => .event
  | .ack | .display | .cardCommand | .unitCommand => .exchange
  | .hello | .status | .grant | .who | .refuse => .control
  | .track | .data => .data

/-- R199: kind codes within their family. -/
def FrameKind.code : FrameKind → Nat
  | .key => 0 | .cardMove => 1 | .alert => 2
  | .ack => 0 | .display => 1 | .cardCommand => 2 | .unitCommand => 3
  | .hello => 0 | .status => 1 | .grant => 2 | .who => 3 | .refuse => 4
  | .track => 0 | .data => 1

/-- R51, R199: the kind of a received frame; `none` is unknown. Only the kinds a unit sends are known. -/
def unitFrameKind (f : Family) (code : Nat) : Option FrameKind :=
  match f, code with
  | .event, 0 => some .key
  | .event, 1 => some .cardMove
  | .event, 2 => some .alert
  | .exchange, 0 => some .ack
  | .control, 0 => some .hello
  | .control, 1 => some .status
  | .data, 0 => some .track
  | .data, 1 => some .data
  | _, _ => none

/-- R199: the header character. -/
def headerChar (u : Urgency) (src : Addr) (f : Family) : Byte :=
  byteOf (u.toNat + 4 * src.toNat + 64 * f.code)

/-- R199: the second character. -/
def secondChar (dest : Addr) (seq : Bool) (k : FrameKind) : Byte :=
  byteOf (dest.toNat + 16 * seq.toNat + 32 * k.code)

def headUrgency (b : Byte) : Urgency := BitVec.ofNat 2 b.toNat
def headSource (b : Byte) : Addr := BitVec.ofNat 4 (b.toNat / 4)
def headFamily (b : Byte) : Family := Family.ofCode (b.toNat / 64)
def secondDest (b : Byte) : Addr := BitVec.ofNat 4 b.toNat
def secondSeq (b : Byte) : Bool := b.getLsbD 4
def secondKind (b : Byte) : Nat := b.toNat / 32

/-- R50: the characters of a frame the part sends, from source 0, with its check. -/
def frameChars (u : Urgency) (dest : Addr) (seq : Bool) (k : FrameKind) (body : List Byte) : List Byte :=
  let chars := headerChar u 0 k.family :: secondChar dest seq k :: byteOf body.length :: body
  chars ++ [checkByte chars]

/-- R51: the kinds that the part sends and a unit acknowledges. -/
def acknowledgedKind : FrameKind → Bool
  | .display | .cardCommand | .unitCommand => true
  | _ => false

/-- R51: the urgency at which the part sends its own frames. -/
def partUrgency : FrameKind → Urgency
  | .grant | .refuse | .ack => 0
  | .who => 2
  | _ => 1

/-- R6: the class of a unit frame follows the urgency of its header. -/
def classOfUrgency (u : Urgency) : Cls :=
  if u = 0 then 0 else if u = 1 then 1 else 2

/-- R97: the notice kind of a stored unit frame. -/
def noticeOfFrame : FrameKind → NoticeKind
  | .cardMove => .cardMove
  | .track => .track
  | .alert => .alert
  | .data => .data
  | _ => .key

/-- R168: the bytes of a link record. -/
def linkRecord (type tag : Byte) (body : List Byte) : List Byte :=
  let inner := type :: tag :: byteOf body.length :: body
  Config.lead :: inner ++ [checkByte inner]

end Sys2Proof.Machine
end

