-- ==== Sys2Proof/Machine/Defaults.lean ====
section
/-! DEFINITION. The default profile (R184, R91) and the state in which a reset leaves each block (R22, R49, R69, R90, R111,
R135, R154, R166, R183). -/

namespace Sys2Proof.Machine

/-- R91: a screen list entry of the default profile. R91 names no kind selector and no selector value for it: the model's choice is
KEY and 0 (log 34). -/
def defaultScreenEntry : ScreenEntry :=
  { inUse := false, type := .source, selector := .any, selValue := 0, kind := .key, action := .pass, cls := 0 }

/-- R184: "POSITION CLOSED ". -/
def defaultClosedText : List Byte :=
  [0x50, 0x4F, 0x53, 0x49, 0x54, 0x49, 0x4F, 0x4E, 0x20, 0x43, 0x4C, 0x4F, 0x53, 0x45, 0x44, 0x20]

/-- R184: the default profile. -/
def defaultProfile : Profile :=
  { lines := Vector.replicate 4 { enabled := true, d := 104, s := 16 }
    ackTimeout := 40, queueLimit := 2000, grantTimeout := 250, silenceLimit := 3, lostLimit := 20
    reserve0 := 24, reserve1 := 32, unitQuota := 48, wsQuota := 96, bulkAge := 1000
    firstKey := 30, interKey := 10, pinGuard := 2, readTimeout := 5, takeTimeout := 30
    readOnInsert := 0, wsSilence := 8, closedText := defaultClosedText, writeLimit := 2
    pins := Vector.replicate 16 none, screen := Vector.replicate 16 defaultScreenEntry }

/-- R22: a FREE record; its other fields have no meaning (log 26). -/
def freeRec : Rec :=
  { state := .free, origin := .part, kind := .notice .key, cls := 0, urg := 0, arrival := 0, len := 0, chunks := [], refs := 0,
    promise := none }

/-- R22: the pool after a reset; the chunks keep their bytes (R1). -/
def resetPool (mem : List Host.Cell) : Pool :=
  { free := List.range 256, mem := mem, recs := Vector.replicate 64 freeRec, refusals := Vector.replicate 9 0, refLimit := 0
    lowF := 256, lowG := 64 }

def zeroCounters : LineCounters :=
  { parity := 0, framing := 0, noisy := 0, falseStart := 0, check := 0, oversize := 0, gap := 0, busy := 0, stray := 0,
    arbLoss := 0, bitError := 0, stuck := 0 }

/-- R49, R69, R90: a line after a reset. -/
def resetLine : Line :=
  { state := .stopped, timing := none, idle := false, rx := .hunting, acks := [], control := [], pass := [], tx := none
    whoAt := Vector.replicate 16 none, counters := zeroCounters, mark := false, latest := 0 }

/-- R90: a directory entry after a reset. -/
def resetEntry : DirEntry :=
  { identity := 0, kind := .reader, state := .free, line := 0, addr := none, pos := none, pinned := false, established := false
    lastHeard := 0, grantAttempts := 0, outBit := false, inBit := none, condition := .ok, grantTimer := none
    silenceTimer := none, lostTimer := none, mark := false, latest := 0 }

/-- R200: a blank display position is 0x20. -/
def blankLine : List Byte := List.replicate 16 0x20

def blankLines : DisplayLines := { line1 := blankLine, line2 := blankLine }

/-- R135: an entry context after a reset. -/
def resetEntryCtx : EntryCtx :=
  { sess := none, target := none, wanted := blankLines, dispPending := false, pendTone := .none, retryTimer := none
    guardTimer := none }

/-- R154: a card context after a reset (log 26 for `reader` and `latest`). -/
def resetCardCtx : CardCtx :=
  { state := .empty, cause := .reset, mask := 0, holds := Vector.replicate 3 none, readTimer := none, takeTimer := none
    moveTimer := none, result := none, tag := 0, reader := none, current := none, mark := false, latest := 0 }

/-- R166: Time Base and Attendance after a reset. -/
def resetTime : TimeBase :=
  { mono := 0, offset := 0, attended := true, latest := 0, mark := false, timer := none }

def freeSlot : Slot :=
  { state := .free, type := 0, tag := 0, body := [], status := .ok, fields := [] }

/-- R183: the Workstation Link after a reset (log 39 for `awaitMark`). -/
def resetLink : Link :=
  { rxOn := false, asm := [], awaitMark := false, slots := Vector.replicate 4 freeSlot, order := [], restartPending := false, dropped := 0
    damaged := 0, tx := none }

/-- R189: a store as manufactured; its blocks are not read while it is BLANK (log 23). -/
def blankStore : Store :=
  { state := .blank, blocks := Vector.replicate 8 defaultProfile, commit := none, begun := 0 }

end Sys2Proof.Machine
end

