-- ==== Sys2Proof/Machine/State.lean ====
section
/-! DEFINITION. The state of the CN816, the reasons a step can stop, and the machine right after reset. -/

namespace Sys2Proof.Machine

/-- The part never faults: no rule of the spec stops it, and what it reports it reports in replies, counters and marks
(INVENTORY.md, Faults). So there is no fault reason: nothing raises one, which is safe. -/
inductive Fault where
  deriving DecidableEq, Repr

/-- Why a command could be refused. -/
inductive Refusal where
  /-- Raised by exec for a command that has no meaning yet (safe); no arm of exec raises it now. -/
  | notModelled (mnemonic : String)
  deriving DecidableEq, Repr

/-- Everything the spec gives the part (INVENTORY.md, State). `pending`, `oracle` and `running` are the model's own fields;
`oracle` counts the free choices already made among coincident expiries (log 3). -/
structure State where
  pending : List Instr
  oracle : Nat
  running : Bool
  resetPin : Bool
  pausePin : Bool
  straps : Straps
  resetCause : ResetCause
  profileOutcome : ProfileOutcome
  linkRate : BitVec 2
  time : TimeBase
  pool : Pool
  lines : Vector Line 4
  dir : Vector DirEntry 16
  w0 : List Notice
  w1 : List Notice
  w2 : List Notice
  fanouts : List Fanout
  hits : Vector Nat 16
  entry : Vector EntryCtx 8
  card : Vector CardCtx 8
  link : Link
  profile : Profile
  store : Store
  deriving DecidableEq, Repr

/-- The part right after a reset, RESET still asserted: every block in the state its reset rule gives, start-up not begun
(R195: while RESET is held asserted the part stays in that state; log 4). -/
def State.reset : State :=
  { pending := [], oracle := 0, running := false, resetPin := true, pausePin := false, straps := { lrate := 0, pdef := false }
    resetCause := .powerOn, profileOutcome := .blank, linkRate := 0
    time := resetTime, pool := resetPool [], lines := Vector.replicate 4 resetLine, dir := Vector.replicate 16 resetEntry
    w0 := [], w1 := [], w2 := [], fanouts := [], hits := Vector.replicate 16 0
    entry := Vector.replicate 8 resetEntryCtx, card := Vector.replicate 8 resetCardCtx, link := resetLink
    profile := defaultProfile, store := blankStore }

end Sys2Proof.Machine
end

