-- ==== Sys2Proof/Machine/Memory.lean ====
section
/-! DEFINITION. The chunk store of the Frame Pool (R1, R5): 256 chunks of 32 bytes as one list of cells in canonical form. The
address of a byte is 32 times its chunk number plus its offset. -/

namespace Sys2Proof.Machine

/-- What an unlisted address reads as. The spec gives no content for a chunk that nothing has written, and says that stale
bytes have no effect (R1). DESIGN CHOICE, log 9. -/
def unlistedByte : Byte := 0

/-- Read one byte. -/
def memRead : List Host.Cell → Nat → Byte
  | [], _ => unlistedByte
  | c :: rest, a => if c.1 = a then c.2 else memRead rest a

/-- Write one byte, keeping the addresses rising and no cell equal to what an unlisted address reads as. -/
def memWrite : List Host.Cell → Nat → Byte → List Host.Cell
  | [], a, v => if v = unlistedByte then [] else [(a, v)]
  | c :: rest, a, v =>
    if a < c.1 then (if v = unlistedByte then c :: rest else (a, v) :: c :: rest)
    else if a = c.1 then (if v = unlistedByte then rest else (a, v) :: rest)
    else c :: memWrite rest a v

/-- The canonical form: addresses strictly rising, no cell equal to what an unlisted address reads as. -/
def memWf : List Host.Cell → Bool
  | [] => true
  | [c] => c.2 != unlistedByte
  | c :: d :: rest => (c.2 != unlistedByte) && decide (c.1 < d.1) && memWf (d :: rest)

/-- R5: the address of byte i of a body with this chunk list. -/
def bodyAddr (chunks : List Nat) (i : Nat) : Nat :=
  chunks.getD (i / Config.chunkBytes) 0 * Config.chunkBytes + i % Config.chunkBytes

/-- Write bytes of a body from byte i on. -/
def memWriteBody (mem : List Host.Cell) (chunks : List Nat) : Nat → List Byte → List Host.Cell
  | _, [] => mem
  | i, b :: bs => memWriteBody (memWrite mem (bodyAddr chunks i) b) chunks (i + 1) bs

/-- Read the first n bytes of a body. -/
def memReadBody (mem : List Host.Cell) (chunks : List Nat) (n : Nat) : List Byte :=
  (List.range n).map fun i => memRead mem (bodyAddr chunks i)

end Sys2Proof.Machine
end

