-- ==== Sys2Proof/Machine/Ops.lean ====
section
/-! DEFINITION. The named updates of State: one item of a block at a time, and the timers. -/

namespace Sys2Proof.Machine

def allLines : List LineId := [0, 1, 2, 3]
def allPos : List Pos := [0, 1, 2, 3, 4, 5, 6, 7]
def allEntries : List EntryId := [0, 1, 2, 3, 4, 5, 6, 7, 8, 9, 10, 11, 12, 13, 14, 15]
def allSlots : List SlotId := [0, 1, 2, 3]
def allRecs : List RecId := List.finRange 64

/-- The monotonic count (R155). -/
def State.now (s : State) : Ms := s.time.mono

def State.modLine (s : State) (l : LineId) (f : Line → Line) : State :=
  { s with lines := s.lines.set l (f s.lines[l]) }

def State.modDir (s : State) (e : EntryId) (f : DirEntry → DirEntry) : State :=
  { s with dir := s.dir.set e (f s.dir[e]) }

def State.modEntry (s : State) (p : Pos) (f : EntryCtx → EntryCtx) : State :=
  { s with entry := s.entry.set p (f s.entry[p]) }

def State.modCard (s : State) (p : Pos) (f : CardCtx → CardCtx) : State :=
  { s with card := s.card.set p (f s.card[p]) }

def State.modLink (s : State) (f : Link → Link) : State :=
  { s with link := f s.link }

def State.modSlot (s : State) (k : SlotId) (f : Slot → Slot) : State :=
  s.modLink fun k' => { k' with slots := k'.slots.set k (f k'.slots[k]) }

def State.modPool (s : State) (f : Pool → Pool) : State :=
  { s with pool := f s.pool }

def Pool.modRec (p : Pool) (r : RecId) (f : Rec → Rec) : Pool :=
  { p with recs := p.recs.set r (f p.recs[r]) }

/-- Put a notice at the tail of the workstation queue of a queue class (R101). -/
def State.pushW (s : State) (q : Cls) (n : Notice) : State :=
  match q with
  | 0 => { s with w0 := s.w0 ++ [n] }
  | 1 => { s with w1 := s.w1 ++ [n] }
  | _ => { s with w2 := s.w2 ++ [n] }

/-! ## Timers (R159) -/

/-- Arm a timer for n milliseconds: it expires at the n-th boundary after. -/
def armMs (n : Nat) : Timer := some n

/-- A duration in seconds is armed as 1,000 times that number of milliseconds. -/
def armSec (n : Nat) : Timer := some (1000 * n)

/-- One millisecond boundary passes. -/
def tickTimer (t : Timer) : Timer := t.map (· - 1)

end Sys2Proof.Machine
end

