-- ==== Sys2Proof/Machine/Flags.lean ====
section
/-! DEFINITION. Marks (R46, R89, R110, R152, R165), the HOLD line (R174), the driven levels of the pins (R23, R167), the counters of
a line (R47) and the counts of the link (R177). -/

namespace Sys2Proof.Machine

/-! ## Marks -/

/-- Set the LINE_STATE mark; the count is the latest change (R46, R110). -/
def setLineMark (s : State) (l : LineId) : State :=
  s.modLine l fun ln => { ln with mark := true, latest := s.now }

/-- Set the UNIT_STATE mark (R89, R110). -/
def setDirMark (s : State) (e : EntryId) : State :=
  s.modDir e fun d => { d with mark := true, latest := s.now }

/-- Set the ATTENDANCE mark (R163, R164, R165). -/
def setAttendance (s : State) (attended : Bool) : State :=
  { s with time := { s.time with attended := attended, mark := true, latest := s.now } }

/-! ## HOLD -/

/-- R173: the busy slots. -/
def busySlots (k : Link) : Nat :=
  (allSlots.filter fun i => k.slots[i].state != .free).length

/-- R174: HOLD is asserted whenever any of the three conditions holds. -/
def State.hold (s : State) : Bool :=
  decide (3 ≤ busySlots s.link) || s.link.restartPending || !s.link.rxOn

/-! ## Driven levels (R23, R167, R183)

Which bit of a transmission is being sent at a moment is below an event (log 5), so a level is given for a place in it: character and
bit, counted from 0. -/

/-- R35: bit `bit` of character `chr` of a transmission, as sent: a one is recessive. -/
def txBit (t : Tx) (chr bit : Nat) : Bool := sentBit (t.chars.getD chr 0) bit

/-- R23: the line engine drives its pair dominant, and asserts its drive enable (CL1DE to CL4DE), during each bit in which it is
sending a zero, and at no other time: a line without a transmission is released. -/
def Line.drives (ln : Line) (chr bit : Nat) : Bool :=
  match ln.tx with
  | none => false
  | some t => decide (chr < t.chars.length) && decide (bit ≤ 10) && !txBit t chr bit

/-- R23: the level that a line presents, `true` being recessive, with whether another station drives it dominant. -/
def Line.level (ln : Line) (chr bit : Nat) (others : Bool) : Bool := !ln.drives chr bit && !others

/-- R167, R178, R183: the level of TXD in a bit of a byte of the record being sent, `true` being mark; mark when none is sent. -/
def Link.txd (k : Link) (byte bit : Nat) : Bool :=
  match k.tx with
  | none => true
  | some t => decide (t.bytes.length ≤ byte) || linkSentBit (t.bytes.getD byte 0) bit

/-! ## Counters of a line (R47) -/

def countLine (s : State) (l : LineId) (f : LineCounters → LineCounters) : State :=
  s.modLine l fun ln => { ln with counters := f ln.counters }

def LineCounters.addParity (c : LineCounters) : LineCounters := { c with parity := satInc Config.count16 c.parity }
def LineCounters.addFraming (c : LineCounters) : LineCounters := { c with framing := satInc Config.count16 c.framing }
def LineCounters.addNoisy (c : LineCounters) : LineCounters := { c with noisy := satInc Config.count16 c.noisy }
def LineCounters.addFalseStart (c : LineCounters) : LineCounters := { c with falseStart := satInc Config.count16 c.falseStart }
def LineCounters.addCheck (c : LineCounters) : LineCounters := { c with check := satInc Config.count16 c.check }
def LineCounters.addOversize (c : LineCounters) : LineCounters := { c with oversize := satInc Config.count16 c.oversize }
def LineCounters.addGap (c : LineCounters) : LineCounters := { c with gap := satInc Config.count16 c.gap }
def LineCounters.addBusy (c : LineCounters) : LineCounters := { c with busy := satInc Config.count16 c.busy }
def LineCounters.addStray (c : LineCounters) : LineCounters := { c with stray := satInc Config.count16 c.stray }
def LineCounters.addArbLoss (c : LineCounters) : LineCounters := { c with arbLoss := satInc Config.count16 c.arbLoss }
def LineCounters.addBitError (c : LineCounters) : LineCounters := { c with bitError := satInc Config.count16 c.bitError }
def LineCounters.addStuck (c : LineCounters) : LineCounters := { c with stuck := satInc Config.count16 c.stuck }

/-- The twelve counters in the order of R47. -/
def LineCounters.toList (c : LineCounters) : List Nat :=
  [c.parity, c.framing, c.noisy, c.falseStart, c.check, c.oversize, c.gap, c.busy, c.stray, c.arbLoss, c.bitError, c.stuck]

/-! ## Counts of the link (R177) -/

def countDropped (s : State) : State := s.modLink fun k => { k with dropped := satInc Config.count8 k.dropped }
def countDamaged (s : State) : State := s.modLink fun k => { k with damaged := satInc Config.count8 k.damaged }

end Sys2Proof.Machine
end

