-- ==== Sys2Proof/Machine/PoolOps.lean ====
section
/-! DEFINITION. The Frame Pool (chapter 1): counts, admission, references and release, bodies, promises and completion
notices. -/

namespace Sys2Proof.Machine

/-! ## Counts (R4, R5, R10) -/

/-- R4: the free-chunk count F. -/
def Pool.chunksFree (p : Pool) : Nat := p.free.length

/-- R4: the free-record count G. -/
def Pool.recsFree (p : Pool) : Nat := p.recs.toList.countP fun r => r.state == .free

/-- The records in a state (R20). -/
def Pool.recsIn (p : Pool) (st : RecState) : Nat := p.recs.toList.countP fun r => r.state == st

/-- The chunks of the records that are not FREE and satisfy a test. -/
def Pool.chunksOf (p : Pool) (test : Rec → Bool) : Nat :=
  ((p.recs.toList.filter fun r => r.state != .free && test r).map fun r => r.chunks.length).sum

/-- R10: the holding of a directory entry. -/
def Pool.unitHeld (p : Pool) (e : EntryId) : Nat :=
  p.chunksOf fun r => match r.origin with
    | .unit e' _ _ => e' == e
    | _ => false

/-- R10: the workstation holding. -/
def Pool.wsHeld (p : Pool) : Nat :=
  p.chunksOf fun r => match r.origin with
    | .workstation _ => true
    | _ => false

/-- R5: the chunks a body of L bytes needs. -/
def chunkNeed (len : Nat) : Nat := max 1 ((len + 31) / 32)

/-! ## Admission (R7 to R9) -/

/-- R7, test 1. -/
def chunkTest (prof : Profile) (f : Nat) (c : Cls) (n : Nat) : Bool :=
  match c with
  | 0 => decide (n ≤ f)
  | 1 => decide (n + prof.reserve0 ≤ f)
  | _ => decide (n + prof.reserve0 + prof.reserve1 ≤ f)

/-- R7, test 2. -/
def recordTest (g : Nat) (c : Cls) : Bool :=
  match c with
  | 0 => decide (1 ≤ g)
  | 1 => decide (5 ≤ g)
  | _ => decide (9 ≤ g)

/-- R7, test 3: the quota applies to UNIT and WORKSTATION origin. -/
def quotaTest (prof : Profile) (p : Pool) (o : Origin) (n : Nat) : Bool :=
  match o with
  | .unit e _ _ => decide (p.unitHeld e + n ≤ prof.unitQuota)
  | .workstation _ => decide (p.wsHeld + n ≤ prof.wsQuota)
  | .part => true

/-- R7: the first test that fails, taken in the order chunk, record, quota. -/
def failedTest (prof : Profile) (p : Pool) (c : Cls) (n : Nat) (o : Origin) : Option AdmissionTest :=
  if !chunkTest prof p.chunksFree c n then some .chunk
  else if !recordTest p.recsFree c then some .record
  else if !quotaTest prof p o n then some .quota
  else none

/-- R9, R20: the refusal counter of a test and class. -/
def refusalIndex : AdmissionTest → Cls → Fin 9
  | .chunk, c => ⟨c.val, by omega⟩
  | .record, c => ⟨3 + c.val, by omega⟩
  | .quota, c => ⟨6 + c.val, by omega⟩

/-- R9, R21: a refused admission changes nothing but its counter. -/
def Pool.countRefusal (p : Pool) (t : AdmissionTest) (c : Cls) : Pool :=
  { p with refusals := p.refusals.set (refusalIndex t c) (satInc Config.count16 p.refusals[refusalIndex t c]) }

/-- R8: the lowest-numbered FREE record. -/
def Pool.lowestFree (p : Pool) : Option RecId := allRecs.find? fun r => p.recs[r].state == .free

/-- R8, R21: a granted admission: the record, the first n chunks of the free list, count 1, and the lowest counts. -/
def Pool.grant (p : Pool) (r : RecId) (a : Admission) : Pool :=
  let p1 := { p with
    free := p.free.drop a.need
    recs := p.recs.set r
      { state := a.state, origin := a.origin, kind := a.kind, cls := a.cls, urg := a.urg, arrival := a.arrival, len := 0,
        chunks := p.free.take a.need, refs := 1, promise := a.promise } }
  { p1 with lowF := min p1.lowF p1.chunksFree, lowG := min p1.lowG p1.recsFree }

/-- R7 to R9: ask for admission; the record on a grant. -/
def admitRec (s : State) (a : Admission) : State × Option RecId :=
  match failedTest s.profile s.pool a.cls a.need a.origin with
  | some t => (s.modPool fun p => p.countRefusal t a.cls, none)
  | none =>
    match s.pool.lowestFree with
    | none => (s, none)
    | some r => (s.modPool fun p => p.grant r a, some r)

/-! ## References and release (R13 to R15) -/

/-- R14: the record and its chunks return to the pool, the chunks to the tail of the free list. -/
def Pool.release (p : Pool) (r : RecId) : Pool :=
  { p with
    free := p.free ++ p.recs[r].chunks
    recs := p.recs.set r { p.recs[r] with state := .free, refs := 0, chunks := [], promise := none } }

/-- R14: a holder gives up a reference; at count 0 the record is released. -/
def Pool.dropRef (p : Pool) (r : RecId) : Pool :=
  if p.recs[r].refs ≤ 1 then p.release r
  else p.modRec r fun x => { x with refs := x.refs - 1 }

def dropRef (s : State) (r : RecId) : State := s.modPool fun p => p.dropRef r

/-- R15: one more reference, refused at count 20. -/
def addRef (s : State) (r : RecId) : State × Bool :=
  if Config.maxRefs ≤ s.pool.recs[r].refs then
    (s.modPool fun p => { p with refLimit := satInc Config.count16 p.refLimit }, false)
  else (s.modPool fun p => p.modRec r fun x => { x with refs := x.refs + 1 }, true)

/-! ## Bodies (R5) -/

/-- The body of a record. -/
def Pool.body (p : Pool) (r : RecId) : List Byte :=
  memReadBody p.mem p.recs[r].chunks p.recs[r].len

/-- Write a whole body and set the body length. -/
def Pool.setBody (p : Pool) (r : RecId) (bytes : List Byte) : Pool :=
  let p1 := { p with mem := memWriteBody p.mem p.recs[r].chunks 0 bytes }
  p1.modRec r fun x => { x with len := bytes.length }

/-- Add bytes at the end of a body and raise the body length (R12, R17). -/
def Pool.appendBody (p : Pool) (r : RecId) (bytes : List Byte) : Pool :=
  let p1 := { p with mem := memWriteBody p.mem p.recs[r].chunks p.recs[r].len bytes }
  p1.modRec r fun x => { x with len := x.len + bytes.length }

/-- R19: a part-built record is admitted, written and STORED in one event. -/
def admitBuilt (s : State) (c : Cls) (o : Origin) (k : RecKind) (u : Urgency) (body : List Byte) : State × Option RecId :=
  match admitRec s { cls := c, need := chunkNeed body.length, origin := o, kind := k, urg := u, arrival := s.now,
                     state := .stored, promise := none } with
  | (s1, none) => (s1, none)
  | (s1, some r) => (s1.modPool fun p => p.setBody r body, some r)

/-! ## Promises (R16 to R18) -/

/-- R16: the chunk allowance of a completion notice. -/
def promiseChunks : NoticeKind → Nat
  | .sendDone => 4
  | _ => 1

/-- R16: reserve a promise of class 0 and PART origin, carrying the tag. -/
def reserve (s : State) (k : NoticeKind) (tag : Byte) : State × Option RecId :=
  admitRec s { cls := 0, need := promiseChunks k, origin := .part, kind := .notice k, urg := 0, arrival := s.now,
               state := .reserved, promise := some tag }

/-- R101: the notice entry of a completed promise; its tag is the record's promise tag. -/
def completionEntry (s : State) (r : RecId) (k : NoticeKind) (pos : Option Pos) : Notice :=
  { record := r, kind := k, tag := s.pool.recs[r].promise.getD 0, unit := none, pos := pos, witnessed := false, resent := false }

/-- R17: the record becomes STORED with arrival at this event. -/
def storeNow (s : State) (r : RecId) : State :=
  s.modPool fun p => p.modRec r fun x => { x with state := .stored, arrival := s.now }

/-- R17: the owner writes the final content, the record becomes STORED, and its notice is queued. -/
def completePromise (s : State) (r : RecId) (k : NoticeKind) (q : Cls) (pos : Option Pos) (body : List Byte) : State :=
  let s1 := storeNow (s.modPool fun p => p.setBody r body) r
  s1.pushW q (completionEntry s1 r k pos)

end Sys2Proof.Machine
end

