-- ==== Sys2Proof/Machine/Lookup.lean ====
section
/-! DEFINITION. What the other blocks ask of the Unit Directory: who holds an identity, an address or a slot (R70 to R72). -/

namespace Sys2Proof.Machine

/-- R70: an entry is present when it is PENDING, ACTIVE or SILENT. -/
def DirEntry.present (d : DirEntry) : Bool :=
  match d.state with
  | .pending | .active | .silent => true
  | _ => false

/-- R70: an identity is held by an entry whose state is not FREE. -/
def holderOf (s : State) (i : Identity) : Option EntryId :=
  allEntries.find? fun e => s.dir[e].state != .free && s.dir[e].identity == i

/-- R72: whether an entry holds this line and address. -/
def holdsAt (d : DirEntry) (l : LineId) (a : Addr) : Bool :=
  d.present && d.line == l && d.addr == some a

/-- R72, R81: the present entry that holds a line and address. -/
def entryAt (s : State) (l : LineId) (a : Addr) : Option EntryId :=
  allEntries.find? fun e => holdsAt s.dir[e] l a

/-- R71: whether an entry is named by the slot of kind k at position p. -/
def inSlot (d : DirEntry) (k : UnitKind) (p : Pos) : Bool :=
  d.state != .free && d.kind == k && d.pos == some p

/-- R71: the entry that the slot of kind k at position p names. The slots are read from the entries' position fields, so a
slot and the entry it names agree at all times. -/
def slotOf (s : State) (k : UnitKind) (p : Pos) : Option EntryId :=
  allEntries.find? fun e => inSlot s.dir[e] k p

/-- R72: the lowest free address of a line; `none` when the line is full. -/
def lowestFreeAddr (s : State) (l : LineId) : Option Addr :=
  [1, 2, 3, 4, 5, 6, 7, 8, 9, 10, 11, 12, 13, 14].find? fun a => (entryAt s l a).isNone

/-- R101: the unit fields of a notice, from the directory entry as it stands. -/
def unitRef (d : DirEntry) : UnitRef := { identity := d.identity, line := d.line, addr := d.addr, kind := d.kind }

/-- The bound reader's or keypad's identity at a position, for reports. -/
def slotIdentity (s : State) (k : UnitKind) (p : Pos) : Option Identity :=
  (slotOf s k p).map fun e => s.dir[e].identity

/-- A line that is STOPPED. -/
def State.lineStopped (s : State) (l : LineId) : Bool := s.lines[l].state == .stopped

end Sys2Proof.Machine
end

