-- ==== Sys2Proof/Machine/Offers.lean ====
section
/-! DEFINITION. Offering frames to a line's control queue (R19, R44, R60) and display coalescing (R68); the KEY notice that the
Entry Engine builds (R117). -/

namespace Sys2Proof.Machine

/-- What becomes of an offered frame: queued under a record or folded into one, refused by the pool (R9), or ended
LINE_STOPPED at once (R44). -/
inductive Offer where
  | carried (r : RecId)
  | refused
  | stopped
  deriving DecidableEq, Repr

/-- R60: a new queue entry: attempts 0, not sent, not open, its queue-limit timer armed with the queue limit (R66). -/
def newEntry (s : State) (r : RecId) (dest : Addr) (target : Option EntryId) (owner : Owner) : QEntry :=
  { record := r, dest := dest, target := target, queuedAt := s.now, attempts := 0, sent := false, isOpen := false,
    awaiting := false, inTx := false, lastBit := false, ackTimer := none, limitTimer := armMs s.profile.queueLimit,
    owner := owner }

/-- R19, R44, R60: offer a frame that the part builds to the control queue of a line. -/
def offerControl (s : State) (l : LineId) (k : FrameKind) (dest : Addr) (target : Option EntryId) (owner : Owner)
    (body : List Byte) : State × Offer :=
  if s.lineStopped l then (s, .stopped)
  else
    match admitBuilt s (classOfUrgency (partUrgency k)) .part (.frame k) (partUrgency k) body with
    | (s1, none) => (s1, .refused)
    | (s1, some r) =>
      (s1.modLine l fun ln => { ln with control := ln.control ++ [newEntry s1 r dest target owner] }, .carried r)

/-- R200: a DISPLAY body. -/
def displayBody (d : DisplayLines) (t : Tone) : List Byte := d.line1 ++ d.line2 ++ [t.code]

/-- R68: an unsent DISPLAY of the same context for the same keypad, into which a new one is folded. -/
def foldable (s : State) (p : Pos) (dest : Addr) (q : QEntry) : Bool :=
  s.pool.recs[q.record].kind == .frame .display && q.dest == dest && q.owner == .entry p && !q.inTx && !q.sent

/-- R68: offer a DISPLAY of an entry context, folding it into an unsent one when there is one. -/
def offerDisplay (s : State) (l : LineId) (dest : Addr) (e : EntryId) (p : Pos) (d : DisplayLines) (t : Tone) : State × Offer :=
  if s.lineStopped l then (s, .stopped)
  else
    match s.lines[l].control.find? (foldable s p dest) with
    | some q =>
      let old := Tone.ofCode (byteAt (s.pool.body q.record) 32)
      (s.modPool fun pl => pl.setBody q.record (displayBody d (strongerTone old t)), .carried q.record)
    | none => offerControl s l .display dest (some e) (.entry p) (displayBody d t)

/-- R79: offer a GRANT for an entry to its line. A refused GRANT is skipped. -/
def offerGrant (s : State) (e : EntryId) : State :=
  let d := s.dir[e]
  (offerControl s d.line .grant 15 none .directory (identityBytes d.identity ++ [addrByte d.addr])).1

/-- R79, R198: offer a REFUSE; reason 1 is DIRECTORY_FULL, 2 LINE_FULL. A refused REFUSE is skipped. -/
def offerRefuse (s : State) (l : LineId) (i : Identity) (reason : Byte) : State :=
  (offerControl s l .refuse 15 none .directory (identityBytes i ++ [reason])).1

/-- R40: the general-call WHO of a line start, skipped if the pool refuses it. -/
def offerGeneralWho (s : State) (l : LineId) : State :=
  (offerControl s l .who 15 none .directory []).1

/-- R84: a WHO to a stray address from 1 to 14, at most one in 1,000 ms. -/
def offerStrayWho (s : State) (l : LineId) (a : Addr) : State :=
  let due := match s.lines[l].whoAt[a.toFin] with
    | none => true
    | some t => decide (Config.whoSpacing ≤ elapsed s.now t)
  if a = 0 ∨ a = 15 ∨ !due then s
  else
    match offerControl s l .who a none .directory [] with
    | (s1, .carried _) => s1.modLine l fun ln => { ln with whoAt := ln.whoAt.set a.toFin (some s1.now) }
    | (s1, _) => s1

/-- R117, R130, R131: build a KEY notice of key codes and queue it on W1; a refused one is skipped. -/
def keyNotice (s : State) (p : Pos) (e : EntryId) (codes : List Byte) : State :=
  match admitBuilt s 1 .part (.notice .key) 0 codes with
  | (s1, none) => s1
  | (s1, some r) =>
    s1.pushW 1 { record := r, kind := .key, tag := 0, unit := some (unitRef s1.dir[e]), pos := some p, witnessed := false,
                 resent := false }

end Sys2Proof.Machine
end

