-- ==== Sys2Proof/Machine/EntryEngine.lean ====
section
/-! DEFINITION. The Entry Engine (chapter 6): field arithmetic, displays, endings, key taking and the PIN guard. -/

namespace Sys2Proof.Machine

/-! ## Displays (R118, R120 to R123, R132, R133) -/

/-- The decimal digits of a number, at least one, no leading zeros; fuel bounds the digits. -/
def decDigits : Nat → Nat → List Nat
  | 0, n => [n % 10]
  | fuel + 1, n => if n < 10 then [n] else decDigits fuel (n / 10) ++ [n % 10]

/-- Exactly k decimal digits of n. -/
def fixedDigits : Nat → Nat → List Nat
  | 0, _ => []
  | k + 1, n => fixedDigits k (n / 10) ++ [n % 10]

def digitChar (d : Nat) : Byte := byteOf (0x30 + d)

/-- R120: the amount text. -/
def amountText (k v : Nat) : List Byte :=
  (decDigits 12 (v / 10 ^ k)).map digitChar ++ if k = 0 then [] else 0x2E :: (fixedDigits k (v % 10 ^ k)).map digitChar

/-- R120: the prefix at the left edge, the amount at the right edge, spaces between. -/
def amountLine (pfx : List Byte) (k v : Nat) : List Byte :=
  let t := amountText k v
  pfx ++ List.replicate (16 - pfx.length - t.length) 0x20 ++ t

/-- R121, R122: one star for each digit, up to 16. -/
def starLine (count : Nat) : List Byte := padTo 16 0x20 (List.replicate (min 16 count) 0x2A)

/-- R120 to R123: line 2 of a session's display. -/
def sessionLine2 (ss : Session) : List Byte :=
  match ss.field with
  | .amount k _ _ => amountLine ss.pfx k ss.value
  | .digits _ _ false => padTo 16 0x20 ((ss.digits.drop (ss.digits.length - 16)).map digitChar)
  | .digits _ _ true => starLine ss.digits.length
  | .pin _ _ => starLine ss.digits.length
  | .confirm => blankLine

/-- R118: a session's display: line 1 the prompt, line 2 the value. -/
def sessionLines (ss : Session) : DisplayLines := { line1 := ss.prompt, line2 := sessionLine2 ss }

/-- R132, R133: display pending becomes set; the retry timer is armed if it is not running. -/
def setDisplayPending (s : State) (p : Pos) (t : Tone) : State :=
  s.modEntry p fun c =>
    { c with dispPending := true, pendTone := t,
             retryTimer := if c.retryTimer.isSome then c.retryTimer else armMs Config.displayRetry }

/-- R132: display pending is cleared and the retry timer stopped. -/
def clearDisplayPending (s : State) (p : Pos) : State :=
  s.modEntry p fun c => { c with dispPending := false, pendTone := .none, retryTimer := none }

/-- R132, step 4: where the display target's keypad is to be reached: its entry, line and address. -/
def targetPlace (s : State) (t : Option (EntryId × Identity)) : Option (EntryId × LineId × Addr) :=
  match t with
  | none => none
  | some (e, i) =>
    let d := s.dir[e]
    if d.identity = i then d.addr.map fun a => (e, d.line, a) else none

/-- R132: compose an update and offer it to the display target. -/
def displayUpdate (s : State) (p : Pos) (d : DisplayLines) (t : Tone) : State :=
  let s1 := s.modEntry p fun c => { c with wanted := d }
  let tone := strongerTone t s1.entry[p].pendTone
  match targetPlace s1 s1.entry[p].target with
  | none => (clearDisplayPending s1 p).modEntry p fun c => { c with target := none }
  | some (e, l, a) =>
    match offerDisplay s1 l a e p d tone with
    | (s2, .carried _) => clearDisplayPending s2 p
    | (s2, _) => setDisplayPending s2 p tone

/-- R132: the outcomes NO_ACK, EXPIRED and LINE_STOPPED of a context's DISPLAY set display pending, the pending tone unchanged. -/
def displayOutcome (s : State) (p : Pos) (o : FrameOutcome) : State :=
  match o with
  | .noAck | .expired | .lineStopped => setDisplayPending s p s.entry[p].pendTone
  | _ => s

/-- R133: whether the display target is on a STOPPED line (log 25). -/
def targetLineStopped (s : State) (t : Option (EntryId × Identity)) : Bool :=
  match t with
  | none => false
  | some (e, i) => s.dir[e].state != .free && s.dir[e].identity == i && s.lineStopped s.dir[e].line

/-- R133: the retry of a pending display. -/
def displayRetry (s : State) (p : Pos) : State :=
  let s1 := s.modEntry p fun c => { c with retryTimer := none }
  if !s1.entry[p].dispPending then s1
  else if targetLineStopped s1 s1.entry[p].target then
    s1.modEntry p fun c => { c with retryTimer := armMs Config.displayRetry }
  else displayUpdate s1 p s1.entry[p].wanted .none

/-! ## Endings (R125 to R127) -/

/-- R127, R201: the value field of ENTRY_RESULT and ENTRY_STATUS. `done` is the outcome COMPLETED, with its cause. -/
def valueField (ss : Session) (done : Option Cause) : List Byte :=
  match ss.field with
  | .amount .. => leBytes 6 ss.value ++ List.replicate 7 0
  | .digits .. => byteOf ss.digits.length :: padTo 12 0xFF (packDigits ss.digits)
  | .pin .. =>
    byteOf ss.digits.length :: (if done.isSome then padTo 12 0xFF (packDigits ss.digits) else List.replicate 12 0xFF)
  | .confirm =>
    (match done with
      | some .enter => 1
      | some _ => 0
      | none => 0xFF) :: List.replicate 12 0

/-- R127, R201: the stored body of an ENTRY_RESULT. -/
def entryResultBody (p : Pos) (ss : Session) (o : EntryOutcome) (c : Cause) : List Byte :=
  posByte (some p) :: identityBytes ss.keypadId ++ [ss.field.code, o.code, c.code]
    ++ valueField ss (if o = .completed then some c else none)

/-- R126, step 4: the closing lines: blank, or the closed text on both lines for the cause UNATTENDED. -/
def closingLines (s : State) (c : Cause) : DisplayLines :=
  if c = .unattended then { line1 := s.profile.closedText, line2 := s.profile.closedText } else blankLines

def Field.isPin : Field → Bool
  | .pin .. => true
  | _ => false

/-- R126: a session ends. -/
def endSession (s : State) (p : Pos) (ss : Session) (o : EntryOutcome) (c : Cause) (tone : Tone) : State :=
  let s1 := completePromise s ss.result .entryResult 0 (some p) (entryResultBody p ss o c)
  let s2 := s1.modEntry p fun x => { x with sess := none }
  let s3 := displayUpdate s2 p (closingLines s2 c) tone
  if ss.field.isPin && s3.profile.pinGuard != 0 then
    s3.modEntry p fun x => { x with guardTimer := armSec s3.profile.pinGuard }
  else s3

/-- R125, R129: end the session at a position ABORTED, if one is open. -/
def abortSession (s : State) (p : Pos) (c : Cause) : State :=
  match s.entry[p].sess with
  | none => s
  | some ss => endSession s p ss .aborted c .none

/-! ## Keys (R117, R119 to R123) -/

/-- The keys of R117 (6.3). -/
inductive Key where
  | digit (d : Nat) | doubleZero | back | clear | enter | cancel
  deriving DecidableEq, Repr

/-- What a key code names (R198). -/
inductive KeyCode where
  | key (k : Key) | function | unknown
  deriving DecidableEq, Repr

/-- R198: the key codes. -/
def keyOfCode (b : Byte) : KeyCode :=
  let n := b.toNat
  if n ≤ 9 then .key (.digit n)
  else if n = 0x0A then .key .doubleZero
  else if n = 0x0B then .key .back
  else if n = 0x0C then .key .clear
  else if n = 0x0D then .key .enter
  else if n = 0x0E then .key .cancel
  else if 0x11 ≤ n ∧ n ≤ 0x14 then .function
  else .unknown

/-- The fate of a taken key: accepted with the session it leaves, refused, or the end of the session. -/
inductive Fate where
  | accepted (ss : Session)
  | refused
  | ends (o : EntryOutcome) (c : Cause)
  deriving DecidableEq, Repr

/-- R119: the taken keys of an AMOUNT session. -/
def amountKey (ss : Session) (maxV minV : Nat) : Key → Fate
  | .digit d => if ss.value * 10 + d ≤ maxV then .accepted { ss with value := ss.value * 10 + d } else .refused
  | .doubleZero => if ss.value * 100 ≤ maxV then .accepted { ss with value := ss.value * 100 } else .refused
  | .back => .accepted { ss with value := ss.value / 10 }
  | .clear => .accepted { ss with value := 0 }
  | .enter => if minV ≤ ss.value then .ends .completed .enter else .refused
  | .cancel => .ends .cancelled .cancel

/-- R121, R122: the taken keys of a DIGITS or PIN session; DOUBLE_ZERO is refused in a PIN session. -/
def digitsKey (ss : Session) (minL maxL : Nat) (pin : Bool) : Key → Fate
  | .digit d => if ss.digits.length < maxL then .accepted { ss with digits := ss.digits ++ [d] } else .refused
  | .doubleZero =>
    if !pin ∧ ss.digits.length + 2 ≤ maxL then .accepted { ss with digits := ss.digits ++ [0, 0] } else .refused
  | .back => .accepted { ss with digits := ss.digits.dropLast }
  | .clear => .accepted { ss with digits := [] }
  | .enter => if minL ≤ ss.digits.length then .ends .completed .enter else .refused
  | .cancel => .ends .cancelled .cancel

/-- R123: the taken keys of a CONFIRM session. -/
def confirmKey : Key → Fate
  | .enter => .ends .completed .enter
  | .cancel => .ends .completed .cancel
  | _ => .refused

/-- R117: the fate of a taken key by the field kind. -/
def keyFate (ss : Session) (k : Key) : Fate :=
  match ss.field with
  | .amount _ maxV minV => amountKey ss maxV minV k
  | .digits minL maxL _ => digitsKey ss minL maxL false k
  | .pin minL maxL => digitsKey ss minL maxL true k
  | .confirm => confirmKey k

/-- R117, R124: a taken key that does not end the session makes the context ACTIVE, stops the first-key timer and arms the
inter-key timer. -/
def keyTaken (ss : Session) : Session :=
  { ss with active := true, firstTimer := none, interTimer := armSec ss.interKey }

/-- R130, after a PIN session: the function keys of the remaining codes each become a KEY notice; the rest are discarded. -/
def pinRemainder (s : State) (p : Pos) (e : EntryId) : List Byte → State
  | [] => s
  | c :: cs => pinRemainder (if keyOfCode c = .function then keyNotice s p e [c] else s) p e cs

/-- R130: the codes that follow the key that ended a session. -/
def frameRemainder (s : State) (p : Pos) (e : EntryId) (wasPin : Bool) (codes : List Byte) : State :=
  if wasPin then pinRemainder s p e codes
  else if codes.isEmpty || !s.time.attended then s
  else keyNotice s p e codes

/-- R117, R118: a session takes the codes of a KEY frame in order, and answers them by one update. `taken` and `buzz`: whether
an earlier code of the frame was a taken key, and whether one was refused. -/
def takeKeys (p : Pos) (e : EntryId) : List Byte → Bool → Bool → State → State
  | [], taken, buzz, s =>
    match s.entry[p].sess with
    | some ss => if taken then displayUpdate s p (sessionLines ss) (if buzz then .buzz else .click) else s
    | none => s
  | c :: cs, taken, buzz, s =>
    match s.entry[p].sess with
    | none => s
    | some ss =>
      match keyOfCode c with
      | .function => takeKeys p e cs taken buzz (keyNotice s p e [c])
      | .unknown => takeKeys p e cs taken buzz s
      | .key k =>
        match keyFate ss k with
        | .accepted ss1 => takeKeys p e cs true buzz (s.modEntry p fun x => { x with sess := some (keyTaken ss1) })
        | .refused => takeKeys p e cs true true (s.modEntry p fun x => { x with sess := some (keyTaken ss) })
        | .ends o c1 =>
          frameRemainder (endSession s p ss o c1 (if buzz then .buzz else .click)) p e ss.field.isPin cs

/-- R131: whether a code is discarded under the PIN guard. -/
def guarded (b : Byte) : Bool :=
  match keyOfCode b with
  | .key (.digit _) | .key .doubleZero => true
  | _ => false

/-- R131, R164: one or more codes of a frame are discarded under the guard: its digits, and all its codes while UNATTENDED. -/
def guardDiscards (s : State) (codes : List Byte) : Bool :=
  if s.time.attended then codes.any guarded else !codes.isEmpty

/-- R131: keys under a running PIN guard. -/
def guardKeys (s : State) (p : Pos) (e : EntryId) (codes : List Byte) : State :=
  let kept := codes.filter fun b => !guarded b
  let s1 := if kept.isEmpty || !s.time.attended then s else keyNotice s p e kept
  if guardDiscards s codes then displayUpdate s1 p s1.entry[p].wanted .buzz else s1

end Sys2Proof.Machine
end

