-- ==== Sys2Proof/Machine/CardEngine.lean ====
section
/-! DEFINITION. The Card Engine (chapter 7): commands to the reader, reads, movements, faults and the events of the unit, the
line and the attendance. -/

namespace Sys2Proof.Machine

/-! ## Holds and states (R136, R137) -/

/-- The records of a context's track holds, by track number. -/
def heldRecords (c : CardCtx) : List RecId :=
  [c.holds[0], c.holds[1], c.holds[2]].filterMap fun h => h.map Prod.snd

/-- R137, R140: release every track hold of a context, in ascending track number, which is the model's choice (log 37). -/
def releaseHolds (s : State) (p : Pos) : State :=
  let s1 := s.modCard p fun c => { c with holds := Vector.replicate 3 none }
  (heldRecords s.card[p]).foldl dropRef s1

/-- R137: only READING and READ hold tracks. -/
def CardState.holdsTracks : CardState → Bool
  | .reading | .read => true
  | _ => false

/-- R137: a change of state: every timer that ran is stopped and the timer of the state entered is armed; holds are released but
for READING and READ; the current command becomes `cur`; cause, latest change and mark are set. `readSec` is the read timeout
of a read that starts. -/
def cardEnter (s : State) (p : Pos) (st : CardState) (cause : Cause) (cur : Option (CardCommand × RecId)) (readSec : Nat) : State :=
  let s1 := if st.holdsTracks then s else releaseHolds s p
  s1.modCard p fun c =>
    { c with
      state := st, cause := cause, current := cur, latest := s1.now, mark := true
      readTimer := if st = .reading then armSec readSec else none
      takeTimer := if st = .presented then armSec s1.profile.takeTimeout else none
      moveTimer := if st = .ejecting ∨ st = .retaining then armMs Config.movement else none }

/-- R137: a change of state with no command current. -/
def cardTo (s : State) (p : Pos) (st : CardState) (cause : Cause) : State := cardEnter s p st cause none 0

/-! ## Commands (R138) -/

/-- The bound reader of a position with its line and address. -/
def readerPlace (s : State) (p : Pos) : Option (EntryId × LineId × Addr) :=
  match slotOf s .reader p with
  | none => none
  | some e => s.dir[e].addr.map fun a => (e, s.dir[e].line, a)

/-- R141, R146: whether the reader can be sent a request's command: it is bound, holds an address, and its line is not STOPPED. That a
CARD_RETAIN in FAULT without such a reader is answered WRONG_STATE is the model's choice (log 36). -/
def readerUsable (s : State) (p : Pos) : Bool :=
  match readerPlace s p with
  | none => false
  | some (_, l, _) => !s.lineStopped l

/-- R138, R200: offer a command to the bound reader's line. -/
def offerCommand (s : State) (p : Pos) (cmd : CardCommand) (mask : BitVec 3) : State × Offer :=
  match readerPlace s p with
  | none => (s, .stopped)
  | some (e, l, a) => offerControl s l .cardCommand a (some e) (.card p) [cmd.code, byteOf mask.toNat]

/-! ## The end of a read (R143) -/

/-- R143, R201: the reported status of a track. -/
def trackReport (c : CardCtx) (i : Fin 3) : Byte :=
  if !c.mask.getLsbD i.val then trackNotRequested
  else match c.holds[i] with
    | none => trackNotRead
    | some (st, _) => st.code

/-- R143, R201: the stored body of a READ_DONE. -/
def readDoneBody (p : Pos) (c : CardCtx) (o : ReadOutcome) (cause : Cause) (resent : Bool) (reason : Byte) : List Byte :=
  posByte (some p) :: identityBytes ((c.reader.map Prod.snd).getD 0)
    ++ [o.code, cause.code, byteOf c.mask.toNat, trackReport c 0, trackReport c 1, trackReport c 2, boolByte resent, reason]

/-- R143: a read ends: its READ_DONE is completed and queued on W1. The state that its ending gives follows. -/
def readEnd (s : State) (p : Pos) (o : ReadOutcome) (cause : Cause) (reason : Byte) : State :=
  match s.card[p].result with
  | none => s
  | some r =>
    let s1 := completePromise s r .readDone 1 (some p) (readDoneBody p s.card[p] o cause false reason)
    s1.modCard p fun c => { c with result := none, readTimer := none }

/-- R140: start a read; its promise and its READ command have been admitted. -/
def startRead (s : State) (p : Pos) (promise cmd : RecId) (mask : BitVec 3) (tag : Byte) (sec : Nat) (cause : Cause) : State :=
  let s1 := releaseHolds s p
  let s2 := s1.modCard p fun c =>
    { c with result := some promise, mask := mask, tag := tag,
             reader := (slotOf s1 .reader p).map fun e => (e, s1.dir[e].identity) }
  cardEnter s2 p .reading cause (some (.read, cmd)) sec

/-! ## Command outcomes (R139) -/

/-- R139: the outcome of the current command; of any other command, nothing. After DELIVERED the command stays current (log 14). -/
def cardOutcome (s : State) (p : Pos) (r : RecId) (o : FrameOutcome) : State :=
  match s.card[p].current with
  | none => s
  | some (cmd, r1) =>
    if r1 ≠ r then s
    else match cmd, o with
      | _, .delivered => s
      | _, .unitGone => s
      | .read, .refused reason => cardTo (readEnd s p .unitRefused .unitRefused reason) p .present .unitRefused
      | .read, .lineStopped => cardTo (readEnd s p .unitFailed .lineStopped 0) p .fault .lineStopped
      | .read, _ => cardTo (readEnd s p .unitFailed .unitFailed 0) p .fault .unitFailed
      | _, .refused _ => cardTo s p .fault .unitRefused
      | _, .lineStopped => cardTo s p .fault .lineStopped
      | _, _ => cardTo s p .fault .unitFailed

/-! ## Ejects on the context's own account, insertions (R140, R145, R151) -/

/-- R138, R151: a command offered on the context's own account: the state entered with the command current, or FAULT with cause
POOL_FULL. -/
def ownCommand (s : State) (p : Pos) (cmd : CardCommand) (st : CardState) (cause : Cause) : State :=
  match offerCommand s p cmd 0 with
  | (s1, .carried r) => cardEnter s1 p st cause (some (cmd, r)) 0
  | (s1, .refused) => cardTo s1 p .fault .poolFull
  | (s1, .stopped) => cardTo s1 p .fault .lineStopped

/-- R140: an insertion under read-on-insert: the promise, then the READ command; on a refusal no read starts. -/
def readOnInsert (s : State) (p : Pos) : State :=
  match reserve s .readDone 0 with
  | (s1, none) => cardTo s1 p .present .cardInserted
  | (s1, some pr) =>
    match offerCommand s1 p .read 7 with
    | (s2, .carried r) => startRead s2 p pr r 7 0 s2.profile.readTimeout .cardInserted
    | (s2, _) => cardTo (dropRef s2 pr) p .present .cardInserted

/-- R145: INSERTED, after a read in progress has ended WITHDRAWN. -/
def cardInserted (s : State) (p : Pos) : State :=
  let c := s.card[p]
  let s1 := if c.state = .reading then readEnd s p .withdrawn .cardInserted 0 else s
  if !s.time.attended then ownCommand s1 p .eject .ejecting .cardInserted
  else if (c.state = .empty ∨ c.state = .fault) ∧ s.profile.readOnInsert.getLsbD p.val then readOnInsert s1 p
  else cardTo s1 p .present .cardInserted

/-- R145: REMOVED or RETAINED. -/
def cardGone (s : State) (p : Pos) (cause : Cause) : State :=
  let c := s.card[p]
  if c.state = .empty then s
  else
    let s1 := if c.state = .reading then readEnd s p .withdrawn cause 0 else s
    cardTo s1 p .empty cause

/-- R148: JAMMED, from any state. -/
def cardJammed (s : State) (p : Pos) : State :=
  let s1 := if s.card[p].state = .reading then readEnd s p .unitFailed .jammed 0 else s
  cardTo s1 p .fault .jammed

/-- R145: a movement report. -/
def cardMove (s : State) (p : Pos) (m : Movement) : State :=
  match m with
  | .inserted => cardInserted s p
  | .removed => cardGone s p .cardRemoved
  | .retained => cardGone s p .cardRetained
  | .presented => if s.card[p].state = .ejecting then cardTo s p .presented .cardPresented else s
  | .jammed => cardJammed s p

/-- R145, R200: a CARD_MOVE record handed to the Card Engine; its record is released in the event, after the promise and the command
that it draws have been admitted, which is the model's choice (log 15). -/
def cardMoveFrame (s : State) (p : Pos) (r : RecId) : State :=
  let s1 := match s.pool.body r with
    | [b] => match Movement.ofCode b with
      | some m => cardMove s p m
      | none => s
    | _ => s
  dropRef s1 r

/-! ## Tracks (R142) -/

/-- R142, R200: the track number (from 0) and status of a TRACK body, when it is a track. -/
def trackOf (body : List Byte) : Option (Fin 3 × TrackStatus) :=
  match body with
  | n :: st :: chars =>
    if h : 1 ≤ n.toNat ∧ n.toNat ≤ 3 ∧ chars.length ≤ 107 then
      (TrackStatus.ofCode st).map fun t => (⟨n.toNat - 1, by omega⟩, t)
    else none
  | _ => none

/-- R142: every requested track is held. -/
def allHeld (c : CardCtx) : Bool :=
  ([0, 1, 2] : List (Fin 3)).all fun i => !c.mask.getLsbD i.val || c.holds[i].isSome

/-- R101, R102: queue a TRACK notice of a held record on W1; the new reference is taken by R13. -/
def trackNotice (s : State) (p : Pos) (e : EntryId) (r : RecId) (resent : Bool) : State :=
  match addRef s r with
  | (s1, false) => s1
  | (s1, true) =>
    s1.pushW 1 { record := r, kind := .track, tag := 0, unit := some (unitRef s1.dir[e]), pos := some p, witnessed := false,
                 resent := resent }

/-- R142: a TRACK record handed to the Card Engine: collected, or released. -/
def trackFrame (s : State) (p : Pos) (e : EntryId) (r : RecId) : State :=
  match trackOf (s.pool.body r) with
  | none => dropRef s r
  | some (i, st) =>
    let c := s.card[p]
    if c.state = .reading ∧ c.mask.getLsbD i.val ∧ c.holds[i].isNone then
      let s1 := s.modCard p fun c => { c with holds := c.holds.set i (some (st, r)) }
      let s2 := trackNotice s1 p e r false
      if allHeld s2.card[p] then cardTo (readEnd s2 p .ok .readComplete 0) p .read .readComplete else s2
    else dropRef s r

/-! ## STATUS, service, line and attendance (R148 to R151) -/

/-- R148: reconciliation by a STATUS of the bound reader. -/
def cardStatusReport (s : State) (p : Pos) (present : Bool) : State :=
  if s.card[p].state ≠ .fault then s
  else if !present then cardTo s p .empty .status
  else if s.time.attended then cardTo s p .present .status
  else ownCommand s p .eject .ejecting .status

/-- R149: the reader's service ends. -/
def cardServiceEnd (s : State) (p : Pos) (cause : Cause) : State :=
  let c := s.card[p]
  if c.state = .empty then s
  else
    let s1 := if c.state = .reading then readEnd s p .unitGone cause 0 else s
    cardTo s1 p .empty cause

/-- R150: the reader's line enters STOPPED; from any state the context becomes FAULT with cause LINE_STOPPED (log 13). -/
def cardLineStopped (s : State) (p : Pos) : State :=
  let s1 := if s.card[p].state = .reading then readEnd s p .unitFailed .lineStopped 0 else s
  cardTo s1 p .fault .lineStopped

/-- R151: the part becomes UNATTENDED. -/
def cardUnattended (s : State) (p : Pos) : State :=
  match s.card[p].state with
  | .present | .read => ownCommand s p .eject .ejecting .unattended
  | .reading => ownCommand (readEnd s p .aborted .unattended 0) p .eject .ejecting .unattended
  | _ => s

end Sys2Proof.Machine
end

