-- ==== Sys2Proof/Machine/Outcomes.lean ====
section
/-! DEFINITION. The outcome of a queue entry (R67) and what its owner does with it: Dispatch gathers the copies of a UNIT_SEND
(R105). -/

namespace Sys2Proof.Machine

/-! ## Fan-out (R105) -/

/-- R105, step 3: the notice of a UNIT_SEND whose last copy has ended. -/
def completeSendDone (s : State) (f : Fanout) : State :=
  let s1 := storeNow s f.sendDone
  let s2 := { s1 with fanouts := s1.fanouts.filter fun g => g.sendDone != f.sendDone }
  s2.pushW 0 { record := f.sendDone, kind := .sendDone, tag := f.tag, unit := none, pos := none, witnessed := false,
               resent := false }

/-- R105: mark the first target that names an entry and has not ended. -/
def endTarget (e : EntryId) : List Target → List Target
  | [] => []
  | t :: ts => if t.e = e ∧ !t.ended then { t with ended := true } :: ts else t :: endTarget e ts

/-- R105: a copy reaches its outcome. -/
def copyOutcome (s : State) (sendDone : RecId) (e : EntryId) (o : FrameOutcome) : State :=
  match s.fanouts.find? fun f => f.sendDone == sendDone with
  | none => s
  | some f =>
    match f.targets.find? fun t => t.e == e && !t.ended with
    | none => s
    | some t =>
      let s1 := s.modPool fun p =>
        (p.appendBody sendDone (identityBytes t.identity ++ [o.code])).modRec sendDone fun x => { x with state := .filling }
      let f1 := { f with targets := endTarget e f.targets, outstanding := f.outstanding - 1 }
      let s2 := { s1 with fanouts := s1.fanouts.map fun g => if g.sendDone = sendDone then f1 else g }
      if f1.outstanding = 0 then completeSendDone s2 f1 else s2

/-! ## The outcome of a queue entry (R63, R67) -/

/-- R67: whether two entries are the same entry of their line: record and destination name it. -/
def sameEntry (q q' : QEntry) : Bool := q.record == q'.record && q.dest == q'.dest

/-- R63: whether an outcome toggles the outbound bit of the target entry. -/
def togglesBit (k : RecKind) (q : QEntry) (o : FrameOutcome) : Bool :=
  (match k with
    | .frame f => acknowledgedKind f
    | .notice _ => false) &&
  (match o with
    | .delivered | .refused _ | .noAck => true
    | .lineStopped => q.isOpen
    | _ => false)

/-- R63: toggle the outbound bit of a target entry. -/
def toggleOut (s : State) (t : Option EntryId) : State :=
  match t with
  | none => s
  | some e => s.modDir e fun d => { d with outBit := !d.outBit }

/-- R67: the entry leaves its queue, and its reference is released, or at the end of its transmission when it is in one. -/
def leaveQueue (s : State) (l : LineId) (q : QEntry) : State :=
  let s1 := s.modLine l fun ln =>
    { ln with
      control := ln.control.filter fun x => !sameEntry x q
      pass := ln.pass.filter fun x => !sameEntry x q
      tx := if q.inTx then ln.tx.map fun t => { t with src := .detached q.record } else ln.tx }
  if q.inTx then s1 else dropRef s1 q.record

/-- R67: the owner is told. -/
def tellOwner (s : State) (q : QEntry) (o : FrameOutcome) : State :=
  match q.owner with
  | .directory | .timeBase => s
  | .entry p => displayOutcome s p o
  | .card p => cardOutcome s p q.record o
  | .dispatch sendDone =>
    match q.target with
    | none => s
    | some e => copyOutcome s sendDone e o

/-- R67: a queue entry of a line ends with an outcome. -/
def endEntry (s : State) (l : LineId) (q : QEntry) (o : FrameOutcome) : State :=
  let k := s.pool.recs[q.record].kind
  let s1 := leaveQueue s l q
  let s2 := if togglesBit k q o then toggleOut s1 q.target else s1
  tellOwner s2 q o

/-- Several entries end in one event, in the order given. -/
def endEntries (s : State) (l : LineId) (qs : List QEntry) (o : FrameOutcome) : State :=
  qs.foldl (fun t q => endEntry t l q o) s

/-- The entries of both queues of a line, the control queue first. -/
def Line.queued (ln : Line) : List QEntry := ln.control ++ ln.pass

end Sys2Proof.Machine
end

