-- ==== Sys2Proof/Machine/Directory.lean ====
section
/-! DEFINITION. The Unit Directory (chapter 4): address release and grant, sessions' ends, HELLO, supervision, stray frames; and
the entry of a line into STOPPED (R43), which all blocks meet. -/

namespace Sys2Proof.Machine

/-! ## Sessions of a unit (R71, R129, R149) -/

/-- R71: end the sessions of a unit of kind k bound at a position. -/
def endUnitSessions (s : State) (k : UnitKind) (pos : Option Pos) (c : Cause) : State :=
  match pos with
  | none => s
  | some p =>
    match k with
    | .keypad => abortSession s p c
    | .reader => cardServiceEnd s p c

/-! ## Addresses (R72, R73) -/

/-- R73: the address of an entry is released: its queued frames end UNIT_GONE, in the order of log 32, and its timers are stopped. -/
def releaseAddress (s : State) (e : EntryId) : State :=
  let l := s.dir[e].line
  let s1 := s.modDir e fun d => { d with addr := none }
  let s2 := endEntries s1 l (s1.lines[l].queued.filter fun q => q.target == some e) .unitGone
  s2.modDir e fun d => { d with grantTimer := none, silenceTimer := none, lostTimer := none }

/-- R72, R77, R78: grant an address to an entry and make it PENDING: sequence bits reset, attempts 1, GRANT offered, grant timer
armed. -/
def grantAddress (s : State) (e : EntryId) (l : LineId) (a : Addr) : State :=
  let s1 := s.modDir e fun d =>
    { d with line := l, addr := some a, outBit := false, inBit := none, grantAttempts := 1, state := .pending }
  let s2 := offerGrant s1 e
  s2.modDir e fun d => { d with grantTimer := armMs s2.profile.grantTimeout }

/-- R71: take an entry's binding away. -/
def unbindEntry (s : State) (e : EntryId) : State :=
  s.modDir e fun d => { d with pos := none, pinned := false }

/-- Bind an entry to a position. -/
def bindEntry (s : State) (e : EntryId) (p : Pos) (pinned : Bool) : State :=
  s.modDir e fun d => { d with pos := some p, pinned := pinned }

/-! ## HELLO (R74 to R78) -/

/-- R75, R160: of the unpinned LOST entries, the one heard longest ago; of two alike the lower number. -/
def oldestLost (s : State) : Option EntryId :=
  allEntries.foldl (fun best e =>
    let d := s.dir[e]
    if d.state = .lost ∧ !d.pinned then
      match best with
      | none => some e
      | some b => if elapsed s.now s.dir[b].lastHeard < elapsed s.now d.lastHeard then some e else some b
    else best) none

/-- R75: the entry chosen for a new identity. -/
def chooseEntry (s : State) : Option EntryId :=
  match allEntries.find? fun e => s.dir[e].state == .free with
  | some e => some e
  | none => oldestLost s

/-- R76: the pinned position of an identity: the first pin in list order that names it. -/
def pinnedPos (prof : Profile) (i : Identity) : Option Pos :=
  prof.pins.toList.findSome? fun pin =>
    match pin with
    | some (j, p) => if j = i then some p else none
    | none => none

/-- R76: the pin check of an entry taken for a new identity. -/
def pinCheck (s : State) (e : EntryId) : State :=
  match pinnedPos s.profile s.dir[e].identity with
  | none => s
  | some p =>
    match slotOf s s.dir[e].kind p with
    | none => bindEntry s e p true
    | some o =>
      if s.dir[o].pinned then s
      else
        let s1 := setDirMark (unbindEntry s o) o
        let s2 := endUnitSessions s1 s1.dir[o].kind (some p) .displaced
        bindEntry s2 e p true

/-- R75: a new identity. -/
def helloNew (s : State) (l : LineId) (i : Identity) (k : UnitKind) : State :=
  match chooseEntry s with
  | none => offerRefuse s l i 1
  | some e =>
    match lowestFreeAddr s l with
    | none => offerRefuse s l i 2
    | some a =>
      let s1 := s.modDir e fun d =>
        { d with identity := i, kind := k, pos := none, pinned := false, established := false, condition := .ok,
                 lastHeard := s.now }
      setDirMark (pinCheck (grantAddress s1 e l a) e) e

/-- R74: a known entry's kind changes while it is bound: the binding goes and its sessions end. -/
def helloKind (s : State) (e : EntryId) (k : UnitKind) : State :=
  let d := s.dir[e]
  let s1 :=
    if d.kind ≠ k ∧ d.pos.isSome then endUnitSessions (setDirMark (unbindEntry s e) e) d.kind d.pos .unitRestarted else s
  s1.modDir e fun d => { d with kind := k, lastHeard := s1.now }

/-- R77: a restart, the unit heard on its own line. -/
def helloRestart (s : State) (e : EntryId) : State :=
  let d := s.dir[e]
  let place := match d.addr with
    | some a => some a
    | none => lowestFreeAddr s d.line
  match place with
  | none => offerRefuse s d.line d.identity 2
  | some a =>
    let s1 := if d.addr.isSome then releaseAddress s e else s
    let s2 := grantAddress s1 e d.line a
    setDirMark (endUnitSessions s2 s2.dir[e].kind s2.dir[e].pos .unitRestarted) e

/-- R78: a relocation to a line that is not full. -/
def helloMove (s : State) (e : EntryId) (l : LineId) (a : Addr) : State :=
  let s1 := if s.dir[e].addr.isSome then releaseAddress s e else s
  let s2 := grantAddress s1 e l a
  setDirMark (endUnitSessions s2 s2.dir[e].kind s2.dir[e].pos .unitMoved) e

/-- R74: a valid HELLO, by the state of the entry that holds the identity (log 12). -/
def helloValid (s : State) (l : LineId) (i : Identity) (k : UnitKind) : State :=
  match holderOf s i with
  | none => helloNew s l i k
  | some e =>
    if s.dir[e].line ≠ l then
      match lowestFreeAddr s l with
      | none => offerRefuse s l i 2
      | some a => helloMove (helloKind s e k) e l a
    else if s.dir[e].state = .pending then offerGrant (helloKind s e k) e
    else helloRestart (helloKind s e k) e

/-! ## Supervision (R80 to R83) -/

/-- R81, R82: arm the silence and lost timers, unless the entry's line is STOPPED. -/
def armSupervision (s : State) (e : EntryId) : State :=
  if s.lineStopped s.dir[e].line then s
  else s.modDir e fun d =>
    { d with silenceTimer := armSec s.profile.silenceLimit, lostTimer := armSec s.profile.lostLimit }

/-- R70, R80, R81: a frame from an entry's line and address is heard. An entry that becomes ACTIVE is established. -/
def heardEntry (s : State) (e : EntryId) : State :=
  let s1 := s.modDir e fun d => { d with lastHeard := s.now }
  let s2 := match s.dir[e].state with
    | .pending => setDirMark (s1.modDir e fun d =>
        { d with state := .active, established := true, grantAttempts := 0, grantTimer := none }) e
    | .silent => setDirMark (s1.modDir e fun d => { d with state := .active, established := true }) e
    | _ => s1
  armSupervision s2 e

/-- R81: a Line Engine reports a frame heard from a line and address. -/
def heard (s : State) (l : LineId) (a : Addr) : State :=
  match entryAt s l a with
  | none => s
  | some e => heardEntry s e

/-- R81, step 4: the condition of a STATUS whose kind is the entry's; a STATUS of another kind is counted as stray. -/
def statusCondition (s : State) (l : LineId) (e : EntryId) (k : UnitKind) (c : Condition) : State :=
  let d := s.dir[e]
  if d.kind ≠ k then countLine s l LineCounters.addStray
  else if d.condition = c then s
  else setDirMark (s.modDir e fun d => { d with condition := c }) e

/-- R84: a frame from an address that no present entry holds is counted, and may draw a WHO. -/
def strayFrame (s : State) (l : LineId) (a : Addr) : State :=
  offerStrayWho (countLine s l LineCounters.addStray) l a

/-- R80: a grant cycle fails. -/
def grantFails (s : State) (e : EntryId) : State :=
  let s1 := releaseAddress s e
  let s2 :=
    if s1.dir[e].established then s1.modDir e fun d => { d with state := .lost }
    else (unbindEntry s1 e).modDir e fun d => { d with state := .free }
  setDirMark s2 e

/-- R80: the grant timer of a PENDING entry expires. -/
def grantExpires (s : State) (e : EntryId) : State :=
  let s1 := s.modDir e fun d => { d with grantTimer := none }
  if s1.dir[e].grantAttempts < Config.maxGrants then
    let s2 := offerGrant (s1.modDir e fun d => { d with grantAttempts := d.grantAttempts + 1 }) e
    s2.modDir e fun d => { d with grantTimer := armMs s2.profile.grantTimeout }
  else grantFails s1 e

/-- R82: a SILENT entry's lost timer expires. -/
def entryLost (s : State) (e : EntryId) : State :=
  let s1 := releaseAddress (s.modDir e fun d => { d with state := .lost, lostTimer := none }) e
  setDirMark (endUnitSessions s1 s1.dir[e].kind s1.dir[e].pos .unitLost) e

/-! ## A line enters STOPPED (R43, R83) -/

/-- R43, step 3: a present entry on the line becomes SILENT, its supervision suspended; its mark is set if its state changed. -/
def suspendEntry (s : State) (l : LineId) (e : EntryId) : State :=
  let d := s.dir[e]
  if d.present && d.line == l then
    let s1 := s.modDir e fun d => { d with state := .silent, grantTimer := none, silenceTimer := none, lostTimer := none }
    if d.state = .silent then s1 else setDirMark s1 e
  else s

/-- Whether the unit bound in the slot of kind k at a position is on the line (R70: on a line, LOST included). -/
def boundOnLine (s : State) (k : UnitKind) (p : Pos) (l : LineId) : Bool :=
  match slotOf s k p with
  | none => false
  | some e => s.dir[e].line == l

/-- Release the FILLING record of the reception in progress, if it holds one (R12). -/
def releaseReception (s : State) (l : LineId) : State :=
  match s.lines[l].rx with
  | .inFrame f =>
    match f.dest with
    | .record r _ => dropRef s r
    | _ => s
  | _ => s

/-- R12, R45: a reception in progress is discarded. -/
def dropReception (s : State) (l : LineId) : State :=
  (releaseReception s l).modLine l fun ln => { ln with rx := .hunting }

/-- R42: a transmission in progress is cut off; the reference is its entry's again, or is released when the entry has ended. -/
def cutTransmission (s : State) (l : LineId) : State :=
  let s1 := match s.lines[l].tx with
    | some { src := .detached r, .. } => dropRef s r
    | _ => s
  s1.modLine l fun ln =>
    { ln with
      tx := none
      control := ln.control.map fun q => { q with inTx := false }
      pass := ln.pass.map fun q => { q with inTx := false } }

/-- R43: a line enters STOPPED, from any state and by any cause. The order in which the queue entries end is the model's choice: the
control queue, then the pass queue, oldest first (log 32). So is the order in which the reads of the card contexts on the line end and
their holds are released: ascending position (log 43). -/
def enterStopped (s : State) (l : LineId) : State :=
  let s0 := (dropReception (cutTransmission s l) l).modLine l fun ln => { ln with state := .stopped, idle := false }
  let s1 := endEntries s0 l s0.lines[l].queued .lineStopped
  let s2 := s1.modLine l fun ln => { ln with acks := [] }
  let s3 := allEntries.foldl (fun t e => suspendEntry t l e) s2
  let s4 := allPos.foldl (fun t p => if boundOnLine t .keypad p l then abortSession t p .lineStopped else t) s3
  let s5 := allPos.foldl (fun t p => if boundOnLine t .reader p l then cardLineStopped t p else t) s4
  setLineMark s5 l

end Sys2Proof.Machine
end

