-- ==== Sys2Proof/Machine/Screening.lean ====
section
/-! DEFINITION. Dispatch (chapter 5): screening, classification, the hand-over of a stored frame, and the resolution of UNIT_SEND
targets. -/

namespace Sys2Proof.Machine

/-! ## Screening (R92, R93) -/

/-- R97: the screen kind of a stored unit frame. -/
def screenKindOf : FrameKind → ScreenKind
  | .cardMove => .cardMove
  | .track => .track
  | .alert => .alert
  | .data => .data
  | _ => .key

/-- R92: whether a SOURCE selector matches a frame from a directory entry, received on a line. -/
def sourceMatches (x : ScreenEntry) (d : DirEntry) (l : LineId) : Bool :=
  match x.selector with
  | .any => true
  | .identity => d.state != .free && d.identity == x.selValue
  | .position => match d.pos with
    | none => false
    | some p => d.state != .free && x.selValue.toNat % 256 == p.val + 1
  | .line => x.selValue.toNat % 256 == l.val + 1

/-- R92: the SOURCE match. -/
def sourceMatch (s : State) (e : EntryId) (l : LineId) : Option EntryId :=
  allEntries.find? fun i =>
    let x := s.profile.screen[i]
    x.inUse && x.type == .source && sourceMatches x s.dir[e] l

/-- R92: the KIND match. -/
def kindMatch (s : State) (k : ScreenKind) : Option EntryId :=
  allEntries.find? fun i =>
    let x := s.profile.screen[i]
    x.inUse && x.type == .kind && x.kind == k

/-- R92, R96: a match's hit count rises. -/
def countHit (s : State) (m : Option EntryId) : State :=
  match m with
  | none => s
  | some i => { s with hits := s.hits.set i (satInc Config.count16 s.hits[i]) }

def matchAction (s : State) (m : Option EntryId) : ScreenAction :=
  match m with
  | none => .pass
  | some i => s.profile.screen[i].action

def matchClass (s : State) (m : Option EntryId) : Cls :=
  match m with
  | none => 0
  | some i => s.profile.screen[i].cls

/-- R93: the disposal of a screened frame. -/
structure Disposal where
  drop : Bool
  queue : Cls
  witness : Bool
  deriving DecidableEq, Repr

/-- R93: the disposal by the two matches and the frame's urgency. -/
def disposal (s : State) (src knd : Option EntryId) (u : Urgency) : Disposal :=
  { drop := matchAction s src == .drop || matchAction s knd == .drop
    queue :=
      if matchAction s knd = .reclass then matchClass s knd
      else if matchAction s src = .reclass then matchClass s src
      else classOfUrgency u
    witness := matchAction s src == .witness || matchAction s knd == .witness }

/-! ## Classification and hand-over (R97 to R100) -/

/-- R101: the notice entry of a unit frame's record, as classified. -/
def frameNotice (s : State) (r : RecId) (e : EntryId) (k : FrameKind) (witnessed : Bool) : Notice :=
  { record := r, kind := noticeOfFrame k, tag := 0, unit := some (unitRef s.dir[e])
    pos := if s.dir[e].state = .free then none else s.dir[e].pos, witnessed := witnessed, resent := false }

/-- R100: a witness copy, skipped when R15 refuses its reference. -/
def witnessCopy (s : State) (q : Cls) (r : RecId) (e : EntryId) (k : FrameKind) : State :=
  match addRef s r with
  | (s1, false) => s1
  | (s1, true) => s1.pushW q (frameNotice s1 r e k true)

/-- R97: the position at which an entry is bound in a slot that suits the frame. -/
def suitedPos (d : DirEntry) (k : FrameKind) : Option Pos :=
  if d.state = .free then none
  else match k, d.kind with
    | .key, .keypad => d.pos
    | .cardMove, .reader => d.pos
    | .track, .reader => d.pos
    | _, _ => none

/-- R98: a KEY frame from the bound keypad of p. The record is released once its codes have been taken (log 15); an empty
frame is consumed like any other by a session or a guard, and becomes no notice then (log 35). -/
def keyFrame (s : State) (p : Pos) (r : RecId) (e : EntryId) (v : Disposal) : State :=
  match s.entry[p].sess with
  | some ss =>
    let s1 := if v.witness && ss.witness then witnessCopy s v.queue r e .key else s
    dropRef (takeKeys p e (s1.pool.body r) false false s1) r
  | none =>
    if s.entry[p].guardTimer.isSome then dropRef (guardKeys s p e (s.pool.body r)) r
    else if !s.time.attended then dropRef s r
    else s.pushW v.queue (frameNotice s r e .key false)

/-- R97: a frame that survives screening. -/
def classify (s : State) (r : RecId) (e : EntryId) (k : FrameKind) (v : Disposal) : State :=
  match suitedPos s.dir[e] k with
  | none => s.pushW v.queue (frameNotice s r e k false)
  | some p =>
    if k = .key then keyFrame s p r e v
    else
      let s1 := if v.witness then witnessCopy s 1 r e k else s
      if k = .track then trackFrame s1 p e r else cardMoveFrame s1 p r

/-- R92 to R100: Dispatch receives the record of a stored unit frame. -/
def handOver (s : State) (r : RecId) (e : EntryId) (l : LineId) (k : FrameKind) : State :=
  let src := sourceMatch s e l
  let knd := kindMatch s (screenKindOf k)
  let v := disposal s src knd s.pool.recs[r].urg
  let s1 := countHit (countHit s src) knd
  if v.drop then dropRef s1 r else classify s1 r e k v

/-! ## UNIT_SEND targets (R103) -/

/-- R103: an entry that is ACTIVE or SILENT is a target. -/
def targetable (d : DirEntry) : Bool := d.state == .active || d.state == .silent

/-- R103: the slots examined for a bitmap and role mask, in order. -/
def slotsNamed (bitmap roles : Byte) : List (UnitKind × Pos) :=
  allPos.flatMap fun p =>
    if bitmap.getLsbD p.val then
      (if roles.getLsbD 0 then [(UnitKind.reader, p)] else []) ++ (if roles.getLsbD 1 then [(UnitKind.keypad, p)] else [])
    else []

/-- R103: the targets of a UNIT_SEND. -/
def resolveTargets (s : State) (bitmap roles : Byte) (i : Identity) : List EntryId :=
  if bitmap ≠ 0 then
    ((slotsNamed bitmap roles).filterMap fun x => slotOf s x.1 x.2).filter fun e => targetable s.dir[e]
  else
    match holderOf s i with
    | none => []
    | some e => if targetable s.dir[e] then [e] else []

end Sys2Proof.Machine
end

