-- ==== Sys2Proof/Machine/LineEngine.lean ====
section
/-! DEFINITION. The Line Engine (chapters 2 and 3): reception and frame assembly, acknowledgements, transmission, drains. -/

namespace Sys2Proof.Machine

/-! ## The ack list (R59) and the unit's ACK (R58) -/

/-- R59: an acknowledgement is appended, or lost when the list is full. -/
def offerAck (s : State) (l : LineId) (a : PendingAck) : State :=
  s.modLine l fun ln => if ln.acks.length < Config.ackPlaces then { ln with acks := ln.acks ++ [a] } else ln

/-- R58: the frame that awaits acknowledgement from an address. -/
def awaitingFrom (ln : Line) (a : Addr) : Option QEntry := ln.queued.find? fun q => q.awaiting && q.dest == a

/-- R58: a whole and good ACK from a unit; it is reported heard whether or not it matched. -/
def ackFrame (s : State) (l : LineId) (src : Addr) (seq : Bool) (body : List Byte) : State :=
  let s1 :=
    match awaitingFrom s.lines[l] src with
    | none => countLine s l LineCounters.addStray
    | some q =>
      if q.lastBit ≠ seq then countLine s l LineCounters.addStray
      else match body with
        | [st, reason] =>
          if st = 0 then endEntry s l q .delivered
          else if st = 1 then endEntry s l q (.refused reason)
          else countLine s l LineCounters.addStray
        | _ => countLine s l LineCounters.addStray
  heard s1 l src

/-! ## Control frames (R57, R74, R81, R200) -/

/-- R57, R74: a whole and good HELLO whose header did not begin in a drain: it is handled as on an ACTIVE line (R41, log 11). -/
def helloFrame (s : State) (l : LineId) (src : Addr) (body : List Byte) : State :=
  if body.length ≠ 7 then countLine s l LineCounters.addStray
  else match UnitKind.ofCode (byteAt body 6) with
    | none => countLine s l LineCounters.addStray
    | some k => if src = 15 then helloValid s l (identityAt body 0) k else countLine s l LineCounters.addStray

/-- R57, R200: the unit kind, condition and card-present fields of a STATUS body, when every one is in its set. -/
def statusOf (body : List Byte) : Option (UnitKind × Condition × Option Bool) :=
  match body with
  | [k, c] => match UnitKind.ofCode k, Condition.ofCode c with
    | some .keypad, some cond => some (.keypad, cond, none)
    | _, _ => none
  | [k, c, p] => match UnitKind.ofCode k, Condition.ofCode c with
    | some .reader, some cond => if p = 0 then some (.reader, cond, some false) else if p = 1 then some (.reader, cond, some true) else none
    | _, _ => none
  | _ => none

/-- R57, R81, R148: a whole and good STATUS. Its body is judged before its source: a malformed one from an address that no present
entry holds is counted as stray and draws no WHO, which is the model's choice (log 33). -/
def statusFrame (s : State) (l : LineId) (src : Addr) (body : List Byte) : State :=
  match statusOf body with
  | none => countLine s l LineCounters.addStray
  | some (k, c, card) =>
    match entryAt s l src with
    | none => strayFrame s l src
    | some e =>
      let s1 := statusCondition (heardEntry s e) l e k c
      match card, s1.dir[e].kind, s1.dir[e].pos with
      | some present, .reader, some p => cardStatusReport s1 p present
      | _, _, _ => s1

/-! ## Event and data frames (R55) -/

/-- R55: a whole and good event or data frame whose entry was named at its length character; `rec` is the FILLING record, or none
when admission was refused. -/
def eventFrame (s : State) (l : LineId) (src : Addr) (seq : Bool) (k : FrameKind) (e : EntryId) (rec? : Option RecId) : State :=
  let s1 := heard s l src
  let drop (t : State) : State := match rec? with
    | none => t
    | some r => dropRef t r
  if !holdsAt s1.dir[e] l src then strayFrame (drop s1) l src
  else if s1.dir[e].inBit = some seq then offerAck (drop s1) l { dest := src, seq := seq, accepted := true }
  else match rec? with
    | none => countLine (offerAck s1 l { dest := src, seq := seq, accepted := false }) l LineCounters.addBusy
    | some r =>
      let s2 := s1.modPool fun p => p.modRec r fun x => { x with state := .stored }
      let s3 := s2.modDir e fun d => { d with inBit := some seq }
      handOver (offerAck s3 l { dest := src, seq := seq, accepted := true }) r e l k

/-! ## Frame assembly (R52 to R54) -/

/-- The kind of a frame in reception; `none` is unknown. -/
def rxKind (f : RxFrame) : Option FrameKind := unitFrameKind (headFamily f.head) (secondKind f.second)

/-- R52: whether a frame is marked discarded when its second character has been taken. -/
def rxDiscards (head second : Byte) : Bool :=
  secondDest second != 0 || headSource head == 0 || (unitFrameKind (headFamily head) (secondKind second)).isNone

/-- R53: whether a length makes a frame of this family oversize. -/
def oversize (f : Family) (len : Nat) : Bool :=
  decide (Config.maxFrameBody < len) ||
    (match f with
      | .control | .exchange => decide (Config.receiveBuffer < len)
      | _ => false)

def setRx (s : State) (l : LineId) (rx : Rx) : State := s.modLine l fun ln => { ln with rx := rx }

/-- R53: the frame expects its body, or its check when the body is empty. -/
def bodyStage (len : Nat) : RxStage := if len = 0 then .check else .body len

/-- R12: the admission of an event or data frame. -/
def frameAdmission (f : RxFrame) (k : FrameKind) (e : EntryId) (l : LineId) (len : Nat) : Admission :=
  { cls := classOfUrgency (headUrgency f.head), need := chunkNeed len, origin := .unit e l (headSource f.head), kind := .frame k
    urg := headUrgency f.head, arrival := f.arrival, state := .filling, promise := none }

/-- R12, R41, R53: at the length character, where the body of a frame that is not oversize goes. -/
def placeBody (s : State) (l : LineId) (f : RxFrame) (len : Nat) : State × BodyDest :=
  if f.discarded || f.bad then (s, .nowhere)
  else match rxKind f with
    | none => (s, .nowhere)
    | some k =>
      match k.family with
      | .control | .exchange => (s, .buffer)
      | _ =>
        if f.inDrain then (s, .nowhere)
        else match entryAt s l (headSource f.head) with
          | none => (s, .stray)
          | some e =>
            match admitRec s (frameAdmission f k e l len) with
            | (s1, some r) => (s1, .record r e)
            | (s1, none) => (s1, .refused e)

/-- R53: the length character. `f` already counts the character in its sum and its bad mark. -/
def takeLength (s : State) (l : LineId) (f : RxFrame) (len : Nat) : State :=
  if oversize (headFamily f.head) len then setRx (countLine s l LineCounters.addOversize) l .abandoned
  else
    let (s1, d) := placeBody s l f len
    setRx s1 l (.inFrame { f with dest := d, stage := bodyStage len })

/-- R12, R53: a body character goes where the body goes. -/
def takeBody (s : State) (l : LineId) (f : RxFrame) (b : Byte) (left : Nat) : State :=
  let s1 := match f.dest with
    | .record r _ => s.modPool fun p => p.appendBody r [b]
    | _ => s
  let buf := match f.dest with
    | .buffer => f.buf ++ [b]
    | _ => f.buf
  setRx s1 l (.inFrame { f with buf := buf, stage := bodyStage (left - 1) })

/-- R54, R55, R57, R58: a whole and good frame is settled at its check character. A frame whose header began during a drain is
dropped unless it is an ACK (R41, log 11). -/
def settleGood (s : State) (l : LineId) (f : RxFrame) : State :=
  let src := headSource f.head
  let seq := secondSeq f.second
  if f.discarded then countLine s l LineCounters.addStray
  else match rxKind f with
    | none => countLine s l LineCounters.addStray
    | some .ack => ackFrame s l src seq f.buf
    | some k =>
      if f.inDrain then s
      else match k, f.dest with
        | .hello, _ => helloFrame s l src f.buf
        | .status, _ => statusFrame s l src f.buf
        | _, .stray => strayFrame s l src
        | _, .record r e => eventFrame s l src seq k e (some r)
        | _, .refused e => eventFrame s l src seq k e none
        | _, _ => s

/-- R54: the check character: the frame ends bad, or is settled. `f` counts the check in its sum and bad mark. That a discarded frame with a
parity error and a correct sum ends bad (R54) and is not counted as stray, though its check passes (R52), is the model's choice (log 45). -/
def takeCheck (s : State) (l : LineId) (f : RxFrame) : State :=
  let s1 := if f.sum ≠ 0 then countLine s l LineCounters.addCheck else s
  if f.sum ≠ 0 ∨ f.bad then dropReception s1 l
  else settleGood (setRx s1 l .hunting) l f

/-- R41: a header that a hunting line opens begins in a drain when the line is DRAINING, for a header that the drain found in progress is
`completing` (log 6). -/
def beganInDrain (s : State) (l : LineId) : Bool := s.lines[l].state == .draining

/-- R52: the first character of a frame is its header. -/
def startFrame (s : State) (l : LineId) (b : Byte) (bad : Bool) (arrival : Ms) (inDrain : Bool) : State :=
  setRx s l (.inFrame
    { stage := .second, head := b, second := 0, sum := b, bad := bad, discarded := false, inDrain := inDrain,
      arrival := arrival, dest := .undecided, buf := [] })

/-- R52 to R54: frame assembly takes a character that was handed on; `bad` is a parity error of it. -/
def assemble (s : State) (l : LineId) (edge : Ms) (b : Byte) (bad : Bool) : State :=
  match s.lines[l].rx with
  | .hunting => startFrame s l b bad edge (beganInDrain s l)
  | .completing a d => startFrame s l b bad a d
  | .abandoned => s
  | .inFrame f =>
    let f1 := { f with sum := f.sum + b, bad := f.bad || bad }
    match f.stage with
    | .second => setRx s l (.inFrame { f1 with second := b, discarded := rxDiscards f.head b, stage := .length })
    | .length => takeLength s l f1 b.toNat
    | .body left => takeBody s l f1 b left
    | .check => takeCheck s l f1

/-- R30: a framing error abandons the frame in progress; an oversize abandonment goes on. -/
def abandonFrame (s : State) (l : LineId) : State :=
  match s.lines[l].rx with
  | .abandoned => s
  | _ => dropReception s l

/-- R39: a line that reads its pair for characters: ACTIVE or DRAINING. -/
def awake (s : State) (l : LineId) : Bool := s.lines[l].state == .active || s.lines[l].state == .draining

/-- R27: a line on which characters are received: ACTIVE or DRAINING, the engine not transmitting. -/
def receiving (s : State) (l : LineId) : Bool :=
  awake s l && s.lines[l].tx.isNone

/-- R28: the edge was no start of a character: a header in progress is none, and the receiver hunts on. -/
def Rx.afterFalseStart : Rx → Rx
  | .completing _ _ => .hunting
  | rx => rx

/-- R27: a start edge on a hunting line opens a header, which is in progress until its character settles; any other is that of a
character of the frame in hand. -/
def Rx.afterStartEdge (now : Ms) (inDrain : Bool) : Rx → Rx
  | .hunting => .completing now inDrain
  | rx => rx

/-- R27, R32: the first sample tick that reads dominant: the line is no longer idle. -/
def startEdge (s : State) (l : LineId) : State :=
  s.modLine l fun ln => { ln with idle := false, rx := ln.rx.afterStartEdge s.now (beganInDrain s l) }

/-- R28, R32: a false start: it is counted, and the line is no longer idle. -/
def falseStarts (s : State) (l : LineId) : State :=
  countLine (s.modLine l fun ln => { ln with idle := false, rx := ln.rx.afterFalseStart }) l LineCounters.addFalseStart

/-- R27 to R30, R32: a character is settled; the line is no longer idle, its start edge being that of the same event or of one before
(log 6). -/
def receiveChar (s : State) (l : LineId) (edge : Ms) (c : RawChar) : State :=
  let s0 := s.modLine l fun ln => { ln with idle := false }
  if charFalseStart c then falseStarts s l
  else
    let s1 := if charNoisy c then countLine s0 l LineCounters.addNoisy else s0
    let s2 := if charParityError c then countLine s1 l LineCounters.addParity else s1
    if charFramingError c then abandonFrame (countLine s2 l LineCounters.addFraming) l
    else assemble s2 l edge (charByte c) (charParityError c)

/-- The part that the next character plays in its frame: the length, the check of a frame of a kind, or neither. -/
inductive CharRole where
  | length
  | check (k : Option FrameKind)
  | other
  deriving DecidableEq, Repr

def nextRole (ln : Line) : CharRole :=
  match ln.rx with
  | .inFrame f => match f.stage with
    | .length => .length
    | .check => .check (rxKind f)
    | _ => .other
  | _ => .other

/-- A character that is handed to frame assembly: no false start, no framing error. -/
def charGood (c : RawChar) : Bool := !charFalseStart c && !charFramingError c

/-! ## Transmission (R34, R59 to R66) -/

/-- R61, R62: whether an entry of a line's queues is eligible. -/
def eligible (ln : Line) (q : QEntry) : Bool :=
  !q.inTx && !q.awaiting && (q.isOpen || !(ln.queued.any fun x => x.isOpen && x.dest == q.dest))

/-- R59, R199: the characters of a part ACK. -/
def ackChars (a : PendingAck) : List Byte :=
  frameChars 0 a.dest a.seq .ack [if a.accepted then 0 else 2, 0]

/-- The frame kind of a record that holds a line frame. -/
def recFrameKind (r : Rec) : FrameKind :=
  match r.kind with
  | .frame k => k
  | .notice _ => .data

/-- R63: the sequence bit of an entry at the start of a transmission. -/
def sequenceBit (s : State) (q : QEntry) : Bool :=
  match q.target with
  | some e => if acknowledgedKind (recFrameKind s.pool.recs[q.record]) then s.dir[e].outBit else false
  | none => false

/-- R50: the characters of a queue entry's frame as they stand at the start of its transmission. -/
def entryChars (s : State) (q : QEntry) : List Byte :=
  let r := s.pool.recs[q.record]
  frameChars r.urg q.dest (sequenceBit s q) (recFrameKind r) (s.pool.body q.record)

/-- R34, R66: begin the transmission of a queue entry: its queue-limit timer is cancelled. -/
def beginEntry (s : State) (l : LineId) (q : QEntry) : State :=
  let chars := entryChars s q
  let bit := sequenceBit s q
  let start := fun x : QEntry => if sameEntry x q then { x with inTx := true, lastBit := bit, limitTimer := none } else x
  s.modLine l fun ln =>
    { ln with
      idle := false
      tx := some { src := .queued, chars := chars, startedAt := s.now, inDrain := ln.state == .draining }
      control := ln.control.map start
      pass := ln.pass.map start }

/-- R59: begin the transmission of the head of the ack list. -/
def beginAck (s : State) (l : LineId) (a : PendingAck) : State :=
  s.modLine l fun ln =>
    { ln with
      idle := false
      tx := some { src := .ack, chars := ackChars a, startedAt := s.now, inDrain := ln.state == .draining } }

/-- R62: the line transmitter chooses a frame when its conditions hold. -/
def lineChoose (s : State) (l : LineId) : State :=
  let ln := s.lines[l]
  if !ln.idle || ln.tx.isSome then s
  else
    match ln.state, ln.acks with
    | .active, a :: _ => beginAck s l a
    | .draining, a :: _ => beginAck s l a
    | .active, [] =>
      match ln.queued.find? (eligible ln) with
      | some q => beginEntry s l q
      | none => s
    | _, _ => s

/-- The transmission of a line ends without its frame having been sent in full: the frame is its entry's again (R13, R36, R37). -/
def stopTransmission (s : State) (l : LineId) : State := cutTransmission s l

/-- R64: a queue entry's transmission ends in full: an acknowledged kind becomes open and awaits its ACK, another ends
DELIVERED. -/
def entrySent (s : State) (l : LineId) (q : QEntry) : State :=
  let sent := fun x : QEntry =>
    if sameEntry x q then
      { x with sent := true, isOpen := true, awaiting := true, inTx := false, ackTimer := armMs s.profile.ackTimeout }
    else x
  if acknowledgedKind (recFrameKind s.pool.recs[q.record]) && q.target.isSome then
    s.modLine l fun ln => { ln with control := ln.control.map sent, pass := ln.pass.map sent }
  else endEntry s l { q with inTx := false, sent := true } .delivered

/-- R34, R59, R64, R67: a transmission ends in full. -/
def transmissionDone (s : State) (l : LineId) : State :=
  match s.lines[l].tx with
  | none => s
  | some t =>
    let s1 := s.modLine l fun ln => { ln with tx := none }
    match t.src with
    | .ack => s1.modLine l fun ln => { ln with acks := ln.acks.drop 1 }
    | .detached r => dropRef s1 r
    | .queued =>
      match s1.lines[l].queued.find? fun q => q.inTx with
      | none => s1
      | some q => entrySent s1 l q

/-- R65: an attempt is counted for an entry; the third ends it NO_ACK. `again` is what it becomes otherwise. -/
def countAttempt (s : State) (l : LineId) (q : QEntry) (again : QEntry → QEntry) : State :=
  let n := q.attempts + 1
  if Config.maxAttempts ≤ n then endEntry s l { q with attempts := n, inTx := false } .noAck
  else
    let f := fun x : QEntry => if sameEntry x q then again { x with attempts := n } else x
    s.modLine l fun ln => { ln with control := ln.control.map f, pass := ln.pass.map f }

/-- R37, R65: a bit error ends the transmission; for a queue entry it is an attempt. -/
def bitErrorAt (s : State) (l : LineId) : State :=
  let q := s.lines[l].queued.find? fun q => q.inTx
  let s1 := countLine (stopTransmission s l) l LineCounters.addBitError
  match q with
  | none => s1
  | some q => countAttempt s1 l q id

/-- R36: a lost arbitration: the part withdraws and completes the header of the frame that goes on. A reception that the part's own
transmission cut short (R31, log 40) is discarded. -/
def arbitrationLost (s : State) (l : LineId) (t : Tx) : State :=
  setRx (countLine (dropReception (stopTransmission s l) l) l LineCounters.addArbLoss) l (.completing t.startedAt t.inDrain)

/-- R65: the acknowledgement timer of an awaiting entry expires. -/
def ackExpires (s : State) (l : LineId) (q : QEntry) : State :=
  match s.lines[l].state with
  | .draining | .stuck true => endEntry s l { q with attempts := q.attempts + 1 } .lineStopped
  | _ => countAttempt s l q fun x => { x with awaiting := false, ackTimer := none }

/-! ## Drains (R41) and the end of an event -/

/-- R41: a reception that began before the drain. -/
def earlierReception (ln : Line) : Bool :=
  match ln.rx with
  | .inFrame f => !f.inDrain
  | .completing _ d => !d
  | _ => false

/-- R41: the drain is complete when four conditions hold at once. -/
def drainComplete (ln : Line) : Bool :=
  ln.state == .draining && !earlierReception ln && ln.tx.isNone && !(ln.queued.any fun q => q.awaiting) && ln.acks.isEmpty

/-- R41: a line whose drain is complete enters STOPPED in the event that completed it. -/
def drainLine (s : State) (l : LineId) : State := if drainComplete s.lines[l] then enterStopped s l else s

/-- The end of an event at the lines: drains that have become complete, then the choices of the line transmitters (log 7). -/
def settleLines (s : State) : State := allLines.foldl lineChoose (allLines.foldl drainLine s)

end Sys2Proof.Machine
end

