-- ==== Sys2Proof/Machine/LinkTransmit.lean ====
section
/-! DEFINITION. The link transmitter (5.5, 5.6, 9.6): its choice of the next record, state notices, the stamping of notices;
and the end of an event at the lines and the link. -/

namespace Sys2Proof.Machine

/-! ## Replies (R176 to R178) -/

/-- R106, first place: the oldest finished reply. -/
def oldestReply (k : Link) : Option SlotId := k.order.find? fun i => k.slots[i].state == .replied

/-- R176, R177: a reply body: status, dropped count, damaged count, and the fields. -/
def replyBody (sl : Slot) (dropped damaged : Nat) : List Byte :=
  sl.status.code :: byteOf dropped :: byteOf damaged :: sl.fields

/-- R168: a reply carries its request's type plus 0x40 and its tag. -/
def replyRecord (sl : Slot) (dropped damaged : Nat) : List Byte :=
  linkRecord (sl.type + 0x40) sl.tag (replyBody sl dropped damaged)

/-- R178: a reply's lead byte begins: its slot becomes SENDING, the counts are written into it and become 0. -/
def sendReply (s : State) (i : SlotId) : State :=
  s.modLink fun k =>
    { k with
      slots := k.slots.set i { k.slots[i] with state := .sending }
      dropped := 0
      damaged := 0
      tx := some { src := .reply i, bytes := replyRecord k.slots[i] k.dropped k.damaged } }

/-! ## State notices (R107, R110) -/

/-- An item that has a mark, in the scan order of R107. -/
inductive MarkItem where
  | unit (e : EntryId)
  | line (l : LineId)
  | card (p : Pos)
  | attendance
  deriving DecidableEq, Repr

/-- R107: the marks in scan order. -/
def markScan : List MarkItem :=
  allEntries.map .unit ++ allLines.map .line ++ allPos.map .card ++ [.attendance]

def State.markSet (s : State) : MarkItem → Bool
  | .unit e => s.dir[e].mark
  | .line l => s.lines[l].mark
  | .card p => s.card[p].mark
  | .attendance => s.time.mark

/-- R107: the first mark that is set. -/
def firstMark (s : State) : Option MarkItem := markScan.find? s.markSet

/-- R109, R110, R156, R201: the six bytes that begin every notice body: a time in counter time, by the offset in force at the lead byte, and
an age. That a START notice which PAUSE held back until a TIME_SET was handled takes that offset too, not the offset 0 of R166 and R197,
is the model's choice (log 44). -/
def timeHeader (s : State) (t : Ms) (age : Nat) : List Byte := leBytes 4 (t + s.time.offset).toNat ++ leBytes 2 age

/-- R89, R201: the fields of a UNIT_STATE notice. -/
def unitStateFields (s : State) (e : EntryId) : List Byte :=
  let d := s.dir[e]
  byteOf e.val :: identityBytes d.identity
    ++ [d.kind.code, d.state.code, lineByte d.line, addrByte d.addr, posByte d.pos, boolByte d.pinned, d.condition.code]

/-- R46, R201: the fields of a LINE_STATE notice. -/
def lineStateFields (s : State) (l : LineId) : List Byte :=
  [lineByte l, s.lines[l].state.code, s.lines[l].state.rememberedCode]

/-- R152, R201: a track's status in a CARD_STATE notice: NOT_READ except for held tracks in READ. -/
def cardTrackByte (c : CardCtx) (i : Fin 3) : Byte :=
  if c.state = .read then
    match c.holds[i] with
    | some (st, _) => st.code
    | none => trackNotRead
  else trackNotRead

/-- R152, R201: the fields of a CARD_STATE notice. -/
def cardStateFields (s : State) (p : Pos) : List Byte :=
  let c := s.card[p]
  let bound := slotIdentity s .reader p
  posByte (some p) :: boolByte bound.isSome :: identityBytes (bound.getD 0)
    ++ [c.state.code, c.cause.code, cardTrackByte c 0, cardTrackByte c 1, cardTrackByte c 2]

/-- R165, R201: the fields of an ATTENDANCE notice. -/
def attendanceFields (s : State) : List Byte :=
  [attendanceCode s.time.attended, byteOf s.profile.wsSilence]

/-- R110, R201: the record of a state notice, with the time of the item's latest change, age 0 and tag 0. -/
def markRecord (s : State) : MarkItem → List Byte
  | .unit e => linkRecord 0xA0 0 (timeHeader s s.dir[e].latest 0 ++ unitStateFields s e)
  | .line l => linkRecord 0xA1 0 (timeHeader s s.lines[l].latest 0 ++ lineStateFields s l)
  | .card p => linkRecord 0xA2 0 (timeHeader s s.card[p].latest 0 ++ cardStateFields s p)
  | .attendance => linkRecord 0xA3 0 (timeHeader s s.time.latest 0 ++ attendanceFields s)

def clearMark (s : State) : MarkItem → State
  | .unit e => s.modDir e fun d => { d with mark := false }
  | .line l => s.modLine l fun ln => { ln with mark := false }
  | .card p => s.modCard p fun c => { c with mark := false }
  | .attendance => { s with time := { s.time with mark := false } }

/-- R107, R178: a state notice's lead byte begins: its mark is cleared and the notice composed. -/
def sendMark (s : State) (m : MarkItem) : State :=
  (clearMark s m).modLink fun k => { k with tx := some { src := .mark, bytes := markRecord s m } }

/-! ## Notices of the workstation queues (R108, R109) -/

/-- R109: the age of a notice: 65,535 when resent. -/
def noticeAge (s : State) (n : Notice) : Nat :=
  if n.resent then 65535 else min 65535 (elapsed s.now s.pool.recs[n.record].arrival)

/-- R201: the flags of a notice built from a frame: bit 0 witnessed, bit 1 resent. -/
def noticeFlags (n : Notice) : Byte := byteOf (n.witnessed.toNat + 2 * n.resent.toNat)

/-- Whether a notice kind is one of the first five of R101, with the unit fields. -/
def NoticeKind.ofUnit : NoticeKind → Bool
  | .key | .cardMove | .track | .alert | .data => true
  | _ => false

/-- R201: flags, position, the unit fields (0 when absent) and the urgency. -/
def unitNoticeFields (s : State) (n : Notice) : List Byte :=
  let u := match n.unit with
    | some u => identityBytes u.identity ++ [lineByte u.line, addrByte u.addr, u.kind.code]
    | none => List.replicate 9 0
  noticeFlags n :: posByte n.pos :: u ++ [byteOf s.pool.recs[n.record].urg.toNat]

/-- R109, R201: the record of a notice, stamped with its arrival in counter time and its age. -/
def noticeRecord (s : State) (n : Notice) : List Byte :=
  linkRecord n.kind.code n.tag
    (timeHeader s s.pool.recs[n.record].arrival (noticeAge s n)
      ++ (if n.kind.ofUnit then unitNoticeFields s n else []) ++ s.pool.body n.record)

/-- R108: whether the age of W2's head exceeds the bulk age limit. -/
def bulkAged (s : State) : Bool :=
  match s.w2 with
  | [] => false
  | n :: _ => decide (s.profile.bulkAge < elapsed s.now s.pool.recs[n.record].arrival)

def State.wqueue (s : State) (q : Cls) : List Notice :=
  match q with
  | 0 => s.w0
  | 1 => s.w1
  | _ => s.w2

/-- R106, third to sixth places: the queue whose head is taken. -/
def noticeChoice (s : State) : Option Cls :=
  if !s.w0.isEmpty then some 0
  else if bulkAged s then some 2
  else if !s.w1.isEmpty then some 1
  else if !s.w2.isEmpty then some 2
  else none

/-- The head of a workstation queue leaves it. -/
def dropHead (s : State) (q : Cls) : State :=
  match q with
  | 0 => { s with w0 := s.w0.drop 1 }
  | 1 => { s with w1 := s.w1.drop 1 }
  | _ => { s with w2 := s.w2.drop 1 }

/-- R101, R178: a notice's lead byte begins: the entry leaves its queue and its reference passes to the transmission. -/
def sendNotice (s : State) (q : Cls) : State :=
  match s.wqueue q with
  | [] => s
  | n :: _ => (dropHead s q).modLink fun k => { k with tx := some { src := .notice n.record, bytes := noticeRecord s n } }

/-! ## The choice (R106) and the end of an event -/

/-- R106: the link transmitter's choice, made when no record is being sent and PAUSE is not asserted. That a state notice goes before
the START notice when PAUSE has held START back until a mark was set is the model's choice between R106 and R183 (log 41). -/
def settleLink (s : State) : State :=
  if s.link.tx.isSome || s.pausePin then s
  else
    match oldestReply s.link with
    | some i => sendReply s i
    | none =>
      match firstMark s with
      | some m => sendMark s m
      | none =>
        match noticeChoice s with
        | some q => sendNotice s q
        | none => s

/-- The end of an event: drains and choices of the lines, then the choice of the link transmitter (log 7). -/
def settle (s : State) : State := settleLink (settleLines s)

end Sys2Proof.Machine
end

