-- ==== Sys2Proof/Machine/LinkReceive.lean ====
section
/-! DEFINITION. The receiver of the workstation link (9.3, 9.4): assembly, judgement, rescan, and the settling of a well-formed
record. -/

namespace Sys2Proof.Machine

/-! ## A well-formed record is settled (R162, R172, R173) -/

/-- R162: the attendance timer is armed with the workstation silence item, or stopped when the item is 0. -/
def armAttendance (s : State) : State :=
  { s with time := { s.time with timer := if s.profile.wsSilence = 0 then none else armSec s.profile.wsSilence } }

/-- R172: a record of type 0x01 to 0x3F is a request. -/
def requestType (t : Byte) : Bool := decide (1 ≤ t.toNat ∧ t.toNat ≤ 0x3F)

/-- R173: the lowest-numbered FREE slot. -/
def freeSlotOf (k : Link) : Option SlotId := allSlots.find? fun i => k.slots[i].state == .free

/-- R173: a request is taken into a slot and joins the tail of the taking order. -/
def takeRequest (s : State) (i : SlotId) (t g : Byte) (body : List Byte) : State :=
  s.modLink fun k =>
    { k with
      slots := k.slots.set i { state := .taken, type := t, tag := g, body := body, status := .ok, fields := [] }
      order := k.order ++ [i] }

/-- R172, step 3: the record is taken, or dropped. -/
def judgeRecord (s : State) (t g : Byte) (body : List Byte) : State :=
  if requestType t && !s.link.restartPending then
    match freeSlotOf s.link with
    | some i => takeRequest s i t g body
    | none => countDropped s
  else countDropped s

/-- R172: a well-formed record with this type, tag and body. -/
def settleRecord (s : State) (t g : Byte) (body : List Byte) : State :=
  let s1 := if s.time.attended then s else setAttendance s true
  judgeRecord (armAttendance s1) t g body

/-! ## Assembly and rescan (R169, R170) -/

/-- R169: the judgement of the bytes that follow a lead. A well-formed record has `length` bytes after its lead. -/
inductive Judgement where
  | incomplete
  | damaged
  | wellFormed (length : Nat)
  deriving DecidableEq, Repr

/-- R169: judge the bytes stored after a lead. -/
def judge (inner : List Byte) : Judgement :=
  match inner with
  | _ :: _ :: n :: rest =>
    if Config.maxLinkBody < n.toNat then .damaged
    else if rest.length < n.toNat + 1 then .incomplete
    else if byteSum (inner.take (n.toNat + 4)) = 0 then .wellFormed (n.toNat + 4)
    else .damaged
  | _ => .incomplete

/-- The record in the bytes that follow a lead is settled. -/
def settleInner (s : State) (inner : List Byte) : State :=
  settleRecord s (byteAt inner 0) (byteAt inner 1) (bytesAt inner 3 (byteAt inner 2).toNat)

/-- R169, R170: take bytes one after another, beginning in HUNTING after `skip` of them. A damaged record is counted and its
bytes after its lead are taken again; a well-formed one is settled; an open one stays in the assembly buffer. -/
def scan : List Byte → Nat → State → State
  | [], _, s => s
  | _ :: bs, skip + 1, s => scan bs skip s
  | b :: bs, 0, s =>
    if b = Config.lead then
      match judge bs with
      | .incomplete => s.modLink fun k => { k with asm := b :: bs }
      | .damaged => scan bs 0 (countDamaged s)
      | .wellFormed n => scan bs n (settleInner s bs)
    else scan bs 0 s

/-- R169, R170: a byte arrives: the buffer and the byte are judged from the buffer's lead on. -/
def receiveByte (s : State) (b : Byte) : State :=
  scan (s.link.asm ++ [b]) 0 (s.modLink fun k => { k with asm := [] })

/-- What the byte does to the record in assembly: it completes a record, abandons it, or neither. -/
inductive ByteEffect where
  | assembles
  | completes
  | abandons
  deriving DecidableEq, Repr

/-- R169: the effect of a byte on the assembly buffer. -/
def byteEffect (asm : List Byte) (b : Byte) : ByteEffect :=
  match asm with
  | [] => .assembles
  | _ :: inner =>
    match judge (inner ++ [b]) with
    | .incomplete => .assembles
    | .damaged => .abandons
    | .wellFormed _ => .completes

/-- R171: a record in progress is abandoned without a rescan, and counted. -/
def abandonRecord (s : State) : State :=
  if s.link.asm.isEmpty then s
  else countDamaged (s.modLink fun k => { k with asm := [] })

/-- The receiver samples when start-up has enabled it (R169, R196). -/
def State.linkOn (s : State) : Bool := s.running && s.link.rxOn

/-! ## Characters (R167) -/

/-- R167: the receiver hunts for a falling edge: after a framing error it sees none until the link has returned to mark. -/
def State.linkSees (s : State) (c : LinkChar) : Bool := s.linkOn && (c.marked || !s.link.awaitMark)

/-- R167: the link has been at mark, so that the next fall is a start edge. -/
def markSeen (s : State) : State := s.modLink fun k => { k with awaitMark := false }

/-- R167, R169: the byte of a character that the receiver has seen. -/
def receiveChar10 (s : State) (c : LinkChar) : State := receiveByte (markSeen s) (linkByte c)

/-- Whether a character brings a byte with this effect on the record in assembly. -/
def linkBrings (s : State) (c : LinkChar) (e : ByteEffect) : Bool :=
  s.linkSees c && (linkGood c && byteEffect s.link.asm (linkByte c) == e)

end Sys2Proof.Machine
end

