-- ==== Sys2Proof/Machine/Startup.lean ====
section
/-! DEFINITION. Reset and the start-up sequence (10.5). -/

namespace Sys2Proof.Machine

/-- R195: a reset puts every block into the state its reset rule gives (R22, R49, R69, R90, R111, R135, R154, R166, R183). The
store keeps its content, an interrupted commit leaving it as it stands (R193); a chunk keeps its bytes (R1); the working profile
and the link rate are chosen afresh by the start-up that follows. -/
def doReset (s : State) (c : ResetCause) : State :=
  { s with
    running := false
    resetCause := c
    time := resetTime
    pool := resetPool s.pool.mem
    lines := Vector.replicate 4 resetLine
    dir := Vector.replicate 16 resetEntry
    w0 := []
    w1 := []
    w2 := []
    fanouts := []
    hits := Vector.replicate 16 0
    entry := Vector.replicate 8 resetEntryCtx
    card := Vector.replicate 8 resetCardCtx
    link := resetLink
    store := { s.store with commit := none } }

/-- R196, step 3: the profile outcome. -/
def profileChoice (pdef : Bool) (st : StoreState) : ProfileOutcome :=
  if pdef then .defaultsForced
  else match st with
    | .blank => .blank
    | .incomplete => .incomplete
    | .complete => .loaded

/-- R189: the stored profile of a COMPLETE store, which all eight blocks hold (log 23). -/
def storedProfile (st : Store) : Profile := st.blocks[0]

/-- R196, step 3: the working profile. -/
def chosenProfile (o : ProfileOutcome) (st : Store) : Profile :=
  match o with
  | .loaded => storedProfile st
  | _ => defaultProfile

/-- R83: the lost timer of each SILENT entry on a line is armed at the line's start. -/
def armLostOnLine (s : State) (l : LineId) : State :=
  allEntries.foldl (fun t e =>
    if t.dir[e].state = .silent ∧ t.dir[e].line = l then
      t.modDir e fun d => { d with lostTimer := armSec t.profile.lostLimit }
    else t) s

/-- R40, the first four steps: a line starts. -/
def startLine (s : State) (l : LineId) : State :=
  let items := s.profile.lines[l]
  let s1 := s.modLine l fun ln =>
    { ln with state := .active, timing := some { d := items.d, s := items.s }, idle := false, rx := .hunting }
  armLostOnLine (offerGeneralWho s1 l) l

/-- R196, step 5: the lines whose enabled-at-start item is yes, in ascending order. -/
def startLines (s : State) : State :=
  allLines.foldl (fun t l => if t.profile.lines[l].enabled then startLine t l else t) s

/-- R197, R201: bit n - 1 for each line n that was started. -/
def linesBitmap (prof : Profile) : Byte :=
  byteOf ((allLines.map fun l => if prof.lines[l].enabled then 2 ^ l.val else 0).sum)

/-- R197, R201: the stored body of a START notice. -/
def startBody (s : State) : List Byte :=
  [s.resetCause.code, s.profileOutcome.code, s.store.state.code, byteOf s.linkRate.toNat, linesBitmap s.profile]

/-- R196, steps 1 to 3: straps and profile. -/
def startProfile (s : State) : State :=
  let o := profileChoice s.straps.pdef s.store.state
  { s with linkRate := s.straps.lrate, profileOutcome := o, profile := chosenProfile o s.store, running := true }

/-- R196, step 6: the link receiver is enabled and the attendance timer armed. -/
def openLink (s : State) : State := armAttendance (s.modLink fun k => { k with rxOn := true })

/-- R196: the start-up sequence. The START promise is always granted (R18). -/
def startUp (s : State) : State :=
  match reserve (startProfile s) .start 0 with
  | (s1, none) => openLink (startLines s1)
  | (s1, some r) =>
    let s2 := openLink (startLines s1)
    completePromise s2 r .start 0 none (startBody s2)

/-- R182: the end of the RESTART's reply: a reset with cause RESTART, and start-up. -/
def restartNow (s : State) : State := settleLink (startUp (doReset s .restart))

end Sys2Proof.Machine
end

