-- ==== Sys2Proof/Machine/Handling.lean ====
section
/-! DEFINITION. The handling of a request (9.5): which request is handled next, its answer, and the finishing of its reply. -/

namespace Sys2Proof.Machine

/-- What the rule of a request answers (R176). -/
structure Answer where
  status : Status
  fields : List Byte
  deriving DecidableEq, Repr

/-- A request carried out as asked, with its fields. -/
def done (s : State) (fields : List Byte) : State × Answer := (s, { status := .ok, fields := fields })

/-- A request refused. -/
def refuse (s : State) (st : Status) : State × Answer := (s, { status := st, fields := [] })

/-- R115, R141, R187: OK, or CLAMPED when a value was brought within its range. -/
def doneClamped (s : State) (clamped : Bool) (fields : List Byte) : State × Answer :=
  (s, { status := if clamped then .clamped else .ok, fields := fields })

/-- R164, R175, R182: the request handled next is the first TAKEN slot in the taking order; none while a RESTART is pending, and none
while the part is UNATTENDED: a request that the expiry of the attendance timer overtook waits for the next record (log 38). -/
def currentSlot (s : State) : Option SlotId :=
  if s.running && s.time.attended && !s.link.restartPending then s.link.order.find? fun i => s.link.slots[i].state == .taken else none

/-- R176: a reply with a status other than OK or CLAMPED carries no fields. -/
def answerFields (a : Answer) : List Byte :=
  match a.status with
  | .ok | .clamped => a.fields
  | _ => []

/-- R175: the reply is written into the slot's reply buffer and the slot becomes REPLIED. -/
def finishReply (s : State) (i : SlotId) (a : Answer) : State :=
  s.modSlot i fun sl => { sl with state := .replied, status := a.status, fields := answerFields a }

/-- R175: handle the request in turn, when it is one that `sel` selects, by its rule; `fin` ends the event. -/
def handle (s : State) (sel : Slot → Bool) (rule : State → Slot → State × Answer) (fin : State → State) : State :=
  match currentSlot s with
  | none => s
  | some i =>
    if sel s.link.slots[i] then
      let (s1, a) := rule s s.link.slots[i]
      fin (finishReply s1 i a)
    else s

/-- R179: a request of one type. -/
def ofType (t : Byte) (sl : Slot) : Bool := sl.type == t

/-- R179: the type codes of the catalogue. -/
def catalogue : List Byte :=
  [0x01, 0x02, 0x03, 0x04, 0x05, 0x08, 0x09, 0x0A, 0x0C, 0x10, 0x11, 0x12, 0x13, 0x14, 0x18, 0x19, 0x1A, 0x20, 0x21, 0x22,
   0x28, 0x29, 0x2A, 0x2B, 0x2C, 0x30, 0x31, 0x32, 0x33]

/-- A rule for requests that carry an empty body; any other length is BAD_LENGTH. -/
def emptyBody (rule : State → State × Answer) (s : State) (sl : Slot) : State × Answer :=
  if sl.body.isEmpty then rule s else refuse s .badLength

/-- A rule for requests that carry one byte naming a position (R128, R134, R144, R146, R153). -/
def positionBody (rule : State → Pos → Slot → State × Answer) (s : State) (sl : Slot) : State × Answer :=
  if sl.body.length ≠ 1 then refuse s .badLength
  else match posOfByte (byteAt sl.body 0) with
    | none => refuse s .badParameter
    | some p => rule s p sl

/-- A rule for requests that carry the six bytes of an identity held by an entry (R85, R87, R88). -/
def identityBody (rule : State → EntryId → State × Answer) (s : State) (sl : Slot) : State × Answer :=
  if sl.body.length ≠ 6 then refuse s .badLength
  else match holderOf s (identityAt sl.body 0) with
    | none => refuse s .noSuchUnit
    | some e => rule s e

end Sys2Proof.Machine
end

