-- ==== Sys2Proof/Machine/EntryRequests.lean ====
section
/-! DEFINITION. The requests of the Entry Engine: ENTRY_OPEN, ENTRY_CANCEL, ENTRY_STATUS (R114 to R116, R128, R134). -/

namespace Sys2Proof.Machine

/-! ## ENTRY_OPEN -/

/-- R203: the body length of an ENTRY_OPEN by its field kind byte; a byte naming no field kind takes any length. -/
def entryLengthOk (b : List Byte) : Bool :=
  decide (2 ≤ b.length) &&
    (let k := byteAt b 1
     if k = 1 then b.length == 37 else if k = 2 then b.length == 27 else if k = 3 then b.length == 26
     else if k = 4 then b.length == 24 else true)

/-- R114: the field kind byte names a field kind. -/
def fieldKindOk (k : Byte) : Bool := decide (1 ≤ k.toNat ∧ k.toNat ≤ 4)

/-- R115, R203: the field kind and its parameters, when every parameter lies in its range. -/
def parseField (b : List Byte) : Option Field :=
  let k := byteAt b 1
  if k = 1 then
    let d := (byteAt b 24).toNat
    let maxV := numAt b 25 6
    let minV := numAt b 31 6
    if d ≤ 3 ∧ 1 ≤ maxV ∧ maxV ≤ 999999999999 ∧ minV ≤ maxV then some (.amount d maxV minV) else none
  else if k = 2 then
    let lo := (byteAt b 24).toNat
    let hi := (byteAt b 25).toNat
    if 1 ≤ lo ∧ lo ≤ hi ∧ hi ≤ 24 ∧ (byteAt b 26).toNat ≤ 1 then some (.digits lo hi (byteAt b 26 == 1)) else none
  else if k = 3 then
    let lo := (byteAt b 24).toNat
    let hi := (byteAt b 25).toNat
    if 4 ≤ lo ∧ lo ≤ hi ∧ hi ≤ 12 then some (.pin lo hi) else none
  else if k = 4 then some .confirm
  else none

/-- R114, third check: the bound keypad of a position, ACTIVE or SILENT, on a line that is not STOPPED. -/
def openKeypad (s : State) (p : Pos) : Option EntryId :=
  match slotOf s .keypad p with
  | none => none
  | some e => if targetable s.dir[e] && !s.lineStopped s.dir[e].line then some e else none

/-- R115: a timeout: 0 asks for the profile default, another value is clamped to 1 to `hi`. -/
def takenTimeout (given dflt hi : Nat) : Nat := if given = 0 then dflt else max 1 (min hi given)

/-- R115: whether a timeout was clamped. -/
def timeoutClamped (given hi : Nat) : Bool := decide (hi < given)

/-- R116, step 3: the session that opens. -/
def openedSession (s : State) (b : List Byte) (f : Field) (r : RecId) (tag : Byte) (e : EntryId) : Session :=
  let first := takenTimeout (byteAt b 2).toNat s.profile.firstKey 120
  { active := false, field := f, value := 0, digits := [], prompt := bytesAt b 4 16
    pfx := bytesAt b 21 (byteAt b 20).toNat, firstKey := first
    interKey := takenTimeout (byteAt b 3).toNat s.profile.interKey 60, firstTimer := armSec first, interTimer := none
    result := r, tag := tag, keypad := e, keypadId := s.dir[e].identity, witness := !f.isPin }

/-- R116, steps 1 to 5. -/
def openSession (s : State) (p : Pos) (ss : Session) : State :=
  let s1 := s.modEntry p fun c =>
    { c with sess := some ss, guardTimer := none, target := some (ss.keypad, ss.keypadId) }
  displayUpdate s1 p (sessionLines ss) .none

/-- R114 to R116. -/
def entryOpenRule (s : State) (sl : Slot) : State × Answer :=
  let b := sl.body
  if !entryLengthOk b then refuse s .badLength
  else if !fieldKindOk (byteAt b 1) then refuse s .badParameter
  else match posOfByte (byteAt b 0) with
    | none => refuse s .badParameter
    | some p =>
      match openKeypad s p with
      | none => refuse s .noSuchUnit
      | some e =>
        if s.entry[p].sess.isSome then refuse s .sessionBusy
        else if 3 < (byteAt b 20).toNat then refuse s .badParameter
        else match parseField b with
          | none => refuse s .badParameter
          | some f =>
            match reserve s .entryResult sl.tag with
            | (s1, none) => refuse s1 .poolFull
            | (s1, some r) =>
              let ss := openedSession s1 b f r sl.tag e
              doneClamped (openSession s1 p ss)
                (timeoutClamped (byteAt b 2).toNat 120 || timeoutClamped (byteAt b 3).toNat 60)
                [byteOf ss.firstKey, byteOf ss.interKey]

/-! ## ENTRY_CANCEL and ENTRY_STATUS -/

/-- R128. -/
def entryCancelRule (s : State) (p : Pos) (_ : Slot) : State × Answer :=
  if s.entry[p].sess.isNone then refuse s .noSession else done (abortSession s p .entryCancel) []

/-- R203: the parameters field, padded with 0 to 13 bytes. -/
def fieldParameters (f : Field) : List Byte :=
  padTo 13 0 (match f with
    | .amount d maxV minV => byteOf d :: leBytes 6 maxV ++ leBytes 6 minV
    | .digits lo hi m => [byteOf lo, byteOf hi, boolByte m]
    | .pin lo hi => [byteOf lo, byteOf hi]
    | .confirm => [])

/-- R203: the session timer that runs: 0 none, 1 first-key, 2 inter-key; and its milliseconds left. -/
def sessionTimerFields (ss : Session) : List Byte :=
  match ss.firstTimer, ss.interTimer with
  | some n, _ => 1 :: leBytes 4 n
  | none, some n => 2 :: leBytes 4 n
  | none, none => 0 :: leBytes 4 0

/-- R134, R203: the session fields of an OPEN or ACTIVE context. -/
def sessionFields (ss : Session) : List Byte :=
  ss.field.code :: fieldParameters ss.field ++ padTo 16 0 ss.prompt ++ [byteOf ss.pfx.length] ++ padTo 3 0 ss.pfx
    ++ [byteOf ss.firstKey, byteOf ss.interKey, ss.tag] ++ identityBytes ss.keypadId ++ valueField ss none
    ++ sessionTimerFields ss

/-- R134, R203. An IDLE context reports its session fields as 0. -/
def entryStatusFields (s : State) (p : Pos) : List Byte :=
  let c := s.entry[p]
  sessionCode c.sess ::
    (match c.sess with
      | some ss => sessionFields ss
      | none => List.replicate 61 0)
    ++ [boolByte c.dispPending, c.pendTone.code, boolByte c.target.isSome]
    ++ identityBytes ((c.target.map Prod.snd).getD 0)
    ++ boolByte c.guardTimer.isSome :: count2 (timerLeft c.guardTimer)

/-! ## Commands -/

/-- ENTRY_OPEN (R114 to R116). -/
def execEntryOpen (s : State) : Host.Outcome State Fault Refusal := .next (handle s (ofType 0x20) entryOpenRule settle)

/-- ENTRY_CANCEL (R128). -/
def execEntryCancel (s : State) : Host.Outcome State Fault Refusal :=
  .next (handle s (ofType 0x21) (positionBody entryCancelRule) settle)

/-- ENTRY_STATUS (R134). -/
def execEntryStatus (s : State) : Host.Outcome State Fault Refusal :=
  .next (handle s (ofType 0x22) (positionBody fun t p _ => done t (entryStatusFields t p)) settleLink)

end Sys2Proof.Machine
end

