-- ==== Sys2Proof/Machine/CardRequests.lean ====
section
/-! DEFINITION. The requests of the Card Engine: CARD_READ, CARD_RESEND, CARD_EJECT, CARD_RETAIN, CARD_STATUS (R141, R144, R146,
R153). -/

namespace Sys2Proof.Machine

/-! ## CARD_READ -/

/-- R141: the mask names at least one of tracks 1 to 3 and nothing else. -/
def maskOk (m : Byte) : Bool := decide (1 ≤ m.toNat ∧ m.toNat ≤ 7)

/-- R141: the states in which a read is accepted. -/
def readable (st : CardState) : Bool :=
  match st with
  | .present | .read => true
  | _ => false

/-- R141: the promise, the READ command, and the start of the read. -/
def readFor (s : State) (p : Pos) (mask : BitVec 3) (given : Nat) (tag : Byte) : State × Answer :=
  let sec := takenTimeout given s.profile.readTimeout 20
  match reserve s .readDone tag with
  | (s1, none) => refuse s1 .poolFull
  | (s1, some pr) =>
    match offerCommand s1 p .read mask with
    | (s2, .carried r) =>
      doneClamped (startRead s2 p pr r mask tag sec .request) (timeoutClamped given 20) [byteOf sec]
    | (s2, _) => refuse (dropRef s2 pr) .poolFull

/-- R141. -/
def cardReadRule (s : State) (sl : Slot) : State × Answer :=
  match sl.body with
  | [b, m, t] =>
    match posOfByte b with
    | none => refuse s .badParameter
    | some p =>
      if !maskOk m then refuse s .badParameter
      else if !readable s.card[p].state || !readerUsable s p then refuse s .wrongState
      else readFor s p (BitVec.ofNat 3 m.toNat) t.toNat sl.tag
  | _ => refuse s .badLength

/-! ## CARD_RESEND -/

/-- R15: the reference limit is asked for before the promise. -/
def holdsAtLimit (s : State) (p : Pos) : Bool :=
  (heldRecords s.card[p]).any fun r => decide (Config.maxRefs ≤ s.pool.recs[r].refs)

/-- The unit fields of a resent TRACK notice: those of the entry in the record's origin (log 24). -/
def originEntry (r : Rec) : Option EntryId :=
  match r.origin with
  | .unit e _ _ => some e
  | _ => none

/-- R144, step 1: queue the held tracks again, in ascending track number. -/
def resendTracks (s : State) (p : Pos) : State :=
  (heldRecords s.card[p]).foldl (fun t r =>
    match originEntry t.pool.recs[r] with
    | some e => trackNotice t p e r true
    | none => t) s

/-- R144. -/
def cardResendRule (s : State) (p : Pos) (sl : Slot) : State × Answer :=
  if s.card[p].state ≠ .read then refuse s .wrongState
  else if holdsAtLimit s p then
    refuse (s.modPool fun pl => { pl with refLimit := satInc Config.count16 pl.refLimit }) .poolFull
  else match reserve s .readDone sl.tag with
    | (s1, none) => refuse s1 .poolFull
    | (s1, some pr) =>
      done (completePromise (resendTracks s1 p) pr .readDone 1 (some p) (readDoneBody p s1.card[p] .ok .request true 0)) []

/-! ## CARD_EJECT and CARD_RETAIN -/

/-- R146: the states in which CARD_EJECT is accepted. -/
def ejectable (st : CardState) : Bool :=
  match st with
  | .present | .reading | .read => true
  | _ => false

/-- R146: the states in which CARD_RETAIN is accepted. -/
def retainable (st : CardState) : Bool :=
  match st with
  | .empty | .retaining => false
  | _ => true

/-- R146, steps 1 to 3, once the command has been admitted. -/
def moveCard (s : State) (p : Pos) (cmd : CardCommand) (r : RecId) (st : CardState) : State :=
  let s1 := if s.card[p].state = .reading then readEnd s p .aborted .request 0 else s
  cardEnter s1 p st .request (some (cmd, r)) 0

/-- R146: the command of an accepted request is offered; a refusal leaves the context unchanged. -/
def commandFor (s : State) (p : Pos) (cmd : CardCommand) (st : CardState) : State × Answer :=
  match offerCommand s p cmd 0 with
  | (s1, .carried r) => done (moveCard s1 p cmd r st) []
  | (s1, _) => refuse s1 .poolFull

/-- R146: CARD_EJECT. -/
def cardEjectRule (s : State) (p : Pos) (_ : Slot) : State × Answer :=
  if !ejectable s.card[p].state || !readerUsable s p then refuse s .wrongState else commandFor s p .eject .ejecting

/-- R146: CARD_RETAIN. -/
def cardRetainRule (s : State) (p : Pos) (_ : Slot) : State × Answer :=
  if !retainable s.card[p].state || !readerUsable s p then refuse s .wrongState else commandFor s p .retain .retaining

/-! ## CARD_STATUS -/

/-- R203: for a track: held, status, and character count (the body less its first two bytes). -/
def trackFields (s : State) (c : CardCtx) (i : Fin 3) : List Byte :=
  match c.holds[i] with
  | some (st, r) => [1, st.code] ++ count1 (s.pool.recs[r].len - 2)
  | none => [0, 0, 0]

/-- R203: the timer that runs: 0 none, 1 read, 2 take, 3 movement; and its milliseconds left. -/
def cardTimerFields (c : CardCtx) : List Byte :=
  match c.readTimer, c.takeTimer, c.moveTimer with
  | some n, _, _ => 1 :: leBytes 4 n
  | none, some n, _ => 2 :: leBytes 4 n
  | none, none, some n => 3 :: leBytes 4 n
  | none, none, none => 0 :: leBytes 4 0

/-- R153, R203. -/
def cardStatusFields (s : State) (p : Pos) : List Byte :=
  let c := s.card[p]
  let bound := slotIdentity s .reader p
  [c.state.code, c.cause.code, boolByte bound.isSome] ++ identityBytes (bound.getD 0) ++ [byteOf c.mask.toNat, c.tag]
    ++ trackFields s c 0 ++ trackFields s c 1 ++ trackFields s c 2
    ++ (match c.current with
        | some (cmd, _) => [cmd.code]
        | none => [0])
    ++ cardTimerFields c

/-! ## Commands -/

/-- CARD_READ (R141). -/
def execCardRead (s : State) : Host.Outcome State Fault Refusal := .next (handle s (ofType 0x28) cardReadRule settle)

/-- CARD_RESEND (R144). -/
def execCardResend (s : State) : Host.Outcome State Fault Refusal :=
  .next (handle s (ofType 0x29) (positionBody cardResendRule) settleLink)

/-- CARD_EJECT (R146). -/
def execCardEject (s : State) : Host.Outcome State Fault Refusal :=
  .next (handle s (ofType 0x2A) (positionBody cardEjectRule) settle)

/-- CARD_RETAIN (R146). -/
def execCardRetain (s : State) : Host.Outcome State Fault Refusal :=
  .next (handle s (ofType 0x2B) (positionBody cardRetainRule) settle)

/-- CARD_STATUS (R153). -/
def execCardStatus (s : State) : Host.Outcome State Fault Refusal :=
  .next (handle s (ofType 0x2C) (positionBody fun t p _ => done t (cardStatusFields t p)) settleLink)

end Sys2Proof.Machine
end

