-- ==== Sys2Proof/Machine/DeviceRequests.lean ====
section
/-! DEFINITION. The requests of the link, the time and the pool: UNKNOWN_REQUEST, IDENTIFY, DEVICE_STATUS, RESTART, TIME_SET,
TIME_GET, POOL_STATUS (R20, R157, R158, R175, R180 to R182). -/

namespace Sys2Proof.Machine

/-! ## Rules -/

/-- R175: a type that names no request. -/
def unknownRule (s : State) (_ : Slot) : State × Answer := refuse s .unknownRequest

/-- R180, R203. -/
def identifyFields (s : State) : List Byte :=
  leBytes 2 Config.partCode ++ [byteOf Config.revision] ++ leBytes 2 Config.storeBytes ++ [byteOf s.linkRate.toNat]

/-- R181, R203. -/
def deviceStatusFields (s : State) : List Byte :=
  [attendanceCode s.time.attended, byteOf s.profile.wsSilence] ++ leBytes 4 s.time.mono.toNat
    ++ [s.resetCause.code, s.profileOutcome.code, s.store.state.code, boolByte s.store.commit.isSome]
    ++ leBytes 2 s.pool.chunksFree ++ [byteOf s.pool.recsFree, byteOf (busySlots s.link), boolByte s.hold]
    ++ allLines.map fun l => s.lines[l].state.code

/-- R182, step 1. -/
def restartRule (s : State) : State × Answer := done (s.modLink fun k => { k with restartPending := true }) []

/-- R156: counter time. -/
def counterTime (s : State) : Ms := s.time.mono + s.time.offset

/-- R157. -/
def timeSetRule (s : State) (sl : Slot) : State × Answer :=
  if sl.body.length ≠ 4 then refuse s .badLength
  else
    done { s with time := { s.time with offset := BitVec.ofNat 32 (numAt sl.body 0 4) - s.time.mono } }
      (leBytes 4 s.time.mono.toNat ++ leBytes 4 (counterTime s).toNat)

/-- R158. -/
def timeGetFields (s : State) : List Byte :=
  leBytes 4 (counterTime s).toNat ++ leBytes 4 s.time.mono.toNat ++ leBytes 4 s.time.offset.toNat

/-- R20, R203. -/
def poolStatusFields (s : State) : List Byte :=
  let p := s.pool
  leBytes 2 p.chunksFree ++ [byteOf p.recsFree] ++ leBytes 2 p.lowF ++ [byteOf p.lowG]
    ++ [byteOf (p.recsIn .filling), byteOf (p.recsIn .reserved), byteOf (p.recsIn .stored)]
    ++ leBytes 2 (p.chunksOf fun r => r.cls == 0) ++ leBytes 2 (p.chunksOf fun r => r.cls == 1)
    ++ leBytes 2 (p.chunksOf fun r => r.cls == 2)
    ++ [byteOf s.profile.reserve0, byteOf s.profile.reserve1, byteOf s.profile.unitQuota, byteOf s.profile.wsQuota]
    ++ count1 p.wsHeld ++ (allEntries.map fun e => byteOf (min (p.unitHeld e) 255))
    ++ (p.refusals.toList.map fun n => leBytes 2 n).flatten ++ leBytes 2 p.refLimit

/-- R20: the clear option. -/
def Pool.clearCounts (p : Pool) : Pool :=
  { p with refusals := Vector.replicate 9 0, refLimit := 0, lowF := p.chunksFree, lowG := p.recsFree }

/-- R20. -/
def poolStatusRule (s : State) (sl : Slot) : State × Answer :=
  match sl.body with
  | [o] =>
    if o = 0 then done s (poolStatusFields s)
    else if o = 1 then done (s.modPool Pool.clearCounts) (poolStatusFields s)
    else refuse s .badParameter
  | _ => refuse s .badLength

/-! ## Commands -/

/-- UNKNOWN_REQUEST (R175): a request whose type names none of the catalogue. -/
def execUnknownRequest (s : State) : Host.Outcome State Fault Refusal :=
  .next (handle s (fun sl => !catalogue.contains sl.type) unknownRule settleLink)

/-- IDENTIFY (R180). -/
def execIdentify (s : State) : Host.Outcome State Fault Refusal :=
  .next (handle s (ofType 0x01) (emptyBody fun t => done t (identifyFields t)) settleLink)

/-- DEVICE_STATUS (R181). -/
def execDeviceStatus (s : State) : Host.Outcome State Fault Refusal :=
  .next (handle s (ofType 0x02) (emptyBody fun t => done t (deviceStatusFields t)) settleLink)

/-- RESTART (R182). -/
def execRestart (s : State) : Host.Outcome State Fault Refusal :=
  .next (handle s (ofType 0x03) (emptyBody restartRule) settleLink)

/-- TIME_SET (R157). -/
def execTimeSet (s : State) : Host.Outcome State Fault Refusal := .next (handle s (ofType 0x04) timeSetRule settleLink)

/-- TIME_GET (R158). -/
def execTimeGet (s : State) : Host.Outcome State Fault Refusal :=
  .next (handle s (ofType 0x05) (emptyBody fun t => done t (timeGetFields t)) settleLink)

/-- POOL_STATUS (R20). -/
def execPoolStatus (s : State) : Host.Outcome State Fault Refusal := .next (handle s (ofType 0x0C) poolStatusRule settleLink)

end Sys2Proof.Machine
end

