-- ==== Sys2Proof/Machine/DispatchRequests.lean ====
section
/-! DEFINITION. The requests of Dispatch: SCREEN_SET, SCREEN_GET, UNIT_SEND (R94, R95, R103, R104). -/

namespace Sys2Proof.Machine

/-! ## The screen list -/

/-- R202: a screen item. -/
def screenItem (i : EntryId) (x : ScreenEntry) : List Byte :=
  [byteOf i.val, boolByte x.inUse, x.type.code, x.selector.code] ++ identityBytes x.selValue
    ++ [x.kind.code, x.action.code, byteOf x.cls.val]

/-- R95: a screen item with its hit count. -/
def screenReport (s : State) (i : EntryId) : List Byte := screenItem i s.profile.screen[i] ++ leBytes 2 s.hits[i]

/-- R94: whether the first selector value byte suits the selector. -/
def selectorValueOk (k : SelectorKind) (b : Byte) : Bool :=
  match k with
  | .position => (posOfByte b).isSome
  | .line => (lineOfByte b).isSome
  | _ => true

/-- A yes-or-no byte. -/
def boolOfByte (b : Byte) : Option Bool := if b = 0 then some false else if b = 1 then some true else none

def clsOfByte (b : Byte) : Option Cls := if h : b.toNat < 3 then some ⟨b.toNat, h⟩ else none

def screenIndex (b : Byte) : Option EntryId := if h : b.toNat < 16 then some ⟨b.toNat, h⟩ else none

/-- R94: the entry that a screen item of 13 bytes gives, when every field is in its set. -/
def parseScreen (b : List Byte) : Option (EntryId × ScreenEntry) :=
  match screenIndex (byteAt b 0), boolOfByte (byteAt b 1), ScreenType.ofCode (byteAt b 2), SelectorKind.ofCode (byteAt b 3),
    ScreenKind.ofCode (byteAt b 10), ScreenAction.ofCode (byteAt b 11), clsOfByte (byteAt b 12) with
  | some i, some u, some t, some sel, some k, some a, some c =>
    if selectorValueOk sel (byteAt b 4) then
      some (i, { inUse := u, type := t, selector := sel, selValue := identityAt b 4, kind := k, action := a, cls := c })
    else none
  | _, _, _, _, _, _, _ => none

/-- R94, R96: the entry is written and its hit count becomes 0. -/
def writeScreen (s : State) (i : EntryId) (x : ScreenEntry) : State :=
  { s with profile := { s.profile with screen := s.profile.screen.set i x }, hits := s.hits.set i 0 }

/-- R94. -/
def screenSetRule (s : State) (sl : Slot) : State × Answer :=
  if sl.body.length ≠ 13 then refuse s .badLength
  else match parseScreen sl.body with
    | none => refuse s .badParameter
    | some (i, x) => done (writeScreen s i x) []

/-- R95. -/
def screenGetRule (s : State) (sl : Slot) : State × Answer :=
  match sl.body with
  | [] => done s (allEntries.map (screenReport s)).flatten
  | [b] =>
    match screenIndex b with
    | none => refuse s .badParameter
    | some i => done s (screenReport s i)
  | _ => refuse s .badLength

/-! ## UNIT_SEND -/

/-- R104, step 4: one target's copy: LINE_STOPPED at once, or a pass-queue entry. -/
def placeCopy (sendDone body : RecId) (s : State) (t : Target) : State :=
  if s.lineStopped t.line then copyOutcome s sendDone t.e .lineStopped
  else
    s.modLine t.line fun ln =>
      { ln with
        pass := ln.pass ++ [newEntry s body ((s.dir[t.e].addr).getD 0) (some t.e) (.dispatch sendDone)] }

/-- R104, step 5: the body's reference count becomes the number of copies placed; with none it is released. -/
def spreadBody (s : State) (body : RecId) (placed : Nat) : State :=
  if placed = 0 then dropRef s body else s.modPool fun p => p.modRec body fun x => { x with refs := placed }

/-- R104, steps 3 to 5: the bookkeeping, the copies in the order of the targets, and the body's references. -/
def fanOut (s : State) (sendDone body : RecId) (tag : Byte) (targets : List EntryId) : State :=
  let ts := targets.map fun e => ({ e := e, identity := s.dir[e].identity, line := s.dir[e].line, ended := false } : Target)
  let f : Fanout := { sendDone := sendDone, body := body, tag := tag, targets := ts, outstanding := ts.length }
  let placed := (ts.filter fun t => !s.lineStopped t.line).length
  let s1 := spreadBody { s with fanouts := s.fanouts ++ [f] } body placed
  ts.foldl (placeCopy sendDone body) s1

/-- R103: the urgency of a UNIT_SEND and the class of its body (R6). -/
def sendUrgency (b : Byte) : Option (Urgency × Cls) := if b = 1 then some (1, 1) else if b = 2 then some (2, 2) else none

/-- R104: the admission of the body. -/
def sendAdmission (s : State) (tag : Byte) (u : Urgency) (c : Cls) (len : Nat) : Admission :=
  { cls := c, need := chunkNeed len, origin := .workstation tag, kind := .frame .unitCommand, urg := u, arrival := s.now
    state := .stored, promise := none }

/-- R104: a UNIT_SEND with its targets. -/
def sendTo (s : State) (tag : Byte) (u : Urgency) (c : Cls) (body : List Byte) (targets : List EntryId) : State × Answer :=
  match reserve s .sendDone tag with
  | (s1, none) => refuse s1 .poolFull
  | (s1, some sd) =>
    match admitRec s1 (sendAdmission s1 tag u c body.length) with
    | (s2, none) => refuse (dropRef s2 sd) .poolFull
    | (s2, some r) =>
      done (fanOut (s2.modPool fun p => p.setBody r body) sd r tag targets) [byteOf targets.length]

/-- R103: the length of a UNIT_SEND agrees with its body length field, and the body is no longer than 120 bytes. -/
def sendLengthOk (b : List Byte) : Bool :=
  decide (10 ≤ b.length) && decide (b.length = 10 + (byteAt b 9).toNat) && decide ((byteAt b 9).toNat ≤ Config.maxFrameBody)

/-- R103: bits 2 to 7 of the role mask are not read. -/
def noRole (b : Byte) : Bool := !b.getLsbD 0 && !b.getLsbD 1

/-- R103, R104. -/
def unitSendRule (s : State) (sl : Slot) : State × Answer :=
  let b := sl.body
  if !sendLengthOk b then refuse s .badLength
  else match sendUrgency (byteAt b 8) with
    | none => refuse s .badParameter
    | some (u, c) =>
      if byteAt b 0 ≠ 0 ∧ noRole (byteAt b 1) then refuse s .badParameter
      else match resolveTargets s (byteAt b 0) (byteAt b 1) (identityAt b 2) with
        | [] => refuse s .noSuchUnit
        | t :: ts => sendTo s sl.tag u c (b.drop 10) (t :: ts)

/-! ## Commands -/

/-- SCREEN_SET (R94). -/
def execScreenSet (s : State) : Host.Outcome State Fault Refusal := .next (handle s (ofType 0x18) screenSetRule settleLink)

/-- SCREEN_GET (R95). -/
def execScreenGet (s : State) : Host.Outcome State Fault Refusal := .next (handle s (ofType 0x19) screenGetRule settleLink)

/-- UNIT_SEND (R103, R104). -/
def execUnitSend (s : State) : Host.Outcome State Fault Refusal := .next (handle s (ofType 0x1A) unitSendRule settle)

end Sys2Proof.Machine
end

