-- ==== Sys2Proof/Machine/LineCommands.lean ====
section
/-! DEFINITION. The events of the counter lines (chapters 2 and 3). An event that the line's state does not admit changes nothing
(log 1). -/

namespace Sys2Proof.Machine

/-! ## Characters -/

/-- A character's event takes place on a line of a running part that receives (R27). -/
def lineHears (s : State) (l : LineId) : Bool := s.running && receiving s l

/-- CHARACTER_RECEIVED (R27 to R30, R32, R52 to R54): a character settled at its stop bit, or its start edge alone (log 6). -/
def execCharacterReceived (l : LineId) (edge : Ms) (c : RawChar) (s : State) (moment : CharMoment := .stopBit) :
    Host.Outcome State Fault Refusal :=
  .next (if lineHears s l then
      settle (match moment with
        | .startEdge => startEdge s l
        | .stopBit => receiveChar s l edge c)
    else s)

/-- FALSE_START (R28): a start bit valued recessive. -/
def execFalseStart (l : LineId) (b : Bit3) (s : State) : Host.Outcome State Fault Refusal :=
  .next (if lineHears s l && bitValue b then
      settle (falseStarts s l)
    else s)

/-- FRAMING_ERROR (R30): a stop bit valued dominant. -/
def execFramingError (l : LineId) (c : RawChar) (s : State) : Host.Outcome State Fault Refusal :=
  .next (if lineHears s l && (!charFalseStart c && charFramingError c) then settle (receiveChar s l s.now c) else s)

/-- A character that frame assembly takes in the role given. -/
def takesRole (s : State) (l : LineId) (c : RawChar) (role : CharRole → Bool) : Bool :=
  lineHears s l && (charGood c && role (nextRole s.lines[l]))

/-- LENGTH_CHARACTER (R53). -/
def execLengthCharacter (l : LineId) (c : RawChar) (s : State) : Host.Outcome State Fault Refusal :=
  .next (if takesRole s l c (· == .length) then settle (receiveChar s l s.now c) else s)

/-- The check character of an event or data frame of a known kind. -/
def eventCheck : CharRole → Bool
  | .check (some k) => k.family == .event || k.family == .data
  | _ => false

/-- UNIT_EVENT_DATA_FRAME (R54, R55). -/
def execUnitEventDataFrame (l : LineId) (c : RawChar) (s : State) : Host.Outcome State Fault Refusal :=
  .next (if takesRole s l c eventCheck then settle (receiveChar s l s.now c) else s)

/-- HELLO (R57, R74). -/
def execHello (l : LineId) (c : RawChar) (s : State) : Host.Outcome State Fault Refusal :=
  .next (if takesRole s l c (· == .check (some .hello)) then settle (receiveChar s l s.now c) else s)

/-- UNIT_STATUS (R57, R81). -/
def execUnitStatus (l : LineId) (c : RawChar) (s : State) : Host.Outcome State Fault Refusal :=
  .next (if takesRole s l c (· == .check (some .status)) then settle (receiveChar s l s.now c) else s)

/-- UNIT_ACK (R58). -/
def execUnitAck (l : LineId) (c : RawChar) (s : State) : Host.Outcome State Fault Refusal :=
  .next (if takesRole s l c (· == .check (some .ack)) then settle (receiveChar s l s.now c) else s)

/-- OVERSIZE_ABANDON_END (R53). It can come after a transmission of the part has begun (log 40). -/
def execOversizeAbandonEnd (l : LineId) (s : State) : Host.Outcome State Fault Refusal :=
  .next (if s.running && awake s l && s.lines[l].rx == .abandoned then settle (setRx s l .hunting) else s)

/-- Whether the receiver is inside a frame (R31). -/
def insideFrame (ln : Line) : Bool :=
  match ln.rx with
  | .inFrame _ => true
  | _ => false

/-- CHARACTER_GAP_EXPIRY (R31). It can come after a transmission of the part has begun (log 40). -/
def execCharacterGapExpiry (l : LineId) (s : State) : Host.Outcome State Fault Refusal :=
  .next (if s.running && awake s l && insideFrame s.lines[l] then
      settle (dropReception (countLine s l LineCounters.addGap) l)
    else s)

/-! ## Idle and stuck (R32, R33, R45) -/

/-- R32, R45: the line is idle; a stuck condition ends by the state it remembers. -/
def becomeIdle (s : State) (l : LineId) : State :=
  match s.lines[l].state with
  | .stopped => s
  | .stuck true => enterStopped s l
  | .stuck false => setLineMark (s.modLine l fun ln => { ln with state := .active, idle := true }) l
  | _ => s.modLine l fun ln => { ln with idle := true }

/-- Whether a header is in progress, its start bit read dominant. -/
def insideHeader (ln : Line) : Bool :=
  match ln.rx with
  | .completing _ _ => true
  | _ => false

/-- R32: whether the line can become idle now. Inside a frame it can: the ten recessive bits of a character 0xFF and the 2 bit times
of R31 make 12 (log 40). -/
def idleDue (ln : Line) : Bool := ln.state != .stopped && ln.tx.isNone && !ln.idle && !insideHeader ln

/-- LINE_IDLE (R32). -/
def execLineIdle (l : LineId) (s : State) : Host.Outcome State Fault Refusal :=
  .next (if s.running && idleDue s.lines[l] then settle (becomeIdle s l) else s)

/-- R45: the line enters STUCK, a transmission in progress having ended as a bit error (R37). -/
def becomeStuck (s : State) (l : LineId) : State :=
  let s1 := if s.lines[l].tx.isSome then bitErrorAt s l else s
  let s2 := countLine (dropReception s1 l) l LineCounters.addStuck
  setLineMark (s2.modLine l fun ln => { ln with state := .stuck (ln.state == .draining), idle := false }) l

/-- LINE_STUCK (R33, R45). -/
def execLineStuck (l : LineId) (s : State) : Host.Outcome State Fault Refusal :=
  .next (if s.running && (s.lines[l].state == .active || s.lines[l].state == .draining) then settle (becomeStuck s l) else s)

/-! ## Transmission (R35 to R37, R64) -/

/-- R35, R36: a header bit sent recessive that reads dominant. -/
def isLostArbitration (t : Tx) (chr bit : Nat) : Bool := chr == 0 && decide (bit ≤ 10) && txBit t chr bit

/-- LOST_ARBITRATION (R36). -/
def execLostArbitration (l : LineId) (bit : Nat) (s : State) : Host.Outcome State Fault Refusal :=
  match s.lines[l].tx with
  | none => .next s
  | some t => .next (if s.running && isLostArbitration t 0 bit then settle (arbitrationLost s l t) else s)

/-- R35, R37: any other mismatch. -/
def isBitError (t : Tx) (chr bit : Nat) : Bool :=
  decide (chr < t.chars.length) && decide (bit ≤ 10) && !isLostArbitration t chr bit

/-- BIT_ERROR (R37). -/
def execBitError (l : LineId) (chr bit : Nat) (s : State) : Host.Outcome State Fault Refusal :=
  match s.lines[l].tx with
  | none => .next s
  | some t => .next (if s.running && isBitError t chr bit then settle (bitErrorAt s l) else s)

/-- FRAME_TRANSMITTED (R34, R64). -/
def execFrameTransmitted (l : LineId) (s : State) : Host.Outcome State Fault Refusal :=
  .next (if s.running && s.lines[l].tx.isSome then settle (transmissionDone s l) else s)

/-! ## Timers of the queue entries (R65, R66) -/

/-- ACK_TIMEOUT (R65). -/
def execAckTimeout (l : LineId) (dest : Addr) (s : State) : Host.Outcome State Fault Refusal :=
  match awaitingFrom s.lines[l] dest with
  | none => .next s
  | some q => .next (if s.running && timerDue q.ackTimer then settle (ackExpires s l q) else s)

/-- The entry of a line that a record and a destination name. -/
def entryNamed (ln : Line) (r : RecId) (dest : Addr) : Option QEntry :=
  ln.queued.find? fun q => q.record == r && q.dest == dest

/-- QUEUE_LIMIT_EXPIRY (R66). -/
def execQueueLimitExpiry (l : LineId) (r : RecId) (dest : Addr) (s : State) : Host.Outcome State Fault Refusal :=
  match entryNamed s.lines[l] r dest with
  | none => .next s
  | some q => .next (if s.running && timerDue q.limitTimer then settle (endEntry s l q .expired) else s)

end Sys2Proof.Machine
end

