-- ==== Sys2Proof/Machine/LineRequests.lean ====
section
/-! DEFINITION. The requests of the counter lines: LINE_START, LINE_STOP by its two modes, LINE_STATUS (R39 to R42, R48). -/

namespace Sys2Proof.Machine

/-! ## Rules -/

/-- R40. -/
def lineStartRule (s : State) (sl : Slot) : State × Answer :=
  match sl.body with
  | [b] =>
    match lineOfByte b with
    | none => refuse s .badParameter
    | some l => if s.lines[l].state ≠ .stopped then refuse s .wrongState else done (setLineMark (startLine s l) l) []
  | _ => refuse s .badLength

/-- R32, R41: a header that is in progress on a hunting line, with its start edge, is a reception that began before the drain; the
line is not idle. -/
def Line.headerBegun (ln : Line) (header : Option Ms) : Line :=
  match header, ln.rx, ln.tx with
  | some edge, .hunting, none => { ln with rx := .completing edge false, idle := false }
  | _, _, _ => ln

/-- R39, R41: DRAIN, by the line's state. A drain already complete is taken at the end of the event (R41). -/
def drainState (s : State) (l : LineId) (header : Option Ms) : State :=
  match s.lines[l].state with
  | .active => setLineMark (s.modLine l fun ln => { ln.headerBegun header with state := .draining }) l
  | .stuck false => setLineMark (s.modLine l fun ln => { ln with state := .stuck true }) l
  | _ => s

/-- R42: FORCE; a STOPPED line is left as it stands (R41). -/
def forceState (s : State) (l : LineId) : State :=
  match s.lines[l].state with
  | .stopped => s
  | _ => enterStopped s l

/-- R41: the checks of LINE_STOP and its two modes. -/
def lineStopRule (header : Option Ms) (s : State) (sl : Slot) : State × Answer :=
  match sl.body with
  | [b, m] =>
    match lineOfByte b with
    | none => refuse s .badParameter
    | some l =>
      if m = 0 then done (drainState s l header) []
      else if m = 1 then done (forceState s l) []
      else refuse s .badParameter
  | _ => refuse s .badLength

/-- R203: a LINE_STOP of the mode. A body that names no mode is answered alike under either row (log 10). -/
def stopMode (m : Byte) (sl : Slot) : Bool :=
  sl.type == 0x09 && !(sl.body.length == 2 && byteAt sl.body 1 == m)

/-- R48: D and S: the line's own, or the working profile's for a STOPPED line. -/
def reportedTiming (s : State) (l : LineId) : Timing :=
  let items := s.profile.lines[l]
  match s.lines[l].state, s.lines[l].timing with
  | .stopped, _ => { d := items.d, s := items.s }
  | _, some t => t
  | _, none => { d := items.d, s := items.s }

/-- R48, R203. -/
def lineStatusFields (s : State) (l : LineId) : List Byte :=
  let ln := s.lines[l]
  let t := reportedTiming s l
  [ln.state.code, ln.state.rememberedCode, byteOf t.d, byteOf t.s, boolByte ln.idle]
    ++ count1 ln.control.length ++ count1 ln.pass.length ++ count1 ln.acks.length
    ++ count1 (ln.queued.countP fun q => q.awaiting)
    ++ (ln.counters.toList.map fun n => leBytes 2 n).flatten

/-- R48. -/
def lineStatusRule (s : State) (sl : Slot) : State × Answer :=
  match sl.body with
  | [b, o] =>
    match lineOfByte b with
    | none => refuse s .badParameter
    | some l =>
      if o = 0 then done s (lineStatusFields s l)
      else if o = 1 then done (countLine s l fun _ => zeroCounters) (lineStatusFields s l)
      else refuse s .badParameter
  | _ => refuse s .badLength

/-! ## Commands -/

/-- LINE_START (R40). -/
def execLineStart (s : State) : Host.Outcome State Fault Refusal := .next (handle s (ofType 0x08) lineStartRule settle)

/-- LINE_STOP_DRAIN (R41). -/
def execLineStopDrain (s : State) (header : Option Ms := none) : Host.Outcome State Fault Refusal :=
  .next (handle s (stopMode 1) (lineStopRule header) settle)

/-- LINE_STOP_FORCE (R42). -/
def execLineStopForce (s : State) : Host.Outcome State Fault Refusal := .next (handle s (stopMode 0) (lineStopRule none) settle)

/-- LINE_STATUS (R48). -/
def execLineStatus (s : State) : Host.Outcome State Fault Refusal := .next (handle s (ofType 0x0A) lineStatusRule settleLink)

end Sys2Proof.Machine
end

