-- ==== Sys2Proof/Machine/LinkCommands.lean ====
section
/-! DEFINITION. The events of the workstation link: received bytes, receiver faults, and the end of a sent record (R169 to R172,
R178, R182). An event that the receiver's state does not admit changes nothing (log 1). -/

namespace Sys2Proof.Machine

/-- RECORD_RECEIVED (R172): the byte that completes a well-formed record. -/
def execRecordReceived (c : LinkChar) (s : State) : Host.Outcome State Fault Refusal :=
  .next (if linkBrings s c .completes then settleLink (receiveChar10 s c) else s)

/-- RECORD_DAMAGED (R170): the byte at which a record is abandoned for its length or its check. -/
def execRecordDamaged (c : LinkChar) (s : State) : Host.Outcome State Fault Refusal :=
  .next (if linkBrings s c .abandons then settleLink (receiveChar10 s c) else s)

/-- LINK_BYTE_RECEIVED (R167, R169): a byte that neither completes nor abandons a record; a false start is ignored, but that it
shows the link at mark. -/
def execLinkByteReceived (c : LinkChar) (s : State) : Host.Outcome State Fault Refusal :=
  .next (if linkBrings s c .assembles then receiveChar10 s c
    else if s.linkSees c && linkFalseStart c then markSeen s
    else s)

/-- R167, R171: a framing error: the byte is discarded, a record in progress is abandoned, and the receiver waits for mark. -/
def framingEnds (s : State) : State := (abandonRecord s).modLink fun k => { k with awaitMark := true }

/-- LINK_FRAMING_ERROR (R167, R171). -/
def execLinkFramingError (s : State) (c : LinkChar := LinkChar.space) : Host.Outcome State Fault Refusal :=
  .next (if s.linkSees c && linkFramingBad c then framingEnds s else s)

/-- LINK_GAP_EXPIRY (R171): 10 ms without a start edge inside a record. -/
def execLinkGapExpiry (s : State) : Host.Outcome State Fault Refusal :=
  .next (if s.linkOn && !s.link.asm.isEmpty then abandonRecord s else s)

/-- R173: a slot becomes FREE and leaves the taking order. -/
def freeReplySlot (s : State) (i : SlotId) : State :=
  s.modLink fun k =>
    { k with slots := k.slots.set i { k.slots[i] with state := .free }, order := k.order.filter fun j => j != i }

/-- R182: the reply that ends is that of the pending RESTART. -/
def isRestartReply (k : Link) (i : SlotId) : Bool :=
  k.restartPending && k.slots[i].type == 0x03 && k.slots[i].status == .ok

/-- R178, R182: a record has been sent. -/
def recordSent (s : State) (t : LinkTx) : State :=
  let s1 := s.modLink fun k => { k with tx := none }
  match t.src with
  | .mark => settleLink s1
  | .notice r => settleLink (dropRef s1 r)
  | .reply i => if isRestartReply s.link i then restartNow s1 else settleLink (freeReplySlot s1 i)

/-- LINK_RECORD_SENT (R178): the end of the stop bit of a record's check byte. -/
def execLinkRecordSent (s : State) : Host.Outcome State Fault Refusal :=
  match s.link.tx with
  | none => .next s
  | some t => .next (if s.running then recordSent s t else s)

end Sys2Proof.Machine
end

