-- ==== Sys2Proof/Machine/PinCommands.lean ====
section
/-! DEFINITION. The events of the pins: POWER_ON, RESET, PAUSE (R106, R178, R195). -/

namespace Sys2Proof.Machine

/-- R195, R196: start-up begins, and its START notice may be begun in the event. -/
def beginStartUp (s : State) : State := settleLink (startUp s)

/-- POWER_ON (R195): a reset; start-up follows at once unless RESET is then asserted. -/
def execPowerOn (resetHeld : Bool) (straps : Straps) (s : State) : Host.Outcome State Fault Refusal :=
  let s1 := { doReset s .powerOn with resetPin := resetHeld, straps := straps }
  .next (if resetHeld then s1 else beginStartUp s1)

/-- RESET_ASSERTED (R195): the pin going asserted takes a reset, and the part stays in that state. -/
def execResetAsserted (s : State) : Host.Outcome State Fault Refusal :=
  .next (if s.resetPin then s else { doReset s .resetPin with resetPin := true })

/-- RESET_RELEASED (R195, R196): start-up begins. -/
def execResetReleased (straps : Straps) (s : State) : Host.Outcome State Fault Refusal :=
  .next (if s.resetPin then beginStartUp { s with resetPin := false, straps := straps } else s)

/-- PAUSE_ASSERTED (R106, R178): no new record is begun while it holds; a record being sent runs on. -/
def execPauseAsserted (s : State) : Host.Outcome State Fault Refusal := .next { s with pausePin := true }

/-- PAUSE_RELEASED (R106, R178): an occasion of choice of the link transmitter. -/
def execPauseReleased (s : State) : Host.Outcome State Fault Refusal :=
  let s1 := { s with pausePin := false }
  .next (if s.running then settleLink s1 else s1)

end Sys2Proof.Machine
end

