-- ==== Sys2Proof/Machine/ProfileRequests.lean ====
section
/-! DEFINITION. The Profile Store (chapter 10): the items of the working profile, PROFILE_SET, PROFILE_GET, PROFILE_COMMIT,
PROFILE_LOAD, and the two endings of a write (R184 to R194, R202). -/

namespace Sys2Proof.Machine

/-! ## Items (R184, R202) -/

/-- The items of R202, by code. -/
inductive Item where
  | lineEnabled | lineD | lineS | ackTimeout | queueLimit | grantTimeout | silenceLimit | lostLimit | reserve0 | reserve1
  | unitQuota | wsQuota | bulkAge | firstKey | interKey | pinGuard | readTimeout | takeTimeout | readOnInsert | wsSilence
  | closedText | writeLimit | pin
  deriving DecidableEq, Repr

/-- The items in the order of R184, which is the order of their codes. -/
def allItems : List Item :=
  [.lineEnabled, .lineD, .lineS, .ackTimeout, .queueLimit, .grantTimeout, .silenceLimit, .lostLimit, .reserve0, .reserve1,
   .unitQuota, .wsQuota, .bulkAge, .firstKey, .interKey, .pinGuard, .readTimeout, .takeTimeout, .readOnInsert, .wsSilence,
   .closedText, .writeLimit, .pin]

/-- R202: the item code. -/
def Item.code : Item → Byte
  | .lineEnabled => 0x01 | .lineD => 0x02 | .lineS => 0x03 | .ackTimeout => 0x04 | .queueLimit => 0x05
  | .grantTimeout => 0x06 | .silenceLimit => 0x07 | .lostLimit => 0x08 | .reserve0 => 0x09 | .reserve1 => 0x0A
  | .unitQuota => 0x0B | .wsQuota => 0x0C | .bulkAge => 0x0D | .firstKey => 0x0E | .interKey => 0x0F | .pinGuard => 0x10
  | .readTimeout => 0x11 | .takeTimeout => 0x12 | .readOnInsert => 0x13 | .wsSilence => 0x14 | .closedText => 0x15
  | .writeLimit => 0x16 | .pin => 0x17

def Item.ofCode (b : Byte) : Option Item := allItems.find? fun it => it.code == b

/-- R202: the size of an item's value. -/
def Item.size : Item → Nat
  | .queueLimit | .grantTimeout | .lostLimit | .bulkAge => 2
  | .closedText => 16
  | .pin => 7
  | _ => 1

/-- R202: what the index byte of an item names. -/
inductive IndexKind where
  | none | line | pin
  deriving DecidableEq, Repr

def Item.indexKind : Item → IndexKind
  | .lineEnabled | .lineD | .lineS => .line
  | .pin => .pin
  | _ => .none

/-- The range of a numeric item (R184); `none` for the items that R186's last check judges, and the read-on-insert bitmap. -/
def Item.range : Item → Option (Nat × Nat)
  | .lineD => some (1, 255)
  | .lineS => some (12, 20)
  | .ackTimeout => some (10, 250)
  | .queueLimit => some (100, 10000)
  | .grantTimeout => some (50, 1000)
  | .silenceLimit => some (1, 30)
  | .lostLimit => some (5, 300)
  | .reserve0 | .reserve1 => some (0, 64)
  | .unitQuota => some (16, 128)
  | .wsQuota => some (16, 160)
  | .bulkAge => some (100, 5000)
  | .firstKey => some (1, 120)
  | .interKey => some (1, 60)
  | .pinGuard => some (0, 10)
  | .readTimeout => some (1, 20)
  | .takeTimeout => some (5, 120)
  | .wsSilence => some (0, 60)
  | .lineEnabled | .readOnInsert | .closedText | .writeLimit | .pin => none

/-- A number brought to the nearer end of a range (R187). -/
def clampTo (lo hi n : Nat) : Nat := max lo (min hi n)

/-- The place of an item's value: a line for a line item, a pin for a pin, else nothing. -/
inductive Place where
  | whole
  | line (l : LineId)
  | pin (k : Fin 16)
  deriving DecidableEq, Repr

/-- R186, R202: the place that the index byte names. -/
def placeOf (it : Item) (b : Byte) : Option Place :=
  match it.indexKind with
  | .none => some .whole
  | .line => (lineOfByte b).map .line
  | .pin => if h : 1 ≤ b.toNat ∧ b.toNat ≤ 16 then some (.pin ⟨b.toNat - 1, by omega⟩) else none

/-- The index byte of a place. -/
def Place.index : Place → Byte
  | .whole => 0
  | .line l => lineByte l
  | .pin k => byteOf (k.val + 1)

/-- The places of an item, in ascending order. -/
def Item.places (it : Item) : List Place :=
  match it.indexKind with
  | .none => [.whole]
  | .line => allLines.map .line
  | .pin => (List.finRange 16).map .pin

/-! ## Reading (R188) -/

/-- The items of the line of a place. -/
def Profile.lineAt (p : Profile) : Place → LineItems
  | .line l => p.lines[l]
  | _ => p.lines[0]

/-- R202: the value bytes of a pin; an empty one is sent as 0. -/
def pinBytes : Option (Identity × Pos) → List Byte
  | some (i, p) => identityBytes i ++ [posByte (some p)]
  | none => List.replicate 7 0

/-- R202: the value of an item at its place. -/
def itemBytes (p : Profile) (it : Item) (pl : Place) : List Byte :=
  match it with
  | .lineEnabled => [boolByte (p.lineAt pl).enabled]
  | .lineD => [byteOf (p.lineAt pl).d]
  | .lineS => [byteOf (p.lineAt pl).s]
  | .ackTimeout => [byteOf p.ackTimeout]
  | .queueLimit => leBytes 2 p.queueLimit
  | .grantTimeout => leBytes 2 p.grantTimeout
  | .silenceLimit => [byteOf p.silenceLimit]
  | .lostLimit => leBytes 2 p.lostLimit
  | .reserve0 => [byteOf p.reserve0]
  | .reserve1 => [byteOf p.reserve1]
  | .unitQuota => [byteOf p.unitQuota]
  | .wsQuota => [byteOf p.wsQuota]
  | .bulkAge => leBytes 2 p.bulkAge
  | .firstKey => [byteOf p.firstKey]
  | .interKey => [byteOf p.interKey]
  | .pinGuard => [byteOf p.pinGuard]
  | .readTimeout => [byteOf p.readTimeout]
  | .takeTimeout => [byteOf p.takeTimeout]
  | .readOnInsert => [p.readOnInsert]
  | .wsSilence => [byteOf p.wsSilence]
  | .closedText => p.closedText
  | .writeLimit => [byteOf p.writeLimit]
  | .pin => match pl with
    | .pin k => pinBytes p.pins[k]
    | _ => []

/-- R202: an item with its code, index and value. -/
def itemReport (p : Profile) (it : Item) (pl : Place) : List Byte := it.code :: pl.index :: itemBytes p it pl

/-- R188, R203: every value in the order of R184, line items by line and pins by k (log 18). -/
def wholeProfile (p : Profile) : List Byte :=
  (allItems.flatMap fun it => it.places.map fun pl => itemBytes p it pl).flatten

/-! ## Writing (R186, R187) -/

/-- Change the items of the line of a place. -/
def Profile.modLineItems (p : Profile) (pl : Place) (f : LineItems → LineItems) : Profile :=
  match pl with
  | .line l => { p with lines := p.lines.set l (f p.lines[l]) }
  | _ => p

/-- Write a number into a numeric item at its place. -/
def setNumber (p : Profile) (it : Item) (pl : Place) (n : Nat) : Profile :=
  match it with
  | .lineD => p.modLineItems pl fun x => { x with d := n }
  | .lineS => p.modLineItems pl fun x => { x with s := n }
  | .ackTimeout => { p with ackTimeout := n }
  | .queueLimit => { p with queueLimit := n }
  | .grantTimeout => { p with grantTimeout := n }
  | .silenceLimit => { p with silenceLimit := n }
  | .lostLimit => { p with lostLimit := n }
  | .reserve0 => { p with reserve0 := n }
  | .reserve1 => { p with reserve1 := n }
  | .unitQuota => { p with unitQuota := n }
  | .wsQuota => { p with wsQuota := n }
  | .bulkAge => { p with bulkAge := n }
  | .firstKey => { p with firstKey := n }
  | .interKey => { p with interKey := n }
  | .pinGuard => { p with pinGuard := n }
  | .readTimeout => { p with readTimeout := n }
  | .takeTimeout => { p with takeTimeout := n }
  | .wsSilence => { p with wsSilence := n }
  | .lineEnabled | .readOnInsert | .closedText | .writeLimit | .pin => p

/-- R187: the value that a numeric item takes: its range, and for the lost limit the silence limit in force plus 1 s. -/
def takenNumber (p : Profile) (it : Item) (lo hi n : Nat) : Nat :=
  match it with
  | .lostLimit => max (p.silenceLimit + 1) (clampTo lo hi n)
  | _ => clampTo lo hi n

/-- R187: a silence limit that leaves the lost limit below it plus 1 s raises the lost limit. -/
def raisesLost (p : Profile) (it : Item) (n : Nat) : Bool :=
  match it with
  | .silenceLimit => decide (p.lostLimit < n + 1)
  | _ => false

/-- What a write leaves: the profile, whether a value was brought within its range, and whether R187 changed the lost limit. -/
structure Written where
  profile : Profile
  clamped : Bool
  second : Bool
  deriving DecidableEq, Repr

/-- R187: write a numeric item. -/
def writeNumber (p : Profile) (it : Item) (pl : Place) (lo hi n : Nat) : Written :=
  let v := takenNumber p it lo hi n
  let q := setNumber p it pl v
  let up := raisesLost p it v
  { profile := if up then { q with lostLimit := v + 1 } else q, clamped := decide (v ≠ n) || up, second := up }

/-- R186: each closed-text character is 0x20 to 0x7E. -/
def textOk (t : List Byte) : Bool := t.all fun b => decide (0x20 ≤ b.toNat ∧ b.toNat ≤ 0x7E)

/-- R186: a pin's value: position 0 empties it, 1 to 8 sets it, others are refused. -/
def parsePin (v : List Byte) : Option (Option (Identity × Pos)) :=
  if byteAt v 6 = 0 then some none else (posOfByte (byteAt v 6)).map fun p => some (identityAt v 0, p)

/-- A write that brings no value within its range. -/
def plainWrite (p : Profile) : Option Written := some { profile := p, clamped := false, second := false }

/-- R186, last check, and R187: the write of a value; `none` is BAD_PARAMETER. -/
def writeItem (p : Profile) (it : Item) (pl : Place) (v : List Byte) : Option Written :=
  match it.range with
  | some (lo, hi) => some (writeNumber p it pl lo hi (leNat v))
  | none =>
    match it with
    | .lineEnabled =>
      if (byteAt v 0).toNat ≤ 1 then plainWrite (p.modLineItems pl fun x => { x with enabled := byteAt v 0 == 1 }) else none
    | .readOnInsert => plainWrite { p with readOnInsert := byteAt v 0 }
    | .closedText => if textOk v then plainWrite { p with closedText := v } else none
    | .writeLimit => if (byteAt v 0).toNat ≤ 3 then plainWrite { p with writeLimit := (byteAt v 0).toNat } else none
    | .pin =>
      match parsePin v, pl with
      | some x, .pin k => plainWrite { p with pins := p.pins.set k x }
      | _, _ => none
    | _ => none

/-- R24, R186: a line item is written only while its line is STOPPED. -/
def placeFree (s : State) : Place → Bool
  | .line l => s.lineStopped l
  | _ => true

/-- R186: the reply fields: the item taken, and the lost limit when R187 changed it. -/
def setFields (w : Written) (it : Item) (pl : Place) : List Byte :=
  itemReport w.profile it pl ++ if w.second then itemReport w.profile .lostLimit .whole else []

/-- R186, R187. -/
def profileSetRule (s : State) (sl : Slot) : State × Answer :=
  match sl.body with
  | [] => refuse s .badLength
  | c :: _ =>
    match Item.ofCode c with
    | none => refuse s .badParameter
    | some it =>
      if sl.body.length ≠ 2 + it.size then refuse s .badLength
      else match placeOf it (byteAt sl.body 1) with
        | none => refuse s .badParameter
        | some pl =>
          if !placeFree s pl then refuse s .wrongState
          else match writeItem s.profile it pl (sl.body.drop 2) with
            | none => refuse s .badParameter
            | some w => doneClamped { s with profile := w.profile } w.clamped (setFields w it pl)

/-- R188. -/
def profileGetRule (s : State) (sl : Slot) : State × Answer :=
  match sl.body with
  | [] => done s (wholeProfile s.profile)
  | [c, i] =>
    match Item.ofCode c with
    | none => refuse s .badParameter
    | some it =>
      match placeOf it i with
      | none => refuse s .badParameter
      | some pl => done s (itemReport s.profile it pl)
  | _ => refuse s .badLength

/-! ## The store (R189 to R194) -/

/-- R191: the write of a commit's current unit and attempt begins, under a number that no write before it had (log 42). -/
def beginWrite (st : Store) (c : Commit) : Store :=
  { st with commit := some { c with write := st.begun + 1 }, begun := st.begun + 1 }

/-- R190: an accepted commit: its snapshot, its first write begun, the store INCOMPLETE. -/
def beginCommit (s : State) (promise : RecId) : State :=
  { s with
    store := beginWrite { s.store with state := .incomplete }
      { snapshot := s.profile, limit := s.profile.writeLimit, unit := 0, attempt := 1, rewrites := 0, promise := promise
        acceptedAt := s.now, write := 0 } }

/-- R190. -/
def profileCommitRule (s : State) (sl : Slot) : State × Answer :=
  if s.store.commit.isSome then refuse s .storeBusy
  else match reserve s .commitDone sl.tag with
    | (s1, none) => refuse s1 .poolFull
    | (s1, some r) => done (beginCommit s1 r) []

/-- R192, R201: the stored body of a COMMIT_DONE; outcome 0 is OK, 1 FAILED. -/
def commitDoneBody (s : State) (c : Commit) (failed : Bool) : List Byte :=
  [boolByte failed, if failed then byteOf c.unit.val else 0, byteOf c.rewrites] ++ count2 (elapsed s.now c.acceptedAt)
    ++ [s.store.state.code]

/-- R192: a commit ends. -/
def commitEnds (s : State) (c : Commit) (failed : Bool) : State :=
  let s1 := completePromise s c.promise .commitDone 0 none (commitDoneBody s c failed)
  { s1 with store := { s1.store with commit := none } }

/-- R191: block k, for units 1 to 8, holds its part of the snapshot once its write has verified. -/
def writeBlock (st : Store) (c : Commit) : Store :=
  if h : 1 ≤ c.unit.val ∧ c.unit.val ≤ 8 then
    { st with blocks := st.blocks.set (c.unit.val - 1) c.snapshot (by omega) }
  else st

/-- R191: the current write verifies. -/
def writeVerified (s : State) (c : Commit) : State :=
  let st := writeBlock s.store c
  if h : c.unit.val < 9 then
    { s with store := beginWrite st { c with unit := ⟨c.unit.val + 1, by omega⟩, attempt := 1 } }
  else commitEnds { s with store := { st with state := .complete } } c false

/-- R191: the current write reaches its limit. -/
def writeFailed (s : State) (c : Commit) : State :=
  if c.attempt ≤ 1 then
    { s with store := beginWrite s.store { c with attempt := 2, rewrites := c.rewrites + 1 } }
  else commitEnds s c true

/-- R194. -/
def profileLoadRule (s : State) : State × Answer :=
  if s.store.commit.isSome then refuse s .storeBusy
  else if s.store.state ≠ .complete then refuse s .wrongState
  else done { s with profile := storedProfile s.store, hits := Vector.replicate 16 0 } []

/-! ## Commands -/

/-- PROFILE_SET (R186, R187). -/
def execProfileSet (s : State) : Host.Outcome State Fault Refusal := .next (handle s (ofType 0x30) profileSetRule settleLink)

/-- PROFILE_GET (R188). -/
def execProfileGet (s : State) : Host.Outcome State Fault Refusal := .next (handle s (ofType 0x31) profileGetRule settleLink)

/-- PROFILE_COMMIT (R190). -/
def execProfileCommit (s : State) : Host.Outcome State Fault Refusal :=
  .next (handle s (ofType 0x32) (fun t sl => if sl.body.isEmpty then profileCommitRule t sl else refuse t .badLength) settleLink)

/-- PROFILE_LOAD (R194). -/
def execProfileLoad (s : State) : Host.Outcome State Fault Refusal :=
  .next (handle s (ofType 0x33) (emptyBody profileLoadRule) settleLink)

/-- R191: an event of the write with this number, which takes place only while that write is in progress: a verify that completes
after the write has failed has no effect, and a write that has verified does not reach its limit. -/
def writeEvent (s : State) (write : Nat) (rule : State → Commit → State) : State :=
  match s.store.commit with
  | some c => if s.running && write == c.write then settleLink (rule s c) else s
  | none => s

/-- VERIFY_PASSES (R191). -/
def execVerifyPasses (s : State) (write : Nat := 0) : Host.Outcome State Fault Refusal := .next (writeEvent s write writeVerified)

/-- WRITE_LIMIT_REACHED (R191). -/
def execWriteLimitReached (s : State) (write : Nat := 0) : Host.Outcome State Fault Refusal := .next (writeEvent s write writeFailed)

end Sys2Proof.Machine
end

