-- ==== Sys2Proof/Machine/TimerCommands.lean ====
section
/-! DEFINITION. The timers of the Directory, the contexts and the attendance: their expiries (R80, R82, R124, R131, R133, R143,
R147, R163), and the millisecond boundary (R155, R159). An expiry takes place only when its timer is due (log 1). -/

namespace Sys2Proof.Machine

/-! ## Unit Directory -/

/-- GRANT_TIMER_EXPIRY (R80). -/
def execGrantTimerExpiry (e : EntryId) (s : State) : Host.Outcome State Fault Refusal :=
  .next (if s.running && (s.dir[e].state == .pending && timerDue s.dir[e].grantTimer) then settle (grantExpires s e) else s)

/-- R82: an ACTIVE entry becomes SILENT; its lost timer runs on. -/
def entrySilent (s : State) (e : EntryId) : State :=
  setDirMark (s.modDir e fun d => { d with state := .silent, silenceTimer := none }) e

/-- SILENCE_TIMER_EXPIRY (R82). -/
def execSilenceTimerExpiry (e : EntryId) (s : State) : Host.Outcome State Fault Refusal :=
  .next (if s.running && (s.dir[e].state == .active && timerDue s.dir[e].silenceTimer) then settle (entrySilent s e) else s)

/-- LOST_TIMER_EXPIRY (R82). -/
def execLostTimerExpiry (e : EntryId) (s : State) : Host.Outcome State Fault Refusal :=
  .next (if s.running && (s.dir[e].state == .silent && timerDue s.dir[e].lostTimer) then settle (entryLost s e) else s)

/-! ## Entry contexts -/

/-- R124: a session ends TIMED_OUT. -/
def sessionTimesOut (s : State) (p : Pos) (c : Cause) : State :=
  match s.entry[p].sess with
  | none => s
  | some ss => endSession s p ss .timedOut c .none

/-- The timer of a context's session, stopped when there is no session. -/
def sessionTimer (c : EntryCtx) (f : Session → Timer) : Timer :=
  match c.sess with
  | none => none
  | some ss => f ss

/-- FIRST_KEY_TIMEOUT (R124). -/
def execFirstKeyTimeout (p : Pos) (s : State) : Host.Outcome State Fault Refusal :=
  .next (if s.running && timerDue (sessionTimer s.entry[p] Session.firstTimer) then settle (sessionTimesOut s p .firstKey) else s)

/-- INTER_KEY_TIMEOUT (R124). -/
def execInterKeyTimeout (p : Pos) (s : State) : Host.Outcome State Fault Refusal :=
  .next (if s.running && timerDue (sessionTimer s.entry[p] Session.interTimer) then settle (sessionTimesOut s p .interKey) else s)

/-- PIN_GUARD_EXPIRY (R131). -/
def execPinGuardExpiry (p : Pos) (s : State) : Host.Outcome State Fault Refusal :=
  .next (if s.running && timerDue s.entry[p].guardTimer then s.modEntry p fun c => { c with guardTimer := none } else s)

/-- DISPLAY_RETRY_EXPIRY (R133). -/
def execDisplayRetryExpiry (p : Pos) (s : State) : Host.Outcome State Fault Refusal :=
  .next (if s.running && timerDue s.entry[p].retryTimer then settle (displayRetry s p) else s)

/-! ## Card contexts -/

/-- R143: a read ends TIMED_OUT: READ with a track held, else PRESENT. -/
def readTimesOut (s : State) (p : Pos) : State :=
  cardTo (readEnd s p .timedOut .readTimedOut 0) p (if (heldRecords s.card[p]).isEmpty then .present else .read) .readTimedOut

/-- READ_TIMER_EXPIRY (R143). -/
def execReadTimerExpiry (p : Pos) (s : State) : Host.Outcome State Fault Refusal :=
  .next (if s.running && timerDue s.card[p].readTimer then settle (readTimesOut s p) else s)

/-- TAKE_TIMER_EXPIRY (R147). -/
def execTakeTimerExpiry (p : Pos) (s : State) : Host.Outcome State Fault Refusal :=
  .next (if s.running && timerDue s.card[p].takeTimer then settle (ownCommand s p .retain .retaining .takeTimeout) else s)

/-- MOVEMENT_TIMER_EXPIRY (R147). -/
def execMovementTimerExpiry (p : Pos) (s : State) : Host.Outcome State Fault Refusal :=
  .next (if s.running && timerDue s.card[p].moveTimer then settle (cardTo s p .fault .movementTimeout) else s)

/-! ## Attendance (R162, R163) -/

/-- R163, step 2: an IDLE context with display pending set wants the closed text. -/
def closeStaleDisplay (s : State) (p : Pos) : State :=
  if s.entry[p].sess.isNone && s.entry[p].dispPending then
    s.modEntry p fun c => { c with wanted := { line1 := s.profile.closedText, line2 := s.profile.closedText } }
  else s

/-- R163, step 4: the general-call DISPLAY of an ACTIVE line. -/
def offerClosedText (s : State) (l : LineId) : State :=
  if s.lines[l].state == .active then
    (offerControl s l .display 15 none .timeBase
      (displayBody { line1 := s.profile.closedText, line2 := s.profile.closedText } .none)).1
  else s

/-- R163: the part becomes UNATTENDED. -/
def becomeUnattended (s : State) : State :=
  let s1 := setAttendance s false
  let s2 := allPos.foldl (fun t p => abortSession t p .unattended) s1
  let s3 := allPos.foldl closeStaleDisplay s2
  let s4 := allPos.foldl cardUnattended s3
  allLines.foldl offerClosedText s4

/-- R162, R163: the attendance timer expires; with the item at 0 the expiry has no effect. -/
def attendanceExpires (s : State) : State :=
  let s1 := { s with time := { s.time with timer := none } }
  if s.profile.wsSilence = 0 then s1 else becomeUnattended s1

/-- ATTENDANCE_TIMER_EXPIRY (R163). -/
def execAttendanceTimerExpiry (s : State) : Host.Outcome State Fault Refusal :=
  .next (if s.running && timerDue s.time.timer then settle (attendanceExpires s) else s)

/-! ## The millisecond boundary (R155, R159) -/

def QEntry.tick (q : QEntry) : QEntry := { q with ackTimer := tickTimer q.ackTimer, limitTimer := tickTimer q.limitTimer }

def Line.tick (ln : Line) : Line := { ln with control := ln.control.map QEntry.tick, pass := ln.pass.map QEntry.tick }

def DirEntry.tick (d : DirEntry) : DirEntry :=
  { d with grantTimer := tickTimer d.grantTimer, silenceTimer := tickTimer d.silenceTimer, lostTimer := tickTimer d.lostTimer }

def EntryCtx.tick (c : EntryCtx) : EntryCtx :=
  { c with
    sess := c.sess.map fun ss => { ss with firstTimer := tickTimer ss.firstTimer, interTimer := tickTimer ss.interTimer }
    retryTimer := tickTimer c.retryTimer
    guardTimer := tickTimer c.guardTimer }

def CardCtx.tick (c : CardCtx) : CardCtx :=
  { c with readTimer := tickTimer c.readTimer, takeTimer := tickTimer c.takeTimer, moveTimer := tickTimer c.moveTimer }

def TimeBase.tick (t : TimeBase) : TimeBase := { t with mono := t.mono + 1, timer := tickTimer t.timer }

/-- R155, R159: one boundary passes: the monotonic count rises by 1 and every running timer comes one boundary nearer. -/
def tickState (s : State) : State :=
  { s with
    time := s.time.tick
    lines := s.lines.map Line.tick
    dir := s.dir.map DirEntry.tick
    entry := s.entry.map EntryCtx.tick
    card := s.card.map CardCtx.tick }

def dueCommand (t : Timer) (c : Instr) : List Instr := if timerDue t then [c] else []

def dueOfLine (s : State) (l : LineId) : List Instr :=
  s.lines[l].queued.flatMap fun q =>
    dueCommand q.ackTimer (.ackTimeout l q.dest) ++ dueCommand q.limitTimer (.queueLimitExpiry l q.record q.dest)

def dueOfEntry (s : State) (e : EntryId) : List Instr :=
  dueCommand s.dir[e].grantTimer (.grantTimerExpiry e) ++ dueCommand s.dir[e].silenceTimer (.silenceTimerExpiry e)
    ++ dueCommand s.dir[e].lostTimer (.lostTimerExpiry e)

def dueOfPos (s : State) (p : Pos) : List Instr :=
  dueCommand (sessionTimer s.entry[p] Session.firstTimer) (.firstKeyTimeout p)
    ++ dueCommand (sessionTimer s.entry[p] Session.interTimer) (.interKeyTimeout p)
    ++ dueCommand s.entry[p].guardTimer (.pinGuardExpiry p) ++ dueCommand s.entry[p].retryTimer (.displayRetryExpiry p)
    ++ dueCommand s.card[p].readTimer (.readTimerExpiry p) ++ dueCommand s.card[p].takeTimer (.takeTimerExpiry p)
    ++ dueCommand s.card[p].moveTimer (.movementTimerExpiry p)

/-- R159: the expiries that are due. -/
def dueExpiries (s : State) : List Instr :=
  allLines.flatMap (dueOfLine s) ++ allEntries.flatMap (dueOfEntry s) ++ allPos.flatMap (dueOfPos s)
    ++ dueCommand s.time.timer .attendanceTimerExpiry

/-- R159: put coincident expiries in the order of the free choices from the n-th on; `fuel` bounds the picks (log 3). -/
def arrange : Nat → Nat → List Instr → List Instr
  | 0, _, cs => cs
  | _ + 1, _, [] => []
  | _ + 1, _, [c] => [c]
  | fuel + 1, n, c :: d :: cs =>
    let k := Config.freeOrder n % (cs.length + 2)
    (c :: d :: cs).getD k c :: arrange fuel (n + 1) ((c :: d :: cs).eraseIdx k)

/-- A millisecond boundary of a running part: the expiries that fall due join the queue as commands (log 2). -/
def boundary (s : State) : State :=
  let s1 := tickState s
  let cs := dueExpiries s1
  { s1 with pending := arrange cs.length s.oracle cs, oracle := s.oracle + cs.length }

end Sys2Proof.Machine
end

