-- ==== Sys2Proof/Machine/UnitRequests.lean ====
section
/-! DEFINITION. The requests of the Unit Directory: UNIT_LIST, UNIT_INFO, UNIT_BIND, UNIT_UNBIND, UNIT_FORGET (R85 to R88). -/

namespace Sys2Proof.Machine

/-! ## Rules -/

/-- R202: the flags of a unit item: bit 0 pinned, bit 1 condition FAULT, bit 2 established. -/
def unitFlags (d : DirEntry) : Byte :=
  byteOf (d.pinned.toNat + 2 * (decide (d.condition = .fault)).toNat + 4 * d.established.toNat)

/-- R85, R202: a unit item. -/
def unitItem (s : State) (e : EntryId) : List Byte :=
  let d := s.dir[e]
  byteOf e.val :: identityBytes d.identity
    ++ [d.kind.code, d.state.code, lineByte d.line, addrByte d.addr, posByte d.pos, unitFlags d]
    ++ count1 (s.pool.unitHeld e) ++ count1 (elapsed s.now d.lastHeard / 1000)

/-- R85. -/
def unitListFields (s : State) : List Byte := (allEntries.map (unitItem s)).flatten

/-- R203: whether a timer runs, and the milliseconds left. -/
def timerFields (t : Timer) : List Byte := boolByte t.isSome :: leBytes 4 (timerLeft t)

/-- R203: the inbound bit, 2 for absent. -/
def inBitByte : Option Bool → Byte
  | none => 2
  | some b => boolByte b

/-- R85, R203. -/
def unitInfoFields (s : State) (e : EntryId) : List Byte :=
  let d := s.dir[e]
  unitItem s e ++ [byteOf d.grantAttempts, boolByte d.outBit, inBitByte d.inBit] ++ count2 (elapsed s.now d.lastHeard)
    ++ timerFields d.grantTimer ++ timerFields d.silenceTimer ++ timerFields d.lostTimer

/-- R86, steps 1 to 4. -/
def bindUnit (s : State) (e : EntryId) (p : Pos) : State :=
  let old := s.dir[e].pos
  let s1 := if old.isSome then endUnitSessions (unbindEntry s e) s.dir[e].kind old .unbound else s
  setDirMark (bindEntry s1 e p false) e

/-- R86. -/
def unitBindRule (s : State) (sl : Slot) : State × Answer :=
  if sl.body.length ≠ 7 then refuse s .badLength
  else match posOfByte (byteAt sl.body 6) with
    | none => refuse s .badParameter
    | some p =>
      match holderOf s (identityAt sl.body 0) with
      | none => refuse s .noSuchUnit
      | some e =>
        match slotOf s s.dir[e].kind p with
        | some o => if o = e then done s [] else refuse s .slotTaken
        | none => done (bindUnit s e p) []

/-- R87. -/
def unitUnbindRule (s : State) (e : EntryId) : State × Answer :=
  match s.dir[e].pos with
  | none => done s []
  | some p => done (setDirMark (endUnitSessions (unbindEntry s e) s.dir[e].kind (some p) .unbound) e) []

/-- R88. -/
def unitForgetRule (s : State) (e : EntryId) : State × Answer :=
  let s1 := if s.dir[e].addr.isSome then releaseAddress s e else s
  let s2 :=
    if s1.dir[e].pos.isSome then unbindEntry (endUnitSessions s1 s1.dir[e].kind s1.dir[e].pos .unbound) e else s1
  done (setDirMark (s2.modDir e fun d => { d with state := .free, pinned := false, established := false }) e) []

/-! ## Commands -/

/-- UNIT_LIST (R85). -/
def execUnitList (s : State) : Host.Outcome State Fault Refusal :=
  .next (handle s (ofType 0x10) (emptyBody fun t => done t (unitListFields t)) settleLink)

/-- UNIT_INFO (R85). -/
def execUnitInfo (s : State) : Host.Outcome State Fault Refusal :=
  .next (handle s (ofType 0x11) (identityBody fun t e => done t (unitInfoFields t e)) settleLink)

/-- UNIT_BIND (R86). -/
def execUnitBind (s : State) : Host.Outcome State Fault Refusal := .next (handle s (ofType 0x12) unitBindRule settle)

/-- UNIT_UNBIND (R87). -/
def execUnitUnbind (s : State) : Host.Outcome State Fault Refusal :=
  .next (handle s (ofType 0x13) (identityBody unitUnbindRule) settle)

/-- UNIT_FORGET (R88). -/
def execUnitForget (s : State) : Host.Outcome State Fault Refusal :=
  .next (handle s (ofType 0x14) (identityBody unitForgetRule) settle)

end Sys2Proof.Machine
end

