-- ==== Sys2Proof/Machine/Dispatch.lean ====
section
/-! DEFINITION. The effect of each command: one arm per row of spec/opcode_table.json. -/

namespace Sys2Proof.Machine

/-- The effect of a command on everything but the queue. -/
def exec (i : Instr) (s : State) : Host.Outcome State Fault Refusal :=
  match i with
  | .powerOn resetHeld straps => Sys2Proof.Machine.execPowerOn resetHeld straps s
  | .resetAsserted => Sys2Proof.Machine.execResetAsserted s
  | .resetReleased straps => Sys2Proof.Machine.execResetReleased straps s
  | .pauseAsserted => Sys2Proof.Machine.execPauseAsserted s
  | .pauseReleased => Sys2Proof.Machine.execPauseReleased s
  | .recordReceived c => Sys2Proof.Machine.execRecordReceived c s
  | .recordDamaged c => Sys2Proof.Machine.execRecordDamaged c s
  | .linkFramingError c => Sys2Proof.Machine.execLinkFramingError s c
  | .linkGapExpiry => Sys2Proof.Machine.execLinkGapExpiry s
  | .linkRecordSent => Sys2Proof.Machine.execLinkRecordSent s
  | .unknownRequest => Sys2Proof.Machine.execUnknownRequest s
  | .identify => Sys2Proof.Machine.execIdentify s
  | .deviceStatus => Sys2Proof.Machine.execDeviceStatus s
  | .restart => Sys2Proof.Machine.execRestart s
  | .timeSet => Sys2Proof.Machine.execTimeSet s
  | .timeGet => Sys2Proof.Machine.execTimeGet s
  | .lineStart => Sys2Proof.Machine.execLineStart s
  | .lineStopDrain header => Sys2Proof.Machine.execLineStopDrain s header
  | .lineStopForce => Sys2Proof.Machine.execLineStopForce s
  | .lineStatus => Sys2Proof.Machine.execLineStatus s
  | .poolStatus => Sys2Proof.Machine.execPoolStatus s
  | .unitList => Sys2Proof.Machine.execUnitList s
  | .unitInfo => Sys2Proof.Machine.execUnitInfo s
  | .unitBind => Sys2Proof.Machine.execUnitBind s
  | .unitUnbind => Sys2Proof.Machine.execUnitUnbind s
  | .unitForget => Sys2Proof.Machine.execUnitForget s
  | .screenSet => Sys2Proof.Machine.execScreenSet s
  | .screenGet => Sys2Proof.Machine.execScreenGet s
  | .unitSend => Sys2Proof.Machine.execUnitSend s
  | .entryOpen => Sys2Proof.Machine.execEntryOpen s
  | .entryCancel => Sys2Proof.Machine.execEntryCancel s
  | .entryStatus => Sys2Proof.Machine.execEntryStatus s
  | .cardRead => Sys2Proof.Machine.execCardRead s
  | .cardResend => Sys2Proof.Machine.execCardResend s
  | .cardEject => Sys2Proof.Machine.execCardEject s
  | .cardRetain => Sys2Proof.Machine.execCardRetain s
  | .cardStatus => Sys2Proof.Machine.execCardStatus s
  | .profileSet => Sys2Proof.Machine.execProfileSet s
  | .profileGet => Sys2Proof.Machine.execProfileGet s
  | .profileCommit => Sys2Proof.Machine.execProfileCommit s
  | .profileLoad => Sys2Proof.Machine.execProfileLoad s
  | .verifyPasses write => Sys2Proof.Machine.execVerifyPasses s write
  | .writeLimitReached write => Sys2Proof.Machine.execWriteLimitReached s write
  | .characterReceived line edge raw moment => Sys2Proof.Machine.execCharacterReceived line edge raw s moment
  | .falseStart line start => Sys2Proof.Machine.execFalseStart line start s
  | .framingError line raw => Sys2Proof.Machine.execFramingError line raw s
  | .lengthCharacter line raw => Sys2Proof.Machine.execLengthCharacter line raw s
  | .oversizeAbandonEnd line => Sys2Proof.Machine.execOversizeAbandonEnd line s
  | .characterGapExpiry line => Sys2Proof.Machine.execCharacterGapExpiry line s
  | .unitEventDataFrame line raw => Sys2Proof.Machine.execUnitEventDataFrame line raw s
  | .hello line raw => Sys2Proof.Machine.execHello line raw s
  | .unitStatus line raw => Sys2Proof.Machine.execUnitStatus line raw s
  | .unitAck line raw => Sys2Proof.Machine.execUnitAck line raw s
  | .lineIdle line => Sys2Proof.Machine.execLineIdle line s
  | .lineStuck line => Sys2Proof.Machine.execLineStuck line s
  | .lostArbitration line bit => Sys2Proof.Machine.execLostArbitration line bit s
  | .bitError line chr bit => Sys2Proof.Machine.execBitError line chr bit s
  | .frameTransmitted line => Sys2Proof.Machine.execFrameTransmitted line s
  | .ackTimeout line dest => Sys2Proof.Machine.execAckTimeout line dest s
  | .queueLimitExpiry line record dest => Sys2Proof.Machine.execQueueLimitExpiry line record dest s
  | .grantTimerExpiry e => Sys2Proof.Machine.execGrantTimerExpiry e s
  | .silenceTimerExpiry e => Sys2Proof.Machine.execSilenceTimerExpiry e s
  | .lostTimerExpiry e => Sys2Proof.Machine.execLostTimerExpiry e s
  | .firstKeyTimeout p => Sys2Proof.Machine.execFirstKeyTimeout p s
  | .interKeyTimeout p => Sys2Proof.Machine.execInterKeyTimeout p s
  | .pinGuardExpiry p => Sys2Proof.Machine.execPinGuardExpiry p s
  | .displayRetryExpiry p => Sys2Proof.Machine.execDisplayRetryExpiry p s
  | .readTimerExpiry p => Sys2Proof.Machine.execReadTimerExpiry p s
  | .takeTimerExpiry p => Sys2Proof.Machine.execTakeTimerExpiry p s
  | .movementTimerExpiry p => Sys2Proof.Machine.execMovementTimerExpiry p s
  | .attendanceTimerExpiry => Sys2Proof.Machine.execAttendanceTimerExpiry s
  | .linkByteReceived c => Sys2Proof.Machine.execLinkByteReceived c s

end Sys2Proof.Machine
end

