-- ==== Sys2Proof/Machine/Step.lean ====
section
/-! DEFINITION. One step of the part: the command at the front of the queue, or a millisecond boundary. -/

namespace Sys2Proof.Machine

/-- One step: the command at the front of the queue is taken and its effect had on the rest of the state. With an empty queue a
running part meets a millisecond boundary (log 2), and a part held in reset idles (R195). -/
def step (s : State) : Host.Outcome State Fault Refusal :=
  match s.pending with
  | c :: cs => exec c { s with pending := cs }
  | [] => .next (if s.running then boundary s else s)

/-- s with the command that the word spells at the front of its queue; no row of the table gives bits, so no word spells one. -/
def State.withFetchWord (s : State) (nbits w : Nat) : State :=
  match Sys2Proof.decodeTableWord nbits w with
  | some c => { s with pending := c :: s.pending }
  | none => s

end Sys2Proof.Machine
end

