-- ==== Sys2Proof/Safety.lean ====
section
/-! DEFINITION. What counts as a sound state of each block: the facts that the rules say hold at all times. Statements over all
steps are made in these terms. -/

namespace Sys2Proof.Machine

/-! ## Frame Pool (chapter 1) -/

/-- The chunk store is in its canonical form. -/
def memorySound (p : Pool) : Prop := memWf p.mem = true

/-- R1, R4, R8, R14: the 256 chunks are those of the free list and those of the records, each in one place; a FREE record has
none. -/
def chunksSound (p : Pool) : Prop :=
  (p.free ++ p.recs.toList.flatMap Rec.chunks).Perm (List.range Config.chunks) ∧
    ∀ r : RecId, p.recs[r].state = .free → p.recs[r].chunks = []

/-- R15, R21: the limits of the reference counts, of the counters and of the lowest F. -/
def poolCountsSound (p : Pool) : Prop :=
  (∀ r : RecId, p.recs[r].refs ≤ Config.maxRefs) ∧ (∀ i : Fin 9, p.refusals[i] ≤ Config.count16) ∧
    p.refLimit ≤ Config.count16 ∧ p.lowF ≤ p.chunksFree

/-! ## Counter lines (chapters 2 and 3) -/

/-- R47: every counter is 16-bit. -/
def countersSound (c : LineCounters) : Prop := ∀ n ∈ c.toList, n ≤ Config.count16

/-- R43, R44, R49: nothing stands on a STOPPED line. -/
def stoppedQuiet (ln : Line) : Prop :=
  ln.state = .stopped → ln.control = [] ∧ ln.pass = [] ∧ ln.acks = [] ∧ ln.tx = none ∧ ln.rx = .hunting ∧ ln.idle = false

/-- R59: the ack list has four places. -/
def lineSound (ln : Line) : Prop := stoppedQuiet ln ∧ ln.acks.length ≤ Config.ackPlaces ∧ countersSound ln.counters

/-! ## Unit Directory (chapter 4) -/

/-- R70: a present entry has an address from 1 to 14, a LOST or FREE entry has none; a FREE entry is not bound; only a bound
entry is pinned; the grant attempts are 0 to 3; an ACTIVE entry is established. -/
def entryFieldsSound (d : DirEntry) : Prop :=
  (d.present = true → ∃ a, d.addr = some a ∧ a ≠ 0 ∧ a ≠ 15) ∧ (d.present = false → d.addr = none) ∧
    (d.state = .free → d.pos = none) ∧ (d.pinned = true → d.pos.isSome) ∧ d.grantAttempts ≤ Config.maxGrants ∧
    (d.state = .active → d.established = true)

/-- R70 to R72: no two entries hold one identity, one address of a line, or one slot of a position. -/
def entriesApart (d d' : DirEntry) : Prop :=
  (d.state ≠ .free → d'.state ≠ .free → d.identity ≠ d'.identity) ∧
    (d.present = true → d'.present = true → d.line = d'.line → d.addr ≠ d'.addr) ∧
    (d.pos.isSome → d.kind = d'.kind → d.pos ≠ d'.pos)

def directorySound (s : State) : Prop :=
  (∀ e : EntryId, entryFieldsSound s.dir[e]) ∧ ∀ e f : EntryId, e ≠ f → entriesApart s.dir[e] s.dir[f]

/-! ## Entry contexts (chapter 6) -/

/-- R115: the parameters of a field kind lie in their ranges. -/
def fieldSound : Field → Prop
  | .amount d maxV minV => d ≤ 3 ∧ 1 ≤ maxV ∧ maxV ≤ 999999999999 ∧ minV ≤ maxV
  | .digits lo hi _ => 1 ≤ lo ∧ lo ≤ hi ∧ hi ≤ 24
  | .pin lo hi => 4 ≤ lo ∧ lo ≤ hi ∧ hi ≤ 12
  | .confirm => True

/-- R120 to R122: the value of a session keeps within its field. -/
def valueSound (ss : Session) : Prop :=
  match ss.field with
  | .amount _ maxV _ => ss.value ≤ maxV
  | .digits _ hi _ => ss.digits.length ≤ hi ∧ ∀ d ∈ ss.digits, d ≤ 9
  | .pin _ hi => ss.digits.length ≤ hi ∧ ∀ d ∈ ss.digits, d ≤ 9
  | .confirm => True

/-- R117, R124: the first-key timer runs in OPEN, the inter-key timer in ACTIVE. -/
def sessionSound (ss : Session) : Prop :=
  fieldSound ss.field ∧ valueSound ss ∧
    (if ss.active then ss.firstTimer = none ∧ ss.interTimer.isSome else ss.firstTimer.isSome ∧ ss.interTimer = none)

/-- R116, R126, R132, R133: the guard runs only in IDLE; the retry timer runs exactly while display pending is set. -/
def entryCtxSound (c : EntryCtx) : Prop :=
  c.dispPending = c.retryTimer.isSome ∧
    match c.sess with
    | none => True
    | some ss => sessionSound ss ∧ c.guardTimer = none

/-! ## Card contexts (chapter 7) -/

/-- R138: the current command is the one of the state. -/
def currentSound (c : CardCtx) : Prop :=
  match c.current with
  | none => True
  | some (.read, _) => c.state = .reading
  | some (.eject, _) => c.state = .ejecting
  | some (.retain, _) => c.state = .retaining

/-- R136, R137, R147: each timer runs exactly in its states, tracks are held only in READING and READ, and a result record is
held exactly in READING. -/
def cardSound (c : CardCtx) : Prop :=
  (c.readTimer.isSome ↔ c.state = .reading) ∧ (c.takeTimer.isSome ↔ c.state = .presented) ∧
    (c.moveTimer.isSome ↔ c.state = .ejecting ∨ c.state = .retaining) ∧ (c.result.isSome ↔ c.state = .reading) ∧
    (c.state.holdsTracks = false → c.holds = Vector.replicate 3 none) ∧ currentSound c

/-! ## Workstation Link (chapter 9) -/

/-- R169: the assembly buffer is empty, or a lead and a record not yet complete. -/
def assemblySound (asm : List Byte) : Prop :=
  match asm with
  | [] => True
  | b :: inner => b = Config.lead ∧ judge inner = .incomplete

/-- R173, R177: the taking order lists each busy slot once; the two counts are 0 to 255. -/
def linkSound (k : Link) : Prop :=
  k.order.Nodup ∧ (∀ i : SlotId, i ∈ k.order ↔ k.slots[i].state ≠ .free) ∧ k.dropped ≤ Config.count8 ∧
    k.damaged ≤ Config.count8 ∧ assemblySound k.asm

/-! ## Profile Store (chapter 10) -/

/-- R184: the two line numbers in their ranges. -/
def lineItemsSound (x : LineItems) : Prop := 1 ≤ x.d ∧ x.d ≤ 255 ∧ 12 ≤ x.s ∧ x.s ≤ 20

/-- R184: a number lies in the range of its item. -/
def inRange (it : Item) (n : Nat) : Prop :=
  match it.range with
  | some (lo, hi) => lo ≤ n ∧ n ≤ hi
  | none => True

/-- R184: each item holds a value within its range. -/
def profileSound (p : Profile) : Prop :=
  (∀ l : LineId, lineItemsSound p.lines[l]) ∧ inRange .ackTimeout p.ackTimeout ∧ inRange .queueLimit p.queueLimit ∧
    inRange .grantTimeout p.grantTimeout ∧ inRange .silenceLimit p.silenceLimit ∧ inRange .lostLimit p.lostLimit ∧
    p.silenceLimit + 1 ≤ p.lostLimit ∧ inRange .reserve0 p.reserve0 ∧ inRange .reserve1 p.reserve1 ∧
    inRange .unitQuota p.unitQuota ∧ inRange .wsQuota p.wsQuota ∧ inRange .bulkAge p.bulkAge ∧ inRange .firstKey p.firstKey ∧
    inRange .interKey p.interKey ∧ inRange .pinGuard p.pinGuard ∧ inRange .readTimeout p.readTimeout ∧
    inRange .takeTimeout p.takeTimeout ∧ inRange .wsSilence p.wsSilence ∧ p.closedText.length = 16 ∧
    textOk p.closedText = true ∧ p.writeLimit ≤ 3

/-- R189 to R191: a running commit: the store INCOMPLETE, the blocks before its unit written from its snapshot, its write the latest
begun. -/
def commitSound (st : Store) (c : Commit) : Prop :=
  st.state = .incomplete ∧ profileSound c.snapshot ∧ c.limit = c.snapshot.writeLimit ∧ (c.attempt = 1 ∨ c.attempt = 2) ∧
    c.rewrites + 1 ≤ c.unit.val + c.attempt ∧ c.write = st.begun ∧ ∀ k : Fin 8, k.val + 1 < c.unit.val → st.blocks[k] = c.snapshot

/-- R189: a COMPLETE store holds one profile in all eight blocks. -/
def storeSound (st : Store) : Prop :=
  (∀ k : Fin 8, profileSound st.blocks[k]) ∧
    (st.state = .complete → ∀ k : Fin 8, st.blocks[k] = storedProfile st) ∧
    match st.commit with
    | none => True
    | some c => commitSound st c

/-! ## Reset (10.5) -/

/-- R195: while RESET is held asserted the part stays in the state in which a reset leaves every block. -/
def inReset (s : State) : Prop :=
  s.time = resetTime ∧ s.pool = resetPool s.pool.mem ∧ s.lines = Vector.replicate 4 resetLine ∧
    s.dir = Vector.replicate 16 resetEntry ∧ s.w0 = [] ∧ s.w1 = [] ∧ s.w2 = [] ∧ s.fanouts = [] ∧
    s.hits = Vector.replicate 16 0 ∧ s.entry = Vector.replicate 8 resetEntryCtx ∧ s.card = Vector.replicate 8 resetCardCtx ∧
    s.link = resetLink ∧ s.store.commit = none

/-- The part runs exactly while RESET is not asserted, and is otherwise in its reset state. -/
def resetSound (s : State) : Prop := s.running = !s.resetPin ∧ (s.resetPin = true → inReset s)

/-! ## A millisecond boundary (R159) -/

/-- R159: a timer whose expiry is due once the next boundary has passed. -/
def comesDue (t : Timer) : Prop := t = some 0 ∨ t = some 1

/-- R159: a queue entry whose two timers have come one boundary nearer. -/
def nearerEntry (q : QEntry) : QEntry :=
  { q with ackTimer := q.ackTimer.map (· - 1), limitTimer := q.limitTimer.map (· - 1) }

/-! ## The request handled next (chapter 9) -/

/-- R164, R175, R182: the request in slot i is handled next: it is TAKEN, none taken before it waits, no RESTART is pending, and the
part is ATTENDED. -/
def inTurn (s : State) (i : SlotId) : Prop :=
  s.running = true ∧ s.time.attended = true ∧ s.link.restartPending = false ∧ s.link.slots[i].state = .taken ∧
    ∃ earlier later, s.link.order = earlier ++ i :: later ∧ ∀ j ∈ earlier, s.link.slots[j].state ≠ .taken

/-- The request handled next stands in slot i, with this type code and this body. -/
def asks (s : State) (i : SlotId) (type : Byte) (body : List Byte) : Prop :=
  inTurn s i ∧ s.link.slots[i].type = type ∧ s.link.slots[i].body = body

/-- R175, R176: the reply in slot i is finished, with its status and the fields after the common three. -/
def replied (s : State) (i : SlotId) (st : Status) (fields : List Byte) : State :=
  s.modSlot i fun sl => { sl with state := .replied, status := st, fields := fields }

/-! ## Admission (R7 to R9) -/

/-- R7: the chunks that class c leaves free. -/
def keptBack (prof : Profile) (c : Cls) : Nat :=
  if c = 0 then 0 else if c = 1 then prof.reserve0 else prof.reserve0 + prof.reserve1

/-- R7: the free records that class c asks for. -/
def recordsAsked (c : Cls) : Nat := if c = 0 then 1 else if c = 1 then 5 else 9

/-- R7: the quota test. -/
def withinQuota (prof : Profile) (p : Pool) (n : Nat) : Origin → Prop
  | .unit e _ _ => p.unitHeld e + n ≤ prof.unitQuota
  | .workstation _ => p.wsHeld + n ≤ prof.wsQuota
  | .part => True

/-- R7: all three tests pass. -/
def admissible (prof : Profile) (p : Pool) (c : Cls) (n : Nat) (o : Origin) : Prop :=
  n + keptBack prof c ≤ p.chunksFree ∧ recordsAsked c ≤ p.recsFree ∧ withinQuota prof p n o

/-- R8, R21: p' is p after the admission a has taken record r. -/
def granted (p p' : Pool) (r : RecId) (a : Admission) : Prop :=
  p.recs[r].state = .free ∧ (∀ q < r, p.recs[q].state ≠ .free) ∧
    p'.recs[r] =
      { state := a.state, origin := a.origin, kind := a.kind, cls := a.cls, urg := a.urg, arrival := a.arrival, len := 0,
        chunks := p.free.take a.need, refs := 1, promise := a.promise } ∧
    (∀ q ≠ r, p'.recs[q] = p.recs[q]) ∧ p'.free = p.free.drop a.need ∧ p'.mem = p.mem ∧ p'.refusals = p.refusals ∧
    p'.refLimit = p.refLimit ∧ p'.lowF = min p.lowF p'.chunksFree ∧ p'.lowG = min p.lowG p'.recsFree

/-! ## After start-up (R196, R197) -/

/-- R196, step 3: the profile outcome by the PDEF strap and the store's state. -/
def outcomeOf (pdef : Bool) (st : StoreState) : ProfileOutcome :=
  match pdef, st with
  | true, _ => .defaultsForced
  | false, .blank => .blank
  | false, .incomplete => .incomplete
  | false, .complete => .loaded

/-- R196, step 3: the working profile by the outcome. -/
def profileOf (pdef : Bool) (st : Store) : Profile := if outcomeOf pdef st.state = .loaded then storedProfile st else defaultProfile

/-- R40, R60: the queue entry of the general-call WHO that a line start makes. -/
def whoEntry (now : Ms) (limit : Nat) (r : RecId) : QEntry :=
  { record := r, dest := 15, target := none, queuedAt := now, attempts := 0, sent := false, isOpen := false, awaiting := false,
    inTx := false, lastBit := false, ackTimer := none, limitTimer := some limit, owner := .directory }

/-- R196, step 5: a line after start-up: with its item no it is STOPPED; with yes it is ACTIVE, its WHO queued. -/
def lineStarted (prof : Profile) (p : Pool) (l : LineId) (ln : Line) : Prop :=
  (prof.lines[l].enabled = false → ln = resetLine) ∧
    (prof.lines[l].enabled = true →
      ∃ (r : RecId) (k : Nat),
        ln = { resetLine with
          state := .active, timing := some { d := prof.lines[l].d, s := prof.lines[l].s },
          control := [whoEntry 0 prof.queueLimit r] } ∧
        p.recs[r] =
          { state := .stored, origin := .part, kind := .frame .who, cls := 2, urg := 2, arrival := 0, len := 0, chunks := [k]
            refs := 1, promise := none })

/-- R196, R197: the part at the end of a start-up, before the link transmitter's first choice. -/
def startedUp (cause : ResetCause) (straps : Straps) (st : Store) (t : State) : Prop :=
  let o := outcomeOf straps.pdef st.state
  let prof := profileOf straps.pdef st
  t.running = true ∧ t.resetPin = false ∧ t.straps = straps ∧ t.resetCause = cause ∧ t.profileOutcome = o ∧
    t.linkRate = straps.lrate ∧ t.profile = prof ∧ t.store = { st with commit := none } ∧
    t.time = { resetTime with timer := if prof.wsSilence = 0 then none else some (1000 * prof.wsSilence) } ∧
    t.link = { resetLink with rxOn := true } ∧ t.dir = Vector.replicate 16 resetEntry ∧
    t.entry = Vector.replicate 8 resetEntryCtx ∧ t.card = Vector.replicate 8 resetCardCtx ∧ t.hits = Vector.replicate 16 0 ∧
    t.fanouts = [] ∧ t.w1 = [] ∧ t.w2 = [] ∧
    t.w0 = [{ record := 0, kind := .start, tag := 0, unit := none, pos := none, witnessed := false, resent := false }] ∧
    t.pool.recs[(0 : RecId)] =
      { state := .stored, origin := .part, kind := .notice .start, cls := 0, urg := 0, arrival := 0, len := 5, chunks := [0]
        refs := 1, promise := some 0 } ∧
    t.pool.body 0 =
      [cause.code, o.code, st.state.code, byteOf straps.lrate.toNat,
       byteOf ((allLines.map fun l => if prof.lines[l].enabled then 2 ^ l.val else 0).sum)] ∧
    ∀ l : LineId, lineStarted prof t.pool l t.lines[l]

/-! ## Records of the link (R162, R164, R169, R178) -/

/-- R178: the link with a record being sent. -/
def sending (s : State) (src : LinkSource) (bytes : List Byte) : Link :=
  { s.link with tx := some { src := src, bytes := bytes } }

/-- R162, R164, R172: Time Base and Attendance after a well-formed record: ATTENDED, its timer armed by the workstation silence
item; the change is marked if the part was UNATTENDED. -/
def afterRecord (s : State) : TimeBase :=
  { s.time with
    attended := true
    latest := if s.time.attended then s.time.latest else s.time.mono
    mark := s.time.mark || !s.time.attended
    timer := if s.profile.wsSilence = 0 then none else some (1000 * s.profile.wsSilence) }

/-- R167: the receiver sees the character c and takes the byte b from it: it opens with a fall from mark, its start bit reads space
and its stop bit mark, and its data bits are those of b, the least significant first. -/
def bringsByte (k : Link) (c : LinkChar) (b : Byte) : Prop :=
  (c.marked = true ∨ k.awaitMark = false) ∧ c.start = false ∧ c.stop = true ∧
    ∀ j : Fin 8, b.getLsbD j = [c.d0, c.d1, c.d2, c.d3, c.d4, c.d5, c.d6, c.d7][j]

/-- R169: the byte b, after the stored bytes `inner` of an open record, is a length above 250, or the check byte of a record whose
sum is not 0. -/
def damagedBy (inner : List Byte) (b : Byte) : Prop :=
  match inner with
  | [_, _] => 250 < b.toNat
  | _ :: _ :: n :: body => n.toNat ≤ 250 ∧ body.length = n.toNat ∧ byteSum (inner ++ [b]) ≠ 0
  | _ => False

/-- R169: the bytes after a lead neither complete a record nor abandon it. -/
def stillOpen (inner : List Byte) : Prop :=
  match inner with
  | _ :: _ :: n :: body => n.toNat ≤ 250 ∧ body.length ≤ n.toNat
  | _ => True

/-- R173: a request is taken into slot i, at the tail of the taking order. -/
def withRequest (k : Link) (i : SlotId) (t g : Byte) (body : List Byte) : Link :=
  { k with
    slots := k.slots.set i { state := .taken, type := t, tag := g, body := body, status := .ok, fields := [] }
    order := k.order ++ [i] }

/-- R172, R173: s' is s once a well-formed record with this type, tag and body is settled: taken into the lowest FREE slot, or
dropped and counted when it is no request, or finds no slot FREE, or a RESTART is pending. -/
inductive Settled (s : State) (t g : Byte) (body : List Byte) : State → Prop
  | taken (i : SlotId) (ht : 1 ≤ t.toNat ∧ t.toNat ≤ 0x3F) (hr : s.link.restartPending = false)
      (hi : s.link.slots[i].state = .free) (hlow : ∀ j < i, s.link.slots[j].state ≠ .free) :
      Settled s t g body { s with time := afterRecord s, link := withRequest s.link i t g body }
  | dropped (h : t.toNat = 0 ∨ 0x40 ≤ t.toNat ∨ s.link.restartPending = true ∨ ∀ i : SlotId, s.link.slots[i].state ≠ .free) :
      Settled s t g body { s with time := afterRecord s, link := { s.link with dropped := min 255 (s.link.dropped + 1) } }

/-- R177: the state with one more damaged record counted. -/
def damageCounted (s : State) : State := { s with link := { s.link with damaged := min 255 (s.link.damaged + 1) } }

/-- R170: s' is s once the receiver, HUNTING, has taken these stored bytes: with no lead among them it stays HUNTING; else the first
lead opens a record, which stays open when the bytes run out, or is abandoned, counted, and rescanned from the byte after its
own lead on, or is settled, the bytes behind it taken in their turn. -/
inductive Rescanned : List Byte → State → State → Prop
  | hunting (bytes : List Byte) (s : State) (h : (0xC3 : Byte) ∉ bytes) : Rescanned bytes s s
  | opened (before rest : List Byte) (s : State) (h : (0xC3 : Byte) ∉ before) (ho : stillOpen rest) :
      Rescanned (before ++ 0xC3 :: rest) s { s with link := { s.link with asm := 0xC3 :: rest } }
  | damaged (before inner rest : List Byte) (b : Byte) (s s' : State) (h : (0xC3 : Byte) ∉ before) (hd : damagedBy inner b)
      (hs : Rescanned (inner ++ b :: rest) (damageCounted s) s') : Rescanned (before ++ 0xC3 :: (inner ++ b :: rest)) s s'
  | settled (before body rest : List Byte) (t g n k : Byte) (s u s' : State) (h : (0xC3 : Byte) ∉ before)
      (hn : body.length = n.toNat ∧ n.toNat ≤ 250) (hk : byteSum (t :: g :: n :: body ++ [k]) = 0) (hu : Settled s t g body u)
      (hs : Rescanned rest u s') : Rescanned (before ++ 0xC3 :: t :: g :: n :: (body ++ k :: rest)) s s'

/-! ## Refused admissions (R9) -/

/-- R7, R9: the refusal counter that a refused admission raises: that of the first test that fails, in the order chunk, record,
quota. -/
def refusedAt (prof : Profile) (p : Pool) (c : Cls) (n : Nat) (o : Origin) (k : Fin 9) : Prop :=
  let chunkOk := n + keptBack prof c ≤ p.chunksFree
  let recordOk := recordsAsked c ≤ p.recsFree
  (¬ chunkOk ∧ k.val = c.val) ∨ (chunkOk ∧ ¬ recordOk ∧ k.val = 3 + c.val) ∨
    (chunkOk ∧ recordOk ∧ ¬ withinQuota prof p n o ∧ k.val = 6 + c.val)

/-- R9, R21: the pool with one refusal counter risen by 1, up to 65,535, and nothing else changed. -/
def counted (p : Pool) (k : Fin 9) : Pool := { p with refusals := p.refusals.set k (min 65535 (p.refusals[k] + 1)) }

/-! ## Characters and frames of a line (2.3, 3.2) -/

/-- A state with one line replaced. -/
def onLine (s : State) (l : LineId) (ln : Line) : State := { s with lines := s.lines.set l ln }

/-- R27: a line of a running part that receives characters. -/
def hears (s : State) (l : LineId) : Prop :=
  s.running = true ∧ (s.lines[l].state = .active ∨ s.lines[l].state = .draining) ∧ s.lines[l].tx = none

/-- R39: a line of a running part that reads its pair: ACTIVE or DRAINING. -/
def listens (s : State) (l : LineId) : Prop := s.running = true ∧ (s.lines[l].state = .active ∨ s.lines[l].state = .draining)

/-- R27, R36, R41: a header is in progress on the line. -/
def headerOpen (ln : Line) : Prop := ∃ a d, ln.rx = .completing a d

/-- R12, R14: the pool once the reception of a line, if one is in progress, is discarded. -/
def receptionDropped (p : Pool) (ln : Line) : Pool :=
  match ln.rx with
  | .inFrame { dest := .record r _, .. } => p.dropRef r
  | _ => p

/-- R28, R30: a character that is handed to frame assembly: start bit dominant, stop bit recessive. -/
def handedOn (c : RawChar) : Prop := bitValue c.start = false ∧ bitValue c.stop = true

/-- R27, R29, R32: a line that has heard a character: not idle, its noisy and parity counters risen as the character is judged. -/
def heardChar (ln : Line) (c : RawChar) : Line :=
  { ln with
    idle := false
    counters :=
      { ln.counters with
        noisy := if charNoisy c then min 65535 (ln.counters.noisy + 1) else ln.counters.noisy
        parity := if charParityError c then min 65535 (ln.counters.parity + 1) else ln.counters.parity } }

/-- R29, R50: a frame that has taken a character: its sum, and its bad mark. -/
def tookChar (f : RxFrame) (c : RawChar) : RxFrame :=
  { f with sum := f.sum + charByte c, bad := f.bad || charParityError c }

/-- R12, R14: the pool once the FILLING record of a reception, if it holds one, is released. -/
def withoutReception (p : Pool) (f : RxFrame) : Pool :=
  match f.dest with
  | .record r _ => p.dropRef r
  | _ => p

/-- A line whose check character ends the frame f in the character c: the frame was taken so far, and the line hears. -/
def endsFrame (s : State) (l : LineId) (f : RxFrame) (c : RawChar) : Prop :=
  hears s l ∧ handedOn c ∧ s.lines[l].rx = .inFrame f ∧ f.stage = .check

/-- R54: the frame is whole and good: sum 0, no parity error. -/
def wholeAndGood (f : RxFrame) (c : RawChar) : Prop := f.sum + charByte c = 0 ∧ f.bad = false ∧ charParityError c = false

/-- The row that names the check character of a frame of kind k from a unit. -/
def closes (l : LineId) (c : RawChar) : FrameKind → Instr
  | .hello => .hello l c
  | .status => .unitStatus l c
  | .ack => .unitAck l c
  | _ => .unitEventDataFrame l c

/-- R57, R58, R74: a frame that is settled: whole and good, its kind k known, not discarded, its header not begun in a drain. -/
def settles (s : State) (l : LineId) (f : RxFrame) (c : RawChar) (k : FrameKind) : Prop :=
  endsFrame s l f c ∧ rxKind f = some k ∧ wholeAndGood f c ∧ f.discarded = false ∧ f.inDrain = false

/-- The state once the check character of a whole and good frame has been taken from the line, before the frame is settled. -/
def checkTaken (s : State) (l : LineId) (c : RawChar) : State := onLine s l { heardChar s.lines[l] c with rx := .hunting }

/-- R54, R84: a line with its stray-frame counter risen by 1. -/
def strayCounted (s : State) (l : LineId) : State :=
  onLine s l
    { s.lines[l] with
      counters := { s.lines[l].counters with stray := min 65535 (s.lines[l].counters.stray + 1) } }

/-- R59: an acknowledgement offered to the ack list of a line: appended, or lost when four wait. -/
def ackOffered (s : State) (l : LineId) (a : PendingAck) : State :=
  if s.lines[l].acks.length < 4 then onLine s l { s.lines[l] with acks := s.lines[l].acks ++ [a] } else s

/-- R70, R80 to R82: a directory entry after a frame from its line and address is heard, its line not STOPPED. -/
def afterHeard (s : State) (e : EntryId) : DirEntry :=
  let d :=
    { s.dir[e] with
      lastHeard := s.time.mono, silenceTimer := some (1000 * s.profile.silenceLimit)
      lostTimer := some (1000 * s.profile.lostLimit) }
  match s.dir[e].state with
  | .pending =>
    { d with
      state := .active, established := true, grantAttempts := 0, grantTimer := none, mark := true, latest := s.time.mono }
  | .silent => { d with state := .active, established := true, mark := true, latest := s.time.mono }
  | _ => d

/-- R81: the state after a frame from directory entry e is heard. -/
def heardFrom (s : State) (e : EntryId) : State := { s with dir := s.dir.set e (afterHeard s e) }

/-! ## The queues of a line (3.4) -/

/-- R67: the entry q among the entries of a line: the one of its record and destination. -/
def isEntry (q x : QEntry) : Bool := x.record == q.record && x.dest == q.dest

/-- A line with one of its queue entries changed. -/
def withEntry (ln : Line) (q : QEntry) (f : QEntry → QEntry) : Line :=
  { ln with
    control := ln.control.map fun x => if isEntry q x then f x else x
    pass := ln.pass.map fun x => if isEntry q x then f x else x }

/-- A line without one of its queue entries. -/
def withoutEntry (ln : Line) (q : QEntry) : Line :=
  { ln with
    control := ln.control.filter fun x => !isEntry q x
    pass := ln.pass.filter fun x => !isEntry q x }

/-- R61, R62: a queue entry may be chosen: not in transmission, not awaiting, and not held back by its destination's open frame. -/
def mayGo (ln : Line) (q : QEntry) : Prop :=
  q.inTx = false ∧ q.awaiting = false ∧
    (q.isOpen = true ∨ ∀ x ∈ ln.control ++ ln.pass, x.isOpen = true → x.dest ≠ q.dest)

/-- R62: q is the first entry that may be chosen: control queue before pass queue, each in its order. -/
def goesFirst (ln : Line) (q : QEntry) : Prop :=
  ∃ before after, ln.control ++ ln.pass = before ++ q :: after ∧ mayGo ln q ∧ ∀ x ∈ before, ¬ mayGo ln x

/-- R50, R168: bytes followed by the value that makes their 8-bit sum 0. -/
def withCheck (bytes : List Byte) : List Byte := bytes ++ [0 - byteSum bytes]

/-- R50, R199: the characters of a part frame: header, destination with sequence bit and kind, length, body, check. -/
def partFrame (urg family dest : Nat) (seq : Bool) (kind : Nat) (body : List Byte) : List Byte :=
  withCheck (byteOf (urg + 64 * family) :: byteOf (dest + 16 * seq.toNat + 32 * kind) :: byteOf body.length :: body)

/-- R63: the sequence bit with which a queue entry's frame of kind k is sent. -/
def sentSeq (s : State) (q : QEntry) (k : FrameKind) : Bool :=
  if k = .display ∨ k = .cardCommand ∨ k = .unitCommand then
    match q.target with
    | some e => s.dir[e].outBit
    | none => false
  else false

/-! ## Contexts (chapters 6 and 7) -/

/-- A state with one entry context replaced. -/
def atEntry (s : State) (p : Pos) (c : EntryCtx) : State := { s with entry := s.entry.set p c }

/-- A state with one card context replaced. -/
def atCard (s : State) (p : Pos) (c : CardCtx) : State := { s with card := s.card.set p c }

/-- R17: the record of a promise once its notice is completed: STORED, with its body and its arrival. -/
def completedRec (x : Rec) (now : Ms) (len : Nat) : Rec := { x with state := .stored, arrival := now, len := len }

/-! ## Offered frames and promises (R16, R19, R60) -/

/-- R51: the urgency at which the part sends a frame of its own. -/
def urgencyOf (k : FrameKind) : Nat := if k = .grant ∨ k = .refuse ∨ k = .ack then 0 else if k = .who then 2 else 1

/-- R5: the chunks that a body of n bytes needs. -/
def chunksNeeded (n : Nat) : Nat := max 1 ((n + 31) / 32)

/-- R19: the admission that a frame of kind k with a body of n bytes asks for. -/
def ownFrame (s : State) (k : FrameKind) (c : Cls) (n : Nat) : Admission :=
  { cls := c, need := chunksNeeded n, origin := .part, kind := .frame k, urg := BitVec.ofNat 2 (urgencyOf k)
    arrival := s.time.mono, state := .stored, promise := none }

/-- R16: the admission that a promise of a completion notice asks for. -/
def promised (s : State) (k : NoticeKind) (tag : Byte) : Admission :=
  { cls := 0, need := if k = .sendDone then 4 else 1, origin := .part, kind := .notice k, urg := 0, arrival := s.time.mono
    state := .reserved, promise := some tag }

/-- R60, R66: a new queue entry. -/
def queuedFrame (s : State) (r : RecId) (dest : Addr) (target : Option EntryId) (owner : Owner) : QEntry :=
  { record := r, dest := dest, target := target, queuedAt := s.time.mono, attempts := 0, sent := false, isOpen := false
    awaiting := false, inTx := false, lastBit := false, ackTimer := none, limitTimer := some s.profile.queueLimit
    owner := owner }

/-- The pool q is p with the body of record r written, and with no other record's body changed. -/
def bodyWritten (p q : Pool) (r : RecId) (body : List Byte) : Prop :=
  q = { p with mem := q.mem, recs := p.recs.set r { p.recs[r] with len := body.length } } ∧ q.body r = body ∧
    ∀ x : RecId, x ≠ r → p.recs[x].len ≤ 32 * p.recs[x].chunks.length → q.body x = p.body x

/-- R19, R44, R60: t is what offering a frame of the part to line l leaves of s: nothing new on a STOPPED line; a new entry at the end of
the control queue when the pool admits the frame; the frame skipped, its counter risen, when the pool refuses it. -/
def frameOffered (s t : State) (l : LineId) (k : FrameKind) (dest : Addr) (target : Option EntryId) (owner : Owner)
    (body : List Byte) : Prop :=
  (s.lines[l].state = .stopped → t = s) ∧
    (s.lines[l].state ≠ .stopped → ∀ c : Cls, c.val = urgencyOf k →
      (memorySound s.pool → chunksSound s.pool → admissible s.profile s.pool c (chunksNeeded body.length) .part →
        ∃ (r : RecId) (p q : Pool), granted s.pool p r (ownFrame s k c body.length) ∧ bodyWritten p q r body ∧
          t = onLine { s with pool := q } l
            { s.lines[l] with control := s.lines[l].control ++ [queuedFrame s r dest target owner] }) ∧
      ∀ x : Fin 9, refusedAt s.profile s.pool c (chunksNeeded body.length) .part x → t = { s with pool := counted s.pool x })

/-- R19, R117: the admission that a KEY notice of n codes asks for; its urgency is the model's choice (log 30). -/
def ownKeys (s : State) (n : Nat) : Admission :=
  { cls := 1, need := chunksNeeded n, origin := .part, kind := .notice .key, urg := 0, arrival := s.time.mono, state := .stored
    promise := none }

/-! ## Directory entries (chapter 4) -/

/-- A directory entry with its mark set (R89, R110). -/
def marked (s : State) (e : EntryId) : State :=
  { s with dir := s.dir.set e { s.dir[e] with mark := true, latest := s.time.mono } }

/-- A state with one directory entry replaced. -/
def atUnit (s : State) (e : EntryId) (d : DirEntry) : State := { s with dir := s.dir.set e d }

/-- R72: an address of a line that no present entry holds. -/
def addressFree (s : State) (l : LineId) (a : Addr) : Prop :=
  ∀ e : EntryId, s.dir[e].present = true → s.dir[e].line = l → s.dir[e].addr ≠ some a

/-- R72: the lowest free address of a line. -/
def lowestFree (s : State) (l : LineId) (a : Addr) : Prop :=
  a ≠ 0 ∧ a ≠ 15 ∧ addressFree s l a ∧ ∀ b : Addr, b ≠ 0 → b < a → ¬ addressFree s l b

/-- R72: a full line. -/
def lineFull (s : State) (l : LineId) : Prop := ∀ a : Addr, a ≠ 0 → a ≠ 15 → ¬ addressFree s l a

/-- R70: the entry that holds an identity, the only one. -/
def holds (s : State) (e : EntryId) (i : Identity) : Prop :=
  s.dir[e].state ≠ .free ∧ s.dir[e].identity = i ∧ ∀ x : EntryId, s.dir[x].state ≠ .free → s.dir[x].identity = i → x = e

/-- R75: the entry that a new identity takes: the lowest FREE one, else the unpinned LOST one heard longest ago. -/
def takenForNew (s : State) (e : EntryId) : Prop :=
  (s.dir[e].state = .free ∧ ∀ x < e, s.dir[x].state ≠ .free) ∨
    ((∀ x : EntryId, s.dir[x].state ≠ .free) ∧ s.dir[e].state = .lost ∧ s.dir[e].pinned = false ∧
      ∀ x : EntryId, x ≠ e → s.dir[x].state = .lost → s.dir[x].pinned = false →
        elapsed s.time.mono s.dir[x].lastHeard < elapsed s.time.mono s.dir[e].lastHeard ∨
          (elapsed s.time.mono s.dir[x].lastHeard = elapsed s.time.mono s.dir[e].lastHeard ∧ e < x))

/-- R76: the first pin that names an identity gives position p. -/
def firstPin (prof : Profile) (i : Identity) (p : Pos) : Prop :=
  ∃ before after, prof.pins.toList = before ++ some (i, p) :: after ∧ ∀ (x : Pos), some (i, x) ∉ before

/-- R72, R77, R78, R80: an entry granted an address: PENDING, its sequence bits reset, its GRANT offered, its grant timer armed. -/
def regranted (s : State) (e : EntryId) (l : LineId) (a : Addr) : State :=
  let d := { s.dir[e] with
    line := l, addr := some a, outBit := false, inBit := none, grantAttempts := 1, state := .pending }
  let t := offerGrant (atUnit s e d) e
  atUnit t e { d with grantTimer := some s.profile.grantTimeout }

/-- R71: the sessions of a unit end: at a keypad's position the entry session, at a reader's the card context's service. -/
def sessionsEnded (s : State) (k : UnitKind) (pos : Option Pos) (c : Cause) : State :=
  match pos, k with
  | none, _ => s
  | some p, .keypad => abortSession s p c
  | some p, .reader => cardServiceEnd s p c

/-! ## Transmissions (3.4) -/

/-- R13, R36, R37, R42: a line whose transmission has stopped short: its entry's frame is the entry's again. -/
def withdrawn (s : State) (l : LineId) (x : Tx) : State :=
  { s with
    lines := s.lines.set l
      { s.lines[l] with
        tx := none
        control := s.lines[l].control.map fun q => { q with inTx := false }
        pass := s.lines[l].pass.map fun q => { q with inTx := false } }
    pool :=
      match x.src with
      | .detached r => s.pool.dropRef r
      | _ => s.pool }

/-- R62: q is the first entry of a line, control queue first, with the property. -/
def firstEntry (ln : Line) (q : QEntry) (ok : QEntry → Prop) : Prop :=
  ∃ before after, ln.control ++ ln.pass = before ++ q :: after ∧ ok q ∧ ∀ x ∈ before, ¬ ok x

/-- R63: the outcomes at which the outbound bit of the target entry toggles, by whether the frame is open. -/
def togglesOn (isOpen : Bool) : FrameOutcome → Bool
  | .delivered => true
  | .refused _ => true
  | .noAck => true
  | .expired => false
  | .lineStopped => isOpen
  | .unitGone => false

/-! ## Screening (5.1, 5.2) -/

/-- R92: a SOURCE entry's selector matches a frame from the unit d received on line l. -/
def selects (x : ScreenEntry) (d : DirEntry) (l : LineId) : Prop :=
  match x.selector with
  | .any => True
  | .identity => d.state ≠ .free ∧ d.identity = x.selValue
  | .position => d.state ≠ .free ∧ ∃ p : Pos, d.pos = some p ∧ x.selValue.toNat % 256 = p.val + 1
  | .line => x.selValue.toNat % 256 = l.val + 1

/-- R92: m is the lowest-numbered screen list entry with the property, or none. -/
def firstScreen (s : State) (ok : ScreenEntry → Prop) : Option EntryId → Prop
  | none => ∀ i : EntryId, ¬ ok s.profile.screen[i]
  | some i => ok s.profile.screen[i] ∧ ∀ j < i, ¬ ok s.profile.screen[j]

/-- R93: the action of a match; PASS when there is none. -/
def actionOf (s : State) : Option EntryId → ScreenAction
  | none => .pass
  | some i => s.profile.screen[i].action

/-- R93: the queue of a frame that survives screening. -/
def queueOf (s : State) (src knd : Option EntryId) (urg : Urgency) (q : Cls) : Prop :=
  (∀ i : EntryId, knd = some i → s.profile.screen[i].action = .reclass → q = s.profile.screen[i].cls) ∧
    (∀ i : EntryId, actionOf s knd ≠ .reclass → src = some i → s.profile.screen[i].action = .reclass →
      q = s.profile.screen[i].cls) ∧
    (actionOf s knd ≠ .reclass → actionOf s src ≠ .reclass → q.val = min 2 urg.toNat)

/-- R97: the screen kind of a frame kind of a unit. -/
def screenKindNamed : FrameKind → ScreenKind → Prop
  | .key, .key => True
  | .cardMove, .cardMove => True
  | .track, .track => True
  | .alert, .alert => True
  | .data, .data => True
  | _, _ => False

/-- R101: the notice entry of a stored unit frame. -/
def unitNotice (s : State) (r : RecId) (e : EntryId) (k : NoticeKind) (witnessed : Bool) : Notice :=
  { record := r, kind := k, tag := 0
    unit := some { identity := s.dir[e].identity, line := s.dir[e].line, addr := s.dir[e].addr, kind := s.dir[e].kind }
    pos := if s.dir[e].state = .free then none else s.dir[e].pos, witnessed := witnessed, resent := false }

/-- R15, R100: a state with a witness copy queued, or with the refused reference counted. -/
def witnessedBy (s : State) (q : Cls) (r : RecId) (n : Notice) : State :=
  if s.pool.recs[r].refs < 20 then
    { s with pool := { s.pool with recs := s.pool.recs.set r { s.pool.recs[r] with refs := s.pool.recs[r].refs + 1 } } }.pushW q n
  else { s with pool := { s.pool with refLimit := min 65535 (s.pool.refLimit + 1) } }

/-- R202: the 13 bytes of a screen item. -/
def screenBytes (i : EntryId) (x : ScreenEntry) : List Byte :=
  [byteOf i.val, if x.inUse then 1 else 0, x.type.code, x.selector.code] ++ leBytes 6 x.selValue.toNat
    ++ [x.kind.code, x.action.code, byteOf x.cls.val]

/-- R94: the first selector value byte names a position, or a line, where the selector is one. -/
def selectorNamed (x : ScreenEntry) : Prop :=
  (x.selector = .position → 1 ≤ x.selValue.toNat % 256 ∧ x.selValue.toNat % 256 ≤ 8) ∧
    (x.selector = .line → 1 ≤ x.selValue.toNat % 256 ∧ x.selValue.toNat % 256 ≤ 4)

/-! ## Reports of the Directory (R85, R202) -/

/-- R202: a unit item. -/
def unitBytes (s : State) (e : EntryId) : List Byte :=
  byteOf e.val :: leBytes 6 s.dir[e].identity.toNat
    ++ [s.dir[e].kind.code, s.dir[e].state.code, byteOf (s.dir[e].line.val + 1),
        match s.dir[e].addr with
          | some a => byteOf a.toNat
          | none => 0,
        match s.dir[e].pos with
          | some p => byteOf (p.val + 1)
          | none => 0,
        byteOf ((if s.dir[e].pinned then 1 else 0) + (if s.dir[e].condition = .fault then 2 else 0)
          + (if s.dir[e].established then 4 else 0)),
        byteOf (min (s.pool.unitHeld e) 255), byteOf (min (elapsed s.time.mono s.dir[e].lastHeard / 1000) 255)]

/-- R203: a timer in a report: whether it runs, and the milliseconds left. -/
def timerBytes : Timer → List Byte
  | none => [0, 0, 0, 0, 0]
  | some n => 1 :: leBytes 4 n

/-! ## UNIT_SEND (R103, R104) -/

/-- R103: the targets, in the order in which their copies are placed: by position, the reader before the keypad, and those of them
that are ACTIVE or SILENT; with an empty bitmap the unit of the identity. -/
def sendTargets (s : State) (bitmap roles : Byte) (i : Identity) : List EntryId :=
  let service (e : EntryId) : Bool := s.dir[e].state == .active || s.dir[e].state == .silent
  if bitmap = 0 then (holderOf s i).toList.filter service
  else
    ((List.finRange 8).flatMap fun p =>
      if bitmap.getLsbD p.val then
        (if roles.getLsbD 0 then (slotOf s .reader p).toList else [])
          ++ (if roles.getLsbD 1 then (slotOf s .keypad p).toList else [])
      else []).filter service

/-- R104: the admission that the body of a UNIT_SEND asks for. -/
def sentBody (s : State) (tag : Byte) (urg : Urgency) (c : Cls) (n : Nat) : Admission :=
  { cls := c, need := chunksNeeded n, origin := .workstation tag, kind := .frame .unitCommand, urg := urg
    arrival := s.time.mono, state := .stored, promise := none }

/-! ## Sessions (chapter 6) -/

/-- R203: the parameter bytes of an ENTRY_OPEN, by its field kind. -/
def fieldBytes : Field → List Byte
  | .amount d maxV minV => byteOf d :: leBytes 6 maxV ++ leBytes 6 minV
  | .digits lo hi mask => [byteOf lo, byteOf hi, if mask then 1 else 0]
  | .pin lo hi => [byteOf lo, byteOf hi]
  | .confirm => []

/-- R114, R203: the body of an ENTRY_OPEN with its fields. -/
def openBody (p : Pos) (f : Field) (t1 t2 : Byte) (prompt : List Byte) (m : Byte) (pfx : List Byte) : List Byte :=
  byteOf (p.val + 1) :: f.code :: t1 :: t2 :: prompt ++ m :: pfx ++ fieldBytes f

/-- R114: the keypad that a session can open on: bound, ACTIVE or SILENT, its line not STOPPED. -/
def servesSessions (s : State) (p : Pos) (e : EntryId) : Prop :=
  slotOf s .keypad p = some e ∧ (s.dir[e].state = .active ∨ s.dir[e].state = .silent) ∧ s.lines[s.dir[e].line].state ≠ .stopped

/-- R115: a timeout taken: 0 is the profile's, another is cut to its limit. -/
def timeoutTaken (given : Byte) (dflt hi : Nat) : Nat := if given = 0 then dflt else min hi given.toNat

/-- R120 to R123, R132: what a session's value looks like in an ENTRY_RESULT, when the outcome is COMPLETED with cause c, or is
another (none). -/
def resultValue (ss : Session) (c : Option Cause) : List Byte :=
  match ss.field with
  | .amount .. => leBytes 6 ss.value ++ List.replicate 7 0
  | .digits .. =>
    byteOf ss.digits.length :: packDigits ss.digits ++ List.replicate (12 - (ss.digits.length + 1) / 2) 0xFF
  | .pin .. =>
    if c = none then byteOf ss.digits.length :: List.replicate 12 0xFF
    else byteOf ss.digits.length :: packDigits ss.digits ++ List.replicate (12 - (ss.digits.length + 1) / 2) 0xFF
  | .confirm =>
    (match c with
      | some .enter => 1
      | some _ => 0
      | none => 0xFF) :: List.replicate 12 0

/-- R127, R201: the stored body of an ENTRY_RESULT. -/
def resultBytes (p : Pos) (ss : Session) (o : EntryOutcome) (c : Cause) : List Byte :=
  byteOf (p.val + 1) :: leBytes 6 ss.keypadId.toNat ++ [ss.field.code, o.code, c.code]
    ++ resultValue ss (if o = .completed then some c else none)

/-- R132: a context's display update has been taken by its keypad's line. -/
def displayed (c : EntryCtx) (d : DisplayLines) : EntryCtx :=
  { c with wanted := d, dispPending := false, pendTone := .none, retryTimer := none }

/-- R132, R133: a context's display update could not be taken, and is pending with this tone. -/
def displayWaits (c : EntryCtx) (d : DisplayLines) (t : Tone) : EntryCtx :=
  { c with wanted := d, dispPending := true, pendTone := t, retryTimer := if c.retryTimer = none then some 100 else c.retryTimer }

/-- R132: the keypad of a display target, where it can be reached. -/
def reached (s : State) (p : Pos) (e : EntryId) (a : Addr) : Prop :=
  ∃ i : Identity, s.entry[p].target = some (e, i) ∧ s.dir[e].identity = i ∧ s.dir[e].addr = some a

/-- R132: the display target is none, or its keypad has gone from its entry or has no address. -/
def unreached (s : State) (p : Pos) : Prop :=
  ∀ (e : EntryId) (i : Identity), s.entry[p].target = some (e, i) → s.dir[e].identity ≠ i ∨ s.dir[e].addr = none

/-- R68: an unsent DISPLAY of the context at p for the address a. -/
def unsentDisplay (s : State) (p : Pos) (a : Addr) (q : QEntry) : Prop :=
  s.pool.recs[q.record].kind = .frame .display ∧ q.dest = a ∧ q.owner = .entry p ∧ q.inTx = false ∧ q.sent = false

/-- R119, R121 to R123: what a taken key leaves: a session, nothing new (refused), or an ending. -/
inductive KeyEffect where
  | accepts (ss : Session)
  | refuses
  | ends (o : EntryOutcome) (c : Cause)

/-- R119: a key in an AMOUNT session. -/
def amountEffect (ss : Session) (maxV minV : Nat) (k : Key) : KeyEffect :=
  match k with
  | .digit d => if 10 * ss.value + d ≤ maxV then .accepts { ss with value := 10 * ss.value + d } else .refuses
  | .doubleZero => if 100 * ss.value ≤ maxV then .accepts { ss with value := 100 * ss.value } else .refuses
  | .back => .accepts { ss with value := ss.value / 10 }
  | .clear => .accepts { ss with value := 0 }
  | .enter => if minV ≤ ss.value then .ends .completed .enter else .refuses
  | .cancel => .ends .cancelled .cancel

/-- R121, R122: a key in a DIGITS or PIN session. -/
def listEffect (ss : Session) (lo hi : Nat) (isPin : Bool) (k : Key) : KeyEffect :=
  match k with
  | .digit d => if ss.digits.length < hi then .accepts { ss with digits := ss.digits ++ [d] } else .refuses
  | .doubleZero =>
    if isPin = false ∧ ss.digits.length + 2 ≤ hi then .accepts { ss with digits := ss.digits ++ [0, 0] } else .refuses
  | .back => .accepts { ss with digits := ss.digits.take (ss.digits.length - 1) }
  | .clear => .accepts { ss with digits := [] }
  | .enter => if lo ≤ ss.digits.length then .ends .completed .enter else .refuses
  | .cancel => .ends .cancelled .cancel

/-- R119 to R123: the effect of a taken key by the field kind. -/
def keyEffect (ss : Session) (k : Key) : KeyEffect :=
  match ss.field with
  | .amount _ maxV minV => amountEffect ss maxV minV k
  | .digits lo hi _ => listEffect ss lo hi false k
  | .pin lo hi => listEffect ss lo hi true k
  | .confirm =>
    match k with
    | .enter => .ends .completed .enter
    | .cancel => .ends .completed .cancel
    | _ => .refuses

/-- R117, R124: a session after a taken key that did not end it. -/
def afterKey (ss : Session) : Session := { ss with active := true, firstTimer := none, interTimer := some (1000 * ss.interKey) }

/-! ## Card contexts (chapter 7) -/

/-- R136: the records held by a context, by ascending track number. -/
def heldBy (c : CardCtx) : List RecId := c.holds.toList.filterMap fun h => h.map Prod.snd

/-- R137: a state in which no context holds tracks, or the pool once those it holds are released. -/
def holdsDropped (s : State) (p : Pos) (st : CardState) : Pool :=
  if st = .reading ∨ st = .read then s.pool else (heldBy s.card[p]).foldl Pool.dropRef s.pool

/-- R137: a context after a change of state. -/
def entered (s : State) (c : CardCtx) (st : CardState) (cause : Cause) (cur : Option (CardCommand × RecId)) (sec : Nat) :
    CardCtx :=
  { c with
    state := st, cause := cause, current := cur, mark := true, latest := s.time.mono
    holds := if st = .reading ∨ st = .read then c.holds else Vector.replicate 3 none
    readTimer := if st = .reading then some (1000 * sec) else none
    takeTimer := if st = .presented then some (1000 * s.profile.takeTimeout) else none
    moveTimer := if st = .ejecting ∨ st = .retaining then some 5000 else none }

/-- R143, R201: the status of a track in a READ_DONE. -/
def trackByte (c : CardCtx) (i : Fin 3) : Byte :=
  if c.mask.getLsbD i.val = false then 4
  else match c.holds[i] with
    | none => 3
    | some (st, _) => st.code

/-- R143, R201: the stored body of a READ_DONE. -/
def readDoneBytes (p : Pos) (c : CardCtx) (o : ReadOutcome) (cause : Cause) (resent : Bool) (reason : Byte) : List Byte :=
  byteOf (p.val + 1)
    :: (match c.reader with
        | some (_, i) => leBytes 6 i.toNat
        | none => List.replicate 6 0)
    ++ [o.code, cause.code, byteOf c.mask.toNat, trackByte c 0, trackByte c 1, trackByte c 2, if resent then 1 else 0, reason]

/-- R138, R141, R146: the bound reader of a position, with its line and address; its line is not STOPPED. -/
def readerServes (s : State) (p : Pos) (e : EntryId) (a : Addr) : Prop :=
  slotOf s .reader p = some e ∧ s.dir[e].addr = some a ∧ s.lines[s.dir[e].line].state ≠ .stopped

/-- R141, R146: no reader is bound, or it has no address, or its line is STOPPED. -/
def readerAway (s : State) (p : Pos) : Prop :=
  ∀ e : EntryId, slotOf s .reader p = some e → s.dir[e].addr = none ∨ s.lines[s.dir[e].line].state = .stopped

/-- R151: the card context of a position when the part becomes UNATTENDED: in PRESENT, READ and READING an EJECT is offered, a read
having ended ABORTED first; every other context is unchanged. -/
def cardClosed (s : State) (p : Pos) : State :=
  if s.card[p].state = .reading then ownCommand (readEnd s p .aborted .unattended 0) p .eject .ejecting .unattended
  else if s.card[p].state = .present ∨ s.card[p].state = .read then ownCommand s p .eject .ejecting .unattended
  else s

/-- R101: a TRACK notice of the Card Engine. -/
def trackEntry (s : State) (p : Pos) (e : EntryId) (r : RecId) (resent : Bool) : Notice :=
  { record := r, kind := .track, tag := 0
    unit := some { identity := s.dir[e].identity, line := s.dir[e].line, addr := s.dir[e].addr, kind := s.dir[e].kind }
    pos := some p, witnessed := false, resent := resent }

/-! ## Profile items (R184, R202) -/

/-- R187: a value outside its range takes the nearer end. -/
def nearest (lo hi n : Nat) : Nat := if n < lo then lo else if hi < n then hi else n

/-- R202: an item in a report: code, index, value. -/
def itemBytesAt (prof : Profile) (it : Item) (pl : Place) : List Byte := it.code :: pl.index :: itemBytes prof it pl

/-- R186, R202: the index byte x names the place pl of an item; an item that is one for the part has the place `whole`, its index byte
not read. -/
def namesPlace (it : Item) (x : Byte) : Place → Prop
  | .whole => it ∉ [Item.lineEnabled, .lineD, .lineS, .pin]
  | .line l => it ∈ [Item.lineEnabled, .lineD, .lineS] ∧ x = byteOf (l.val + 1)
  | .pin k => it = .pin ∧ x = byteOf (k.val + 1)

/-- R186, last check: the value bytes suit an item that has no range. -/
def suits (it : Item) (v : List Byte) : Prop :=
  (it = .lineEnabled → (byteAt v 0).toNat ≤ 1) ∧ (it = .closedText → ∀ b ∈ v, 0x20 ≤ b.toNat ∧ b.toNat ≤ 0x7E) ∧
    (it = .writeLimit → (byteAt v 0).toNat ≤ 3) ∧ (it = .pin → (byteAt v 6).toNat ≤ 8)

/-- R186, R187, R202: the value bytes that an item takes when v is written: in its range, the lost limit above the silence limit, an
emptied pin all 0. -/
def bytesTaken (prof : Profile) (it : Item) (v : List Byte) : List Byte :=
  match it.range with
  | some (lo, hi) =>
    leBytes it.size
      (if it = .lostLimit then max (prof.silenceLimit + 1) (nearest lo hi (leNat v)) else nearest lo hi (leNat v))
  | none => if it = .pin ∧ byteAt v 6 = 0 then List.replicate 7 0 else v

/-- R187: the silence limit taken raises the lost limit. -/
def lostRaised (prof : Profile) (it : Item) (v : List Byte) : Prop :=
  it = .silenceLimit ∧ prof.lostLimit < nearest 1 30 (leNat v) + 1

/-- R186, R187: the profile w is prof with v written into an item at its place, and nothing else changed but a raised lost limit. -/
def itemWritten (prof w : Profile) (it : Item) (pl : Place) (v : List Byte) : Prop :=
  itemBytes w it pl = bytesTaken prof it v ∧ w.screen = prof.screen ∧
    (lostRaised prof it v → itemBytes w .lostLimit .whole = leBytes 2 (nearest 1 30 (leNat v) + 1)) ∧
    ∀ (x : Item) (y : Place), y ∈ x.places → ¬ (x = it ∧ y = pl) → ¬ (x = .lostLimit ∧ lostRaised prof it v) →
      itemBytes w x y = itemBytes prof x y

end Sys2Proof.Machine
end

