-- ==== Sys2Proof/Certificates/Slice0/Obligations.lean ====
section
/-! DEFINITION. The statements for the provers. Where a clause rests on a choice of the model, its docstring names the log entry. -/

open Sys2Proof Sys2Proof.Machine

/-! ## Steps, the queue and time -/

/-- A step takes the command at the front of the queue and has its effect on the rest of the state (log 1). -/
def Obligations.StepTakesTheFrontCommand : Prop :=
  ∀ (c : Instr) (rest : List Instr) (s : State), s.pending = c :: rest → step s = exec c { s with pending := rest }

/-- R155, R159, and logs 2 and 3: with an empty queue a running part passes one millisecond boundary: the count rises by 1, every
timer of the table of R159 comes one boundary nearer and nothing else changes, and the expiries due, one a timer, become the queue in
some order: each timer's expiry is in it exactly when no more than one boundary was left. A part held in reset idles. -/
def Obligations.BoundaryPassesAMillisecond : Prop :=
  ∀ s : State, s.pending = [] →
    (s.running = false → step s = .next s) ∧
    (s.running = true →
      ∃ t : State, step s = .next t ∧
        t = { s with
          pending := t.pending, oracle := t.oracle, time := t.time, lines := t.lines, dir := t.dir, entry := t.entry
          card := t.card } ∧
        t.oracle = s.oracle + t.pending.length ∧ t.pending.Perm (dueExpiries (tickState s)) ∧
        t.time = { s.time with mono := s.time.mono + 1, timer := s.time.timer.map (· - 1) } ∧
        (Instr.attendanceTimerExpiry ∈ t.pending ↔ comesDue s.time.timer) ∧
        (∀ l : LineId,
          t.lines[l] =
            { s.lines[l] with control := s.lines[l].control.map nearerEntry, pass := s.lines[l].pass.map nearerEntry } ∧
          (∀ a : Addr, Instr.ackTimeout l a ∈ t.pending ↔
            ∃ q ∈ s.lines[l].control ++ s.lines[l].pass, q.dest = a ∧ comesDue q.ackTimer) ∧
          ∀ (r : RecId) (a : Addr), Instr.queueLimitExpiry l r a ∈ t.pending ↔
            ∃ q ∈ s.lines[l].control ++ s.lines[l].pass, q.record = r ∧ q.dest = a ∧ comesDue q.limitTimer) ∧
        (∀ e : EntryId,
          t.dir[e] =
            { s.dir[e] with
              grantTimer := s.dir[e].grantTimer.map (· - 1), silenceTimer := s.dir[e].silenceTimer.map (· - 1)
              lostTimer := s.dir[e].lostTimer.map (· - 1) } ∧
          (Instr.grantTimerExpiry e ∈ t.pending ↔ comesDue s.dir[e].grantTimer) ∧
          (Instr.silenceTimerExpiry e ∈ t.pending ↔ comesDue s.dir[e].silenceTimer) ∧
          (Instr.lostTimerExpiry e ∈ t.pending ↔ comesDue s.dir[e].lostTimer)) ∧
        ∀ p : Pos,
          t.entry[p] =
            { s.entry[p] with
              sess := s.entry[p].sess.map fun ss =>
                { ss with firstTimer := ss.firstTimer.map (· - 1), interTimer := ss.interTimer.map (· - 1) }
              guardTimer := s.entry[p].guardTimer.map (· - 1), retryTimer := s.entry[p].retryTimer.map (· - 1) } ∧
          t.card[p] =
            { s.card[p] with
              readTimer := s.card[p].readTimer.map (· - 1), takeTimer := s.card[p].takeTimer.map (· - 1)
              moveTimer := s.card[p].moveTimer.map (· - 1) } ∧
          (Instr.firstKeyTimeout p ∈ t.pending ↔ ∃ ss : Session, s.entry[p].sess = some ss ∧ comesDue ss.firstTimer) ∧
          (Instr.interKeyTimeout p ∈ t.pending ↔ ∃ ss : Session, s.entry[p].sess = some ss ∧ comesDue ss.interTimer) ∧
          (Instr.pinGuardExpiry p ∈ t.pending ↔ comesDue s.entry[p].guardTimer) ∧
          (Instr.displayRetryExpiry p ∈ t.pending ↔ comesDue s.entry[p].retryTimer) ∧
          (Instr.readTimerExpiry p ∈ t.pending ↔ comesDue s.card[p].readTimer) ∧
          (Instr.takeTimerExpiry p ∈ t.pending ↔ comesDue s.card[p].takeTimer) ∧
          (Instr.movementTimerExpiry p ∈ t.pending ↔ comesDue s.card[p].moveTimer))

/-- Every command ends in a next state, with the queue and the count of free choices as they were (log 1); PAUSE, the straps and RESET
change only by their own commands. The model's choices in it: the straps move at POWER_ON and RESET_RELEASED alone, not at the
start-up of a RESTART, which samples them too by R196 (log 8); a reset keeps the waiting commands, PAUSE and the straps (log 27). -/
def Obligations.CommandsLeaveTheQueue : Prop :=
  ∀ (c : Instr) (s : State), ∃ t : State, exec c s = .next t ∧ t.pending = s.pending ∧ t.oracle = s.oracle ∧
    (c ≠ .pauseAsserted → c ≠ .pauseReleased → t.pausePin = s.pausePin) ∧
    ((∀ h x, c ≠ .powerOn h x) → (∀ x, c ≠ .resetReleased x) →
      t.straps = s.straps ∧ (c ≠ .resetAsserted → t.resetPin = s.resetPin))

/-! ## Reset and start-up (10.5) -/

/-- R195 with R22, R49, R69, R90, R111, R135, R154, R166, R183, R193: RESET_ASSERTED, and a POWER_ON that finds RESET held, leave
every block in its reset state, the store kept and an interrupted commit dropped; an asserted RESET asserted again does nothing;
and the reset state has the values that the reset rules give. The model's choices in it: an asserted RESET asserted again does
nothing, and pins, profile, rate, outcome and waiting commands are kept (log 27); chunk bytes are kept, through a power-on too
(log 9); the fields that no rule states (logs 26 and 39). -/
def Obligations.ResetLeavesEveryBlockReset : Prop :=
  (∀ s : State, s.resetPin = false → ∃ t : State, exec .resetAsserted s = .next t ∧ inReset t ∧
    t = { s with
      running := false, resetPin := true, resetCause := .resetPin, time := t.time, pool := t.pool, lines := t.lines, dir := t.dir
      w0 := [], w1 := [], w2 := [], fanouts := [], hits := t.hits, entry := t.entry, card := t.card, link := t.link
      store := { s.store with commit := none } } ∧
    t.pool.mem = s.pool.mem) ∧
  (∀ (s : State) (x : Straps), ∃ t : State, exec (.powerOn true x) s = .next t ∧ inReset t ∧
    t = { s with
      running := false, resetPin := true, straps := x, resetCause := .powerOn, time := t.time, pool := t.pool, lines := t.lines
      dir := t.dir, w0 := [], w1 := [], w2 := [], fanouts := [], hits := t.hits, entry := t.entry, card := t.card, link := t.link
      store := { s.store with commit := none } } ∧
    t.pool.mem = s.pool.mem) ∧
  (∀ s : State, s.resetPin = true → exec .resetAsserted s = .next s) ∧
  ∀ s : State, inReset s →
    s.pool.chunksFree = 256 ∧ s.pool.recsFree = 64 ∧ s.pool.free = List.range 256 ∧ s.pool.lowF = 256 ∧ s.pool.lowG = 64 ∧
    s.pool.refLimit = 0 ∧ (∀ i : Fin 9, s.pool.refusals[i] = 0) ∧
    (∀ r : RecId, s.pool.recs[r].state = .free ∧ s.pool.recs[r].refs = 0 ∧ s.pool.recs[r].promise = none) ∧
    (∀ l : LineId, s.lines[l].state = .stopped ∧ s.lines[l].idle = false ∧ s.lines[l].rx = .hunting ∧ s.lines[l].tx = none ∧
      s.lines[l].queued = [] ∧ s.lines[l].acks = [] ∧ s.lines[l].mark = false ∧ s.lines[l].latest = 0 ∧
      s.lines[l].timing = none ∧ (∀ n ∈ s.lines[l].counters.toList, n = 0) ∧ ∀ a : Fin 16, s.lines[l].whoAt[a] = none) ∧
    (∀ e : EntryId, s.dir[e].state = .free ∧ s.dir[e].identity = 0 ∧ s.dir[e].addr = none ∧ s.dir[e].pos = none ∧
      s.dir[e].pinned = false ∧ s.dir[e].established = false ∧ s.dir[e].kind = .reader ∧ s.dir[e].line = 0 ∧
      s.dir[e].lastHeard = 0 ∧ s.dir[e].latest = 0 ∧ s.dir[e].grantAttempts = 0 ∧ s.dir[e].outBit = false ∧
      s.dir[e].inBit = none ∧ s.dir[e].condition = .ok ∧ s.dir[e].grantTimer = none ∧ s.dir[e].silenceTimer = none ∧
      s.dir[e].lostTimer = none ∧ s.dir[e].mark = false ∧ s.pool.unitHeld e = 0) ∧
    (∀ p : Pos, s.entry[p].sess = none ∧ s.entry[p].target = none ∧ s.entry[p].dispPending = false ∧
      s.entry[p].pendTone = .none ∧ s.entry[p].retryTimer = none ∧ s.entry[p].guardTimer = none ∧
      s.entry[p].wanted = { line1 := List.replicate 16 0x20, line2 := List.replicate 16 0x20 }) ∧
    (∀ p : Pos, s.card[p].state = .empty ∧ s.card[p].cause = .reset ∧ s.card[p].mask = 0 ∧ s.card[p].tag = 0 ∧
      s.card[p].result = none ∧ s.card[p].current = none ∧ s.card[p].readTimer = none ∧ s.card[p].takeTimer = none ∧
      s.card[p].moveTimer = none ∧ s.card[p].mark = false ∧ ∀ i : Fin 3, s.card[p].holds[i] = none) ∧
    s.time.mono = 0 ∧ s.time.offset = 0 ∧ s.time.attended = true ∧ s.time.latest = 0 ∧ s.time.mark = false ∧
    s.time.timer = none ∧ s.pool.wsHeld = 0 ∧ (∀ i : EntryId, s.hits[i] = 0) ∧
    s.link.rxOn = false ∧ s.link.asm = [] ∧ s.link.tx = none ∧ s.link.order = [] ∧ s.link.restartPending = false ∧
    s.link.dropped = 0 ∧ s.link.damaged = 0 ∧ (∀ i : SlotId, s.link.slots[i].state = .free) ∧ s.hold = true

/-- R195 to R197, R182: start-up follows the release of RESET, a POWER_ON that does not find RESET held, and the end of the reply
of a pending RESTART; it leaves the part as the seven steps of R196 say, the START notice alone on W0. The model's
choices in it: how commands come (log 4); the straps are operands of POWER_ON and RESET_RELEASED, and the start-up of a RESTART
samples the levels of the start-up before it (log 8); the waiting commands and PAUSE are kept (log 27); what the default screen list
holds where R91 is silent (log 34); the link receiver awaits no mark level (log 39). -/
def Obligations.StartUpFollowsReset : Prop :=
  ∀ (s : State) (x : Straps), memorySound s.pool → storeSound s.store →
    (s.resetPin = true → inReset s → ∃ t : State, exec (.resetReleased x) s = .next (settleLink t) ∧
      startedUp s.resetCause x s.store t ∧ t.pending = s.pending ∧ t.oracle = s.oracle ∧ t.pausePin = s.pausePin) ∧
    (∃ t : State, exec (.powerOn false x) s = .next (settleLink t) ∧
      startedUp .powerOn x s.store t ∧ t.pending = s.pending ∧ t.oracle = s.oracle ∧ t.pausePin = s.pausePin) ∧
    (∀ (i : SlotId) (bytes : List Byte), s.running = true → s.resetPin = false → s.link.restartPending = true →
      s.link.tx = some { src := .reply i, bytes := bytes } → s.link.slots[i].type = 0x03 → s.link.slots[i].status = .ok →
      ∃ t : State, exec .linkRecordSent s = .next (settleLink t) ∧
        startedUp .restart s.straps s.store t ∧ t.pending = s.pending ∧ t.oracle = s.oracle ∧ t.pausePin = s.pausePin)

/-! ## The link transmitter (5.5, 5.6, 9.6) -/

/-- R106, R178: PAUSE_ASSERTED sets PAUSE and leaves a record being sent to run on; PAUSE_RELEASED is an occasion of choice of a
running part; and the transmitter begins nothing under PAUSE or while a record is being sent. -/
def Obligations.PauseGatesTheTransmitter : Prop :=
  (∀ s : State, exec .pauseAsserted s = .next { s with pausePin := true }) ∧
  (∀ s : State, s.running = true → exec .pauseReleased s = .next (settleLink { s with pausePin := false })) ∧
  (∀ s : State, s.running = false → exec .pauseReleased s = .next { s with pausePin := false }) ∧
  (∀ s : State, s.pausePin = true ∨ s.link.tx.isSome = true → settleLink s = s)

/-- R106, R178: over every step on which PAUSE stays asserted, the record being sent stays the same or ends; none is begun. -/
def Obligations.PausedLinkBeginsNoRecord : Prop :=
  ∀ s t : State, s.pausePin = true → step s = .next t → t.pausePin = true → t.link.tx = s.link.tx ∨ t.link.tx = none

/-- R106 (first place), R168, R176 to R178: when the transmitter chooses, the oldest finished reply goes first: its slot becomes
SENDING, the two counts are written into it and become 0; and every record is built with a check that makes its sum 0. -/
def Obligations.OldestReplyLeavesFirst : Prop :=
  (∀ (s : State) (i : SlotId) (earlier later : List SlotId), s.running = true → s.link.tx = none →
    s.link.order = earlier ++ i :: later → s.link.slots[i].state = .replied →
    (∀ j ∈ earlier, s.link.slots[j].state ≠ .replied) →
    exec .pauseReleased s = .next
      { s with
        pausePin := false
        link :=
          { s.link with
            slots := s.link.slots.set i { s.link.slots[i] with state := .sending }
            dropped := 0
            damaged := 0
            tx := some
              { src := .reply i
                bytes := linkRecord (s.link.slots[i].type + 0x40) s.link.slots[i].tag
                  (s.link.slots[i].status.code :: byteOf s.link.dropped :: byteOf s.link.damaged
                    :: s.link.slots[i].fields) } } }) ∧
  ∀ (type tag : Byte) (body : List Byte),
    (linkRecord type tag body).take 4 = [0xC3, type, tag, byteOf body.length] ∧
      (linkRecord type tag body).length = body.length + 5 ∧ byteSum ((linkRecord type tag body).drop 1) = 0

/-- R106 (second place), R107, R110, R46, R89, R152, R165, R201: with no finished reply, the first mark in the scan order yields
its state notice: the mark is cleared, and the notice carries the item as it stands, the time of its latest change and age 0. Where the
START notice still waits on W0, PAUSE having held the link after a start-up, the clauses are the model's choice (log 41): R183 makes
START the first record, and R106 puts the marks before W0. -/
def Obligations.StateNoticeFollowsReplies : Prop :=
  ∀ s : State, s.running = true → s.link.tx = none → (∀ i ∈ s.link.order, s.link.slots[i].state ≠ .replied) →
    (∀ e : EntryId, s.dir[e].mark = true → (∀ f < e, s.dir[f].mark = false) →
      exec .pauseReleased s = .next
        { s with
          pausePin := false
          dir := s.dir.set e { s.dir[e] with mark := false }
          link := sending s .mark (linkRecord 0xA0 0 (leBytes 4 (s.dir[e].latest + s.time.offset).toNat ++ [0, 0, byteOf e.val]
                ++ identityBytes s.dir[e].identity
                ++ [s.dir[e].kind.code, s.dir[e].state.code, lineByte s.dir[e].line, addrByte s.dir[e].addr, posByte s.dir[e].pos,
                    boolByte s.dir[e].pinned, s.dir[e].condition.code])) }) ∧
    ((∀ e : EntryId, s.dir[e].mark = false) →
      (∀ l : LineId, s.lines[l].mark = true → (∀ k < l, s.lines[k].mark = false) →
        exec .pauseReleased s = .next
          { s with
            pausePin := false
            lines := s.lines.set l { s.lines[l] with mark := false }
            link := sending s .mark (linkRecord 0xA1 0 (leBytes 4 (s.lines[l].latest + s.time.offset).toNat
                  ++ [0, 0, lineByte l, s.lines[l].state.code, s.lines[l].state.rememberedCode])) }) ∧
      ((∀ l : LineId, s.lines[l].mark = false) →
        (∀ p : Pos, s.card[p].mark = true → (∀ q < p, s.card[q].mark = false) →
          exec .pauseReleased s = .next
            { s with
              pausePin := false
              card := s.card.set p { s.card[p] with mark := false }
              link := sending s .mark (linkRecord 0xA2 0 (leBytes 4 (s.card[p].latest + s.time.offset).toNat
                    ++ [0, 0, posByte (some p), boolByte (slotIdentity s .reader p).isSome]
                    ++ identityBytes ((slotIdentity s .reader p).getD 0)
                    ++ [s.card[p].state.code, s.card[p].cause.code, cardTrackByte s.card[p] 0, cardTrackByte s.card[p] 1,
                        cardTrackByte s.card[p] 2])) }) ∧
        ((∀ p : Pos, s.card[p].mark = false) → s.time.mark = true →
          exec .pauseReleased s = .next
            { s with
              pausePin := false
              time := { s.time with mark := false }
              link := sending s .mark (linkRecord 0xA3 0 (leBytes 4 (s.time.latest + s.time.offset).toNat
                    ++ [0, 0, attendanceCode s.time.attended, byteOf s.profile.wsSilence])) })))

/-- R106 (third to sixth places), R108, R109, R201: with no finished reply and no mark, the head of W0 goes, then the head of W2
if its age exceeds the bulk age limit, then the head of W1, then the head of W2; the entry leaves its queue, and its notice is
stamped with its arrival in counter time, by the offset then in force, and its age, 65,535 when resent. (So is a START notice that PAUSE
held back until a TIME_SET was handled, where R166 and R197 report offset 0: model choice, log 44.) -/
def Obligations.NoticeQueuesInServiceOrder : Prop :=
  (∀ s : State, s.running = true → s.link.tx = none → (∀ i ∈ s.link.order, s.link.slots[i].state ≠ .replied) →
    (∀ e : EntryId, s.dir[e].mark = false) → (∀ l : LineId, s.lines[l].mark = false) → (∀ p : Pos, s.card[p].mark = false) →
    s.time.mark = false →
    (∀ n rest, s.w0 = n :: rest → exec .pauseReleased s = .next
      { s with
        pausePin := false, w0 := rest
        link := sending s (.notice n.record) (noticeRecord s n) }) ∧
    (s.w0 = [] →
      (∀ n rest, s.w2 = n :: rest → s.profile.bulkAge < elapsed s.time.mono s.pool.recs[n.record].arrival →
        exec .pauseReleased s = .next
          { s with
            pausePin := false, w2 := rest
            link := sending s (.notice n.record) (noticeRecord s n) }) ∧
      ((∀ m ∈ s.w2.head?, elapsed s.time.mono s.pool.recs[m.record].arrival ≤ s.profile.bulkAge) →
        (∀ n rest, s.w1 = n :: rest → exec .pauseReleased s = .next
          { s with
            pausePin := false, w1 := rest
            link := sending s (.notice n.record) (noticeRecord s n) }) ∧
        (s.w1 = [] → ∀ n rest, s.w2 = n :: rest → exec .pauseReleased s = .next
          { s with
            pausePin := false, w2 := rest
            link := sending s (.notice n.record) (noticeRecord s n) }) ∧
        (s.w1 = [] → s.w2 = [] → exec .pauseReleased s = .next { s with pausePin := false })))) ∧
  ∀ (s : State) (n : Notice),
    noticeRecord s n = linkRecord n.kind.code n.tag
      (leBytes 4 (s.pool.recs[n.record].arrival + s.time.offset).toNat
        ++ leBytes 2 (if n.resent then 65535 else min 65535 (s.time.mono - s.pool.recs[n.record].arrival).toNat)
        ++ (if n.kind = .key ∨ n.kind = .cardMove ∨ n.kind = .track ∨ n.kind = .alert ∨ n.kind = .data then
              byteOf (n.witnessed.toNat + 2 * n.resent.toNat) :: posByte n.pos
                :: (match n.unit with
                  | some u => identityBytes u.identity ++ [lineByte u.line, addrByte u.addr, u.kind.code]
                  | none => List.replicate 9 0)
                ++ [byteOf s.pool.recs[n.record].urg.toNat]
            else [])
        ++ s.pool.body n.record)

/-- R178, R173, R14: at the end of a record's check byte a reply's slot becomes FREE and leaves the taking order, a notice's
reference is released (at its last one the record and its chunks return to the pool), a state notice ends; then the transmitter
chooses again. The reply of a pending RESTART is another statement's. -/
def Obligations.SentRecordFreesItsHolder : Prop :=
  ∀ (s : State) (bytes : List Byte), s.running = true →
    (∀ i : SlotId, s.link.tx = some { src := .reply i, bytes := bytes } →
      ¬ (s.link.restartPending = true ∧ s.link.slots[i].type = 0x03 ∧ s.link.slots[i].status = .ok) →
      exec .linkRecordSent s = .next (settleLink
        { s with link :=
          { s.link with
            tx := none
            slots := s.link.slots.set i { s.link.slots[i] with state := .free }
            order := s.link.order.filter fun j => j != i } })) ∧
    (∀ r : RecId, s.link.tx = some { src := .notice r, bytes := bytes } → 2 ≤ s.pool.recs[r].refs →
      exec .linkRecordSent s = .next (settleLink
        { s with
          link := { s.link with tx := none }
          pool := { s.pool with recs := s.pool.recs.set r { s.pool.recs[r] with refs := s.pool.recs[r].refs - 1 } } })) ∧
    (∀ r : RecId, s.link.tx = some { src := .notice r, bytes := bytes } → s.pool.recs[r].refs = 1 →
      exec .linkRecordSent s = .next (settleLink
        { s with
          link := { s.link with tx := none }
          pool :=
            { s.pool with
              free := s.pool.free ++ s.pool.recs[r].chunks
              recs := s.pool.recs.set r
                { s.pool.recs[r] with state := .free, refs := 0, chunks := [], promise := none } } })) ∧
    (s.link.tx = some { src := .mark, bytes := bytes } →
      exec .linkRecordSent s = .next (settleLink { s with link := { s.link with tx := none } }))

/-! ## The receiver of the link (9.3, 9.4) -/

/-- R169, R171: HUNTING discards a byte other than the lead, and a lead opens a record; the bytes after it are stored while the
record is neither complete nor abandoned; a framing error or a gap abandons an open record, counts it and makes no rescan; a
framing error in HUNTING is not counted. R167: a false start is ignored; after a framing error no start edge is seen until the link
has returned to mark; and TXD carries each byte of a record in its ten bits, at mark when no record is sent. (The level before a
character is its operand, log 39.) -/
def Obligations.LinkBytesAssemble : Prop :=
  (∀ (k : Link) (x : LinkTx) (n j : Nat), k.tx = none ∨ (k.tx = some x ∧ x.bytes.length ≤ n) → k.txd n j = true) ∧
  (∀ (k : Link) (x : LinkTx) (n : Nat), k.tx = some x → n < x.bytes.length →
    (List.range 10).map (k.txd n) = false :: ((List.range 8).map (x.bytes.getD n 0).getLsbD ++ [true])) ∧
  ∀ s : State, s.running = true → s.link.rxOn = true →
    (∀ (c : LinkChar) (b : Byte), bringsByte s.link c b →
      (s.link.asm = [] → b ≠ 0xC3 → exec (.linkByteReceived c) s = .next { s with link := { s.link with awaitMark := false } }) ∧
      (s.link.asm = [] → b = 0xC3 →
        exec (.linkByteReceived c) s = .next { s with link := { s.link with asm := [0xC3], awaitMark := false } }) ∧
      (s.link.asm = [0xC3] →
        exec (.linkByteReceived c) s = .next { s with link := { s.link with asm := [0xC3, b], awaitMark := false } }) ∧
      (∀ t : Byte, s.link.asm = [0xC3, t] →
        exec (.linkByteReceived c) s = .next { s with link := { s.link with asm := [0xC3, t, b], awaitMark := false } }) ∧
      (∀ t g : Byte, s.link.asm = [0xC3, t, g] → b.toNat ≤ 250 →
        exec (.linkByteReceived c) s = .next { s with link := { s.link with asm := [0xC3, t, g, b], awaitMark := false } }) ∧
      ∀ (t g n : Byte) (body : List Byte), s.link.asm = 0xC3 :: t :: g :: n :: body → n.toNat ≤ 250 → body.length < n.toNat →
        exec (.linkByteReceived c) s =
          .next { s with link := { s.link with asm := 0xC3 :: t :: g :: n :: (body ++ [b]), awaitMark := false } }) ∧
    (∀ c : LinkChar, c.marked = true ∨ s.link.awaitMark = false → c.start = true →
      exec (.linkByteReceived c) s = .next { s with link := { s.link with awaitMark := false } }) ∧
    (∀ c : LinkChar, c.marked = true ∨ s.link.awaitMark = false → c.start = false → c.stop = false →
      exec (.linkFramingError c) s = .next
        { s with
          link :=
            { s.link with
              asm := [], awaitMark := true
              damaged := if s.link.asm = [] then s.link.damaged else min 255 (s.link.damaged + 1) } }) ∧
    (∀ c : LinkChar, c.marked = false → s.link.awaitMark = true →
      ∀ i ∈ [Instr.linkByteReceived c, .recordReceived c, .recordDamaged c, .linkFramingError c], exec i s = .next s) ∧
    (s.link.asm ≠ [] → exec .linkGapExpiry s =
      .next { s with link := { s.link with asm := [], damaged := min 255 (s.link.damaged + 1) } })

/-- R162, R164, R172, R173, R177, R182: the check byte of a well-formed record ends an UNATTENDED state and arms the attendance
timer; a request is taken into the lowest FREE slot, at the tail of the taking order; a record that is no request, or finds no slot
FREE, or a RESTART pending, is dropped and counted, and nothing else of it acts. -/
def Obligations.WellFormedRecordIsSettled : Prop :=
  (∀ (s : State) (c : LinkChar) (t g n b : Byte) (body : List Byte) (i : SlotId), bringsByte s.link c b →
     s.running = true → s.link.rxOn = true → s.link.asm = 0xC3 :: t :: g :: n :: body → body.length = n.toNat → n.toNat ≤ 250 →
     byteSum (t :: g :: n :: body ++ [b]) = 0 → 1 ≤ t.toNat → t.toNat ≤ 0x3F → s.link.restartPending = false →
     s.link.slots[i].state = .free → (∀ j < i, s.link.slots[j].state ≠ .free) →
     exec (.recordReceived c) s = .next (settleLink
       { s with
         time := afterRecord s
         link :=
           { s.link with
             asm := [], awaitMark := false
             slots := s.link.slots.set i
               { state := .taken, type := t, tag := g, body := body, status := .ok, fields := [] }
             order := s.link.order ++ [i] } })) ∧
  (∀ (s : State) (c : LinkChar) (t g n b : Byte) (body : List Byte), bringsByte s.link c b →
     s.running = true → s.link.rxOn = true → s.link.asm = 0xC3 :: t :: g :: n :: body → body.length = n.toNat → n.toNat ≤ 250 →
     byteSum (t :: g :: n :: body ++ [b]) = 0 →
     (t.toNat = 0 ∨ 0x40 ≤ t.toNat ∨ s.link.restartPending = true ∨ ∀ i : SlotId, s.link.slots[i].state ≠ .free) →
     exec (.recordReceived c) s = .next (settleLink
       { s with
         time := afterRecord s
         link := { s.link with asm := [], awaitMark := false, dropped := min 255 (s.link.dropped + 1) } }))

/-- R170, R177: a length above 250, or a failed check, abandons the record and counts it; of its stored bytes the first lead opens
a new record, which stays open when the bytes run out, or is abandoned in its turn, counted, and rescanned from the byte after its
own lead, or is settled when it is well formed, taken or dropped, the bytes behind it taken in HUNTING; with no lead among them the
receiver is HUNTING. The first clause covers every such run of bytes; the others spell out its plain cases. -/
def Obligations.DamagedRecordIsRescanned : Prop :=
  ∀ (s : State) (c : LinkChar) (inner : List Byte) (b : Byte), bringsByte s.link c b → s.running = true →
    s.link.rxOn = true → s.link.asm = 0xC3 :: inner → damagedBy inner b →
    (∃ t : State, Rescanned (inner ++ [b])
        { s with link := { s.link with asm := [], awaitMark := false, damaged := min 255 (s.link.damaged + 1) } } t ∧
      exec (.recordDamaged c) s = .next (settleLink t)) ∧
    (∀ t : State, Rescanned (inner ++ [b])
        { s with link := { s.link with asm := [], awaitMark := false, damaged := min 255 (s.link.damaged + 1) } } t →
      exec (.recordDamaged c) s = .next (settleLink t)) ∧
    ((0xC3 : Byte) ∉ inner ++ [b] → exec (.recordDamaged c) s = .next (settleLink
      { s with link := { s.link with asm := [], awaitMark := false, damaged := min 255 (s.link.damaged + 1) } })) ∧
    (∀ before rest : List Byte, inner ++ [b] = before ++ 0xC3 :: rest → (0xC3 : Byte) ∉ before → stillOpen rest →
      exec (.recordDamaged c) s = .next (settleLink
        { s with link := { s.link with asm := 0xC3 :: rest, awaitMark := false, damaged := min 255 (s.link.damaged + 1) } })) ∧
    (∀ (before body : List Byte) (t g n k : Byte) (i : SlotId),
      inner ++ [b] = before ++ 0xC3 :: t :: g :: n :: (body ++ [k]) → (0xC3 : Byte) ∉ before → body.length = n.toNat →
      n.toNat ≤ 250 → byteSum (t :: g :: n :: body ++ [k]) = 0 → 1 ≤ t.toNat → t.toNat ≤ 0x3F →
      s.link.restartPending = false → s.link.slots[i].state = .free → (∀ j < i, s.link.slots[j].state ≠ .free) →
      exec (.recordDamaged c) s = .next (settleLink
        { s with
          time := afterRecord s
          link :=
            { s.link with
              asm := [], awaitMark := false
              damaged := min 255 (s.link.damaged + 1)
              slots := s.link.slots.set i
                { state := .taken, type := t, tag := g, body := body, status := .ok, fields := [] }
              order := s.link.order ++ [i] } })) ∧
    (∀ (before body : List Byte) (t g n k : Byte),
      inner ++ [b] = before ++ 0xC3 :: t :: g :: n :: (body ++ [k]) → (0xC3 : Byte) ∉ before → body.length = n.toNat →
      n.toNat ≤ 250 → byteSum (t :: g :: n :: body ++ [k]) = 0 →
      (t.toNat = 0 ∨ 0x40 ≤ t.toNat ∨ s.link.restartPending = true ∨ ∀ i : SlotId, s.link.slots[i].state ≠ .free) →
      exec (.recordDamaged c) s = .next (settleLink
        { s with
          time := afterRecord s
          link :=
            { s.link with
              asm := [], awaitMark := false
              damaged := min 255 (s.link.damaged + 1)
              dropped := min 255 (s.link.dropped + 1) } })) ∧
    ∀ (before inner' rest before' rest' : List Byte) (b' : Byte),
      inner ++ [b] = before ++ 0xC3 :: (inner' ++ b' :: rest) → (0xC3 : Byte) ∉ before → damagedBy inner' b' →
      ((0xC3 : Byte) ∉ inner' ++ b' :: rest → exec (.recordDamaged c) s = .next (settleLink
        { s with link := { s.link with asm := [], awaitMark := false, damaged := min 255 (s.link.damaged + 2) } })) ∧
      (inner' ++ b' :: rest = before' ++ 0xC3 :: rest' → (0xC3 : Byte) ∉ before' → stillOpen rest' →
        exec (.recordDamaged c) s = .next (settleLink
          { s with
            link := { s.link with asm := 0xC3 :: rest', awaitMark := false, damaged := min 255 (s.link.damaged + 2) } }))

/-! ## The device, time and pool requests (1.8, 8.1, 9.4, 9.5, 9.8) -/

/-- R174 to R176, R180 to R182, R203: IDENTIFY and DEVICE_STATUS are answered OK with their fields, a body that is not empty BAD_LENGTH, a
type that names no request UNKNOWN_REQUEST; RESTART finishes its reply OK and becomes pending, which asserts HOLD; while it is
pending no request is handled, and by R164 none while the part is UNATTENDED: one that was TAKEN before waits (log 38). -/
def Obligations.DeviceRequestsAnswer : Prop :=
  (∀ (s : State) (i : SlotId) (body : List Byte),
     (asks s i 0x01 [] → exec .identify s =
       .next (settleLink (replied s i .ok [0x30, 0x03, 0x01, 0x00, 0x04, byteOf s.linkRate.toNat]))) ∧
     (asks s i 0x02 [] → exec .deviceStatus s =
       .next (settleLink (replied s i .ok
         ([if s.time.attended then 0 else 1, byteOf s.profile.wsSilence] ++ leBytes 4 s.time.mono.toNat
           ++ [s.resetCause.code, s.profileOutcome.code, s.store.state.code, if s.store.commit.isSome then 1 else 0]
           ++ leBytes 2 s.pool.chunksFree
           ++ [byteOf s.pool.recsFree, byteOf ((List.finRange 4).countP fun j => s.link.slots[j].state != .free),
               if 3 ≤ ((List.finRange 4).countP fun j => s.link.slots[j].state != .free) ∨ s.link.restartPending = true ∨
                 s.link.rxOn = false then 1 else 0,
               s.lines[(0 : LineId)].state.code, s.lines[(1 : LineId)].state.code, s.lines[(2 : LineId)].state.code,
               s.lines[(3 : LineId)].state.code])))) ∧
     (body ≠ [] → asks s i 0x01 body → exec .identify s = .next (settleLink (replied s i .badLength []))) ∧
     (body ≠ [] → asks s i 0x02 body → exec .deviceStatus s = .next (settleLink (replied s i .badLength []))) ∧
     ∀ ty : Byte,
       ty ∉ ([0x01, 0x02, 0x03, 0x04, 0x05, 0x08, 0x09, 0x0A, 0x0C, 0x10, 0x11, 0x12, 0x13, 0x14, 0x18, 0x19, 0x1A, 0x20, 0x21,
         0x22, 0x28, 0x29, 0x2A, 0x2B, 0x2C, 0x30, 0x31, 0x32, 0x33] : List Byte) →
       asks s i ty body → exec .unknownRequest s = .next (settleLink (replied s i .unknownRequest []))) ∧
  ((∀ (s : State) (i : SlotId), asks s i 0x03 [] →
     exec .restart s = .next (settleLink (replied { s with link := { s.link with restartPending := true } } i .ok []))) ∧
   (∀ (s : State) (i : SlotId) (body : List Byte), body ≠ [] → asks s i 0x03 body →
     exec .restart s = .next (settleLink (replied s i .badLength []))) ∧
   (∀ s : State, s.link.restartPending = true → s.hold = true) ∧
   ∀ s : State, s.link.restartPending = true ∨ s.time.attended = false →
     (∀ h : Option Ms, exec (.lineStopDrain h) s = .next s) ∧
     ∀ c ∈ [Instr.unknownRequest, .identify, .deviceStatus, .restart, .timeSet, .timeGet, .lineStart, .lineStopForce,
         .lineStatus, .poolStatus, .unitList, .unitInfo, .unitBind, .unitUnbind, .unitForget, .screenSet,
         .screenGet, .unitSend, .entryOpen, .entryCancel, .entryStatus, .cardRead, .cardResend, .cardEject, .cardRetain,
         .cardStatus, .profileSet, .profileGet, .profileCommit, .profileLoad],
       exec c s = .next s)

/-- R156, R157: TIME_SET with four bytes makes the offset the value given less the monotonic count, and replies the count and the
counter time before the change; a body of another length is refused with BAD_LENGTH, the offset unchanged. -/
def Obligations.TimeSetMovesTheOffset : Prop :=
  (∀ (s : State) (i : SlotId) (a b c d : Byte), asks s i 0x04 [a, b, c, d] →
    exec .timeSet s = .next (settleLink (replied
      { s with time :=
        { s.time with
          offset := BitVec.ofNat 32 (a.toNat + 256 * b.toNat + 65536 * c.toNat + 16777216 * d.toNat) - s.time.mono } }
      i .ok (leBytes 4 s.time.mono.toNat ++ leBytes 4 (s.time.mono + s.time.offset).toNat)))) ∧
  ∀ (s : State) (i : SlotId) (body : List Byte), body.length ≠ 4 → asks s i 0x04 body →
    exec .timeSet s = .next (settleLink (replied s i .badLength []))

/-- R158: TIME_GET with an empty body replies OK with the counter time, the monotonic count and the offset as they stand in the
handling; another body is refused with BAD_LENGTH. It changes nothing but its slot, and its fields stand there while the reply
waits. -/
def Obligations.TimeGetReports : Prop :=
  ∀ (s : State) (i : SlotId) (body : List Byte),
    (asks s i 0x05 [] → exec .timeGet s =
      .next (settleLink (replied s i .ok
        (leBytes 4 (s.time.mono + s.time.offset).toNat ++ leBytes 4 s.time.mono.toNat ++ leBytes 4 s.time.offset.toNat)))) ∧
    (body ≠ [] → asks s i 0x05 body → exec .timeGet s = .next (settleLink (replied s i .badLength [])))

/-- R20, R203: POOL_STATUS with option 0 or 1 replies OK with the counts of the pool as they stand in the handling, in the layout of
R203; option 1 then clears the ten counters and sets the lowest F and G to the current ones; any other length is BAD_LENGTH and
any other value BAD_PARAMETER, the pool unchanged. The chunks in use by the three classes add up to 256 - F. -/
def Obligations.PoolStatusReports : Prop :=
  (∀ (s : State) (i : SlotId) (o : Byte), asks s i 0x0C [o] → o.toNat ≤ 1 →
    exec .poolStatus s = .next (settleLink (replied
      (if o = 0 then s
        else
          { s with pool :=
            { s.pool with
              refusals := Vector.replicate 9 0, refLimit := 0, lowF := s.pool.chunksFree, lowG := s.pool.recsFree } })
      i .ok
      (leBytes 2 s.pool.chunksFree ++ [byteOf s.pool.recsFree] ++ leBytes 2 s.pool.lowF ++ [byteOf s.pool.lowG]
        ++ [byteOf (s.pool.recsIn .filling), byteOf (s.pool.recsIn .reserved), byteOf (s.pool.recsIn .stored)]
        ++ leBytes 2 (s.pool.chunksOf fun r => r.cls == 0) ++ leBytes 2 (s.pool.chunksOf fun r => r.cls == 1)
        ++ leBytes 2 (s.pool.chunksOf fun r => r.cls == 2)
        ++ [byteOf s.profile.reserve0, byteOf s.profile.reserve1, byteOf s.profile.unitQuota, byteOf s.profile.wsQuota]
        ++ [byteOf (min s.pool.wsHeld 255)] ++ ((List.finRange 16).map fun e => byteOf (min (s.pool.unitHeld e) 255))
        ++ ((List.finRange 9).flatMap fun k => leBytes 2 s.pool.refusals[k]) ++ leBytes 2 s.pool.refLimit)))) ∧
  (∀ (s : State) (i : SlotId) (body : List Byte), asks s i 0x0C body → body.length ≠ 1 →
    exec .poolStatus s = .next (settleLink (replied s i .badLength []))) ∧
  (∀ (s : State) (i : SlotId) (o : Byte), asks s i 0x0C [o] → 1 < o.toNat →
    exec .poolStatus s = .next (settleLink (replied s i .badParameter []))) ∧
  ∀ p : Pool, chunksSound p →
    (p.chunksOf fun r => r.cls == 0) + (p.chunksOf fun r => r.cls == 1) + (p.chunksOf fun r => r.cls == 2) =
      256 - p.chunksFree

/-! ## The requests of the lines (2.6, 2.7) -/

/-- R24, R40, R83: LINE_START of a STOPPED line: ACTIVE, not idle, timing read from the profile, hunting, a general-call WHO queued
when the pool admits it, the lost timers of the line's SILENT entries armed, the mark set; every refusal changes nothing. -/
def Obligations.LineStartBeginsService : Prop :=
  (∀ (s : State) (i : SlotId) (l : LineId), asks s i 0x08 [byteOf (l.val + 1)] → s.lines[l].state = .stopped →
    ∃ t : State, exec .lineStart s = .next (settle (replied t i .ok [])) ∧
      t = { s with pool := t.pool, lines := t.lines, dir := t.dir } ∧ (∀ k ≠ l, t.lines[k] = s.lines[k]) ∧
      t.lines[l] =
        { s.lines[l] with
          state := .active, timing := some { d := s.profile.lines[l].d, s := s.profile.lines[l].s }
          idle := false, rx := .hunting, mark := true, latest := s.time.mono, control := t.lines[l].control } ∧
      (∀ e : EntryId, t.dir[e] =
        if s.dir[e].state = .silent ∧ s.dir[e].line = l then
          { s.dir[e] with lostTimer := some (1000 * s.profile.lostLimit) }
        else s.dir[e]) ∧
      (admissible s.profile s.pool 2 1 .part → ∃ r : RecId,
        granted s.pool t.pool r
          { cls := 2, need := 1, origin := .part, kind := .frame .who, urg := 2, arrival := s.time.mono, state := .stored,
            promise := none } ∧
        t.lines[l].control = s.lines[l].control ++ [whoEntry s.time.mono s.profile.queueLimit r]) ∧
      ∀ k : Fin 9, refusedAt s.profile s.pool 2 1 .part k →
        t.pool = counted s.pool k ∧ t.lines[l].control = s.lines[l].control) ∧
  (∀ (s : State) (i : SlotId) (l : LineId), asks s i 0x08 [byteOf (l.val + 1)] → s.lines[l].state ≠ .stopped →
    exec .lineStart s = .next (settle (replied s i .wrongState []))) ∧
  (∀ (s : State) (i : SlotId) (n : Byte), asks s i 0x08 [n] → n = 0 ∨ 4 < n.toNat →
    exec .lineStart s = .next (settle (replied s i .badParameter []))) ∧
  ∀ (s : State) (i : SlotId) (body : List Byte), asks s i 0x08 body → body.length ≠ 1 →
    exec .lineStart s = .next (settle (replied s i .badLength []))

/-- R39, R41, R42: LINE_STOP by its mode and the line's state: DRAIN makes an ACTIVE line DRAINING and a STUCK one remember it, FORCE
takes any line but a STOPPED one into STOPPED, other cases change nothing, and the reply is OK; every refusal changes nothing. The
two rows split the mode byte; a body that names no mode is answered alike under either (log 10). A header in progress at the DRAIN
is a reception that began before it (its start edge is the row's operand, log 6). -/
def Obligations.LineStopDrainsOrForces : Prop :=
  (∀ (s : State) (i : SlotId) (l : LineId), asks s i 0x09 [byteOf (l.val + 1), 0] →
    (∀ h : Option Ms, s.lines[l].state = .active → h = none ∨ s.lines[l].rx ≠ .hunting ∨ s.lines[l].tx ≠ none →
      exec (.lineStopDrain h) s = .next (settle (replied
        (onLine s l { s.lines[l] with state := .draining, mark := true, latest := s.time.mono }) i .ok []))) ∧
    (∀ edge : Ms, s.lines[l].state = .active → s.lines[l].rx = .hunting → s.lines[l].tx = none →
      exec (.lineStopDrain (some edge)) s = .next (settle (replied
        (onLine s l
          { s.lines[l] with
            state := .draining, mark := true, latest := s.time.mono, rx := .completing edge false, idle := false }) i .ok []))) ∧
    (∀ h : Option Ms, s.lines[l].state = .stuck false → exec (.lineStopDrain h) s = .next (settle (replied
      (onLine s l { s.lines[l] with state := .stuck true, mark := true, latest := s.time.mono }) i .ok []))) ∧
    (∀ h : Option Ms, s.lines[l].state = .stopped ∨ s.lines[l].state = .draining ∨ s.lines[l].state = .stuck true →
      exec (.lineStopDrain h) s = .next (settle (replied s i .ok [])))) ∧
  (∀ (s : State) (i : SlotId) (l : LineId), asks s i 0x09 [byteOf (l.val + 1), 1] →
    (s.lines[l].state ≠ .stopped → exec .lineStopForce s = .next (settle (replied (enterStopped s l) i .ok []))) ∧
    (s.lines[l].state = .stopped → exec .lineStopForce s = .next (settle (replied s i .ok [])))) ∧
  (∀ (s : State) (i : SlotId) (body : List Byte), asks s i 0x09 body → body.length ≠ 2 →
    (∀ h : Option Ms, exec (.lineStopDrain h) s = .next (settle (replied s i .badLength []))) ∧
    exec .lineStopForce s = .next (settle (replied s i .badLength []))) ∧
  ∀ (s : State) (i : SlotId) (n m : Byte), asks s i 0x09 [n, m] → n = 0 ∨ 4 < n.toNat ∨ 1 < m.toNat →
    (∀ h : Option Ms, m ≠ 1 → exec (.lineStopDrain h) s = .next (settle (replied s i .badParameter []))) ∧
    (m ≠ 0 → exec .lineStopForce s = .next (settle (replied s i .badParameter [])))

/-- R48, R203: LINE_STATUS with option 0 or 1 replies OK with the line as it stands in the handling, in the layout of R203; option 1
then clears the twelve counters; a body of another length is BAD_LENGTH and a line or an option outside its values BAD_PARAMETER,
the line unchanged. -/
def Obligations.LineStatusReports : Prop :=
  (∀ (s : State) (i : SlotId) (l : LineId) (o : Byte) (tm : Timing), asks s i 0x0A [byteOf (l.val + 1), o] → o.toNat ≤ 1 →
    (s.lines[l].state = .stopped → tm = { d := s.profile.lines[l].d, s := s.profile.lines[l].s }) →
    (s.lines[l].state ≠ .stopped → s.lines[l].timing = some tm) →
    exec .lineStatus s = .next (settleLink (replied
      (if o = 0 then s
        else onLine s l { s.lines[l] with counters := zeroCounters })
      i .ok
      ([s.lines[l].state.code,
        match s.lines[l].state with
          | .stuck false => 1
          | .stuck true => 2
          | _ => 0xFF,
        byteOf tm.d, byteOf tm.s, if s.lines[l].idle then 1 else 0, byteOf (min s.lines[l].control.length 255),
        byteOf (min s.lines[l].pass.length 255), byteOf (min s.lines[l].acks.length 255),
        byteOf (min ((s.lines[l].control ++ s.lines[l].pass).countP fun q => q.awaiting) 255)]
        ++ leBytes 2 s.lines[l].counters.parity ++ leBytes 2 s.lines[l].counters.framing
        ++ leBytes 2 s.lines[l].counters.noisy ++ leBytes 2 s.lines[l].counters.falseStart
        ++ leBytes 2 s.lines[l].counters.check ++ leBytes 2 s.lines[l].counters.oversize
        ++ leBytes 2 s.lines[l].counters.gap ++ leBytes 2 s.lines[l].counters.busy
        ++ leBytes 2 s.lines[l].counters.stray ++ leBytes 2 s.lines[l].counters.arbLoss
        ++ leBytes 2 s.lines[l].counters.bitError ++ leBytes 2 s.lines[l].counters.stuck)))) ∧
  (∀ (s : State) (i : SlotId) (body : List Byte), asks s i 0x0A body → body.length ≠ 2 →
    exec .lineStatus s = .next (settleLink (replied s i .badLength []))) ∧
  ∀ (s : State) (i : SlotId) (n o : Byte), asks s i 0x0A [n, o] → n = 0 ∨ 4 < n.toNat ∨ 1 < o.toNat →
    exec .lineStatus s = .next (settleLink (replied s i .badParameter []))

/-- R43, R83, R150: what entering STOPPED leaves, from any state and by any cause: the line empty and silent, its counters, timing
and spacing counts kept, its mark set; its present entries SILENT with no timer running; no session at a position whose bound
keypad is on it; FAULT at every position whose bound reader is on it; nothing else of another line but new frames on its control
queue. (A LOST bound unit counts as on its line, log 31; a context in FAULT already enters it anew, log 13.) -/
def Obligations.StoppedLineEffects : Prop :=
  ∀ (s : State) (l : LineId), ∃ t : State, t = enterStopped s l ∧
    t = { s with
      pool := t.pool, lines := t.lines, dir := t.dir, w0 := t.w0, w1 := t.w1, fanouts := t.fanouts, entry := t.entry
      card := t.card } ∧
    t.lines[l] =
      { s.lines[l] with
        state := .stopped, idle := false, rx := .hunting, acks := [], control := [], pass := [], tx := none, mark := true
        latest := s.time.mono } ∧
    (∀ k ≠ l, t.lines[k] = { s.lines[k] with control := t.lines[k].control } ∧ s.lines[k].control <+: t.lines[k].control) ∧
    (∀ e : EntryId, s.dir[e].present = true → s.dir[e].line = l →
      t.dir[e] =
        { s.dir[e] with
          state := .silent, grantTimer := none, silenceTimer := none, lostTimer := none, outBit := t.dir[e].outBit
          mark := s.dir[e].mark || decide (s.dir[e].state ≠ .silent)
          latest := if s.dir[e].state = .silent then s.dir[e].latest else s.time.mono }) ∧
    (∀ e : EntryId, s.dir[e].present = false ∨ s.dir[e].line ≠ l → t.dir[e] = { s.dir[e] with outBit := t.dir[e].outBit }) ∧
    (∀ (p : Pos) (e : EntryId), slotOf s .keypad p = some e → s.dir[e].line = l → t.entry[p].sess = none) ∧
    (∀ p : Pos, (∀ e : EntryId, slotOf s .keypad p = some e → s.dir[e].line ≠ l) → t.entry[p].sess = s.entry[p].sess) ∧
    (∀ (p : Pos) (e : EntryId), slotOf s .reader p = some e → s.dir[e].line = l →
      t.card[p] =
        { s.card[p] with
          state := .fault, cause := .lineStopped, holds := Vector.replicate 3 none, readTimer := none, takeTimer := none
          moveTimer := none, result := t.card[p].result, current := none, mark := true, latest := s.time.mono } ∧
      (cardSound s.card[p] → t.card[p].result = none))

/-- R32, R34, R50, R59, R61 to R63, R66: a line that becomes idle chooses: the head of the ack list first; on an ACTIVE line then the first
queue entry that may go, control queue before pass queue, its frame sent with its sequence bit and its queue limit cancelled;
with nothing to send it is idle. It can become idle inside a frame (log 40). A line that is not idle begins nothing (R32). (No other
line is DRAINING or ready to choose.) -/
def Obligations.IdleLineChooses : Prop :=
  (∀ (s : State) (l : LineId), s.lines[l].idle = false → lineChoose s l = s) ∧
  ∀ (s : State) (l : LineId), s.running = true → s.lines[l].tx = none → s.lines[l].idle = false → ¬ headerOpen s.lines[l] →
    (∀ k ≠ l, s.lines[k].state ≠ .draining ∧ s.lines[k].idle = false) →
    (∀ (a : PendingAck) (rest : List PendingAck), s.lines[l].state = .active ∨ s.lines[l].state = .draining →
      s.lines[l].acks = a :: rest →
      exec (.lineIdle l) s = .next (settleLink (onLine s l
        { s.lines[l] with
          tx := some
            { src := .ack, chars := partFrame 0 1 a.dest.toNat a.seq 0 [if a.accepted then 0 else 2, 0]
              startedAt := s.time.mono, inDrain := decide (s.lines[l].state = .draining) } }))) ∧
    (∀ (q : QEntry) (k : FrameKind), s.lines[l].state = .active → s.lines[l].acks = [] → goesFirst s.lines[l] q →
      s.pool.recs[q.record].kind = .frame k →
      exec (.lineIdle l) s = .next (settleLink (onLine s l
        { withEntry s.lines[l] q fun x => { x with inTx := true, lastBit := sentSeq s q k, limitTimer := none } with
          tx := some
            { src := .queued
              chars := partFrame s.pool.recs[q.record].urg.toNat k.family.code q.dest.toNat (sentSeq s q k) k.code
                (s.pool.body q.record)
              startedAt := s.time.mono, inDrain := false } }))) ∧
    (s.lines[l].state = .active → s.lines[l].acks = [] →
      (∀ x ∈ s.lines[l].control ++ s.lines[l].pass, ¬ mayGo s.lines[l] x) →
      exec (.lineIdle l) s = .next (settleLink (onLine s l { s.lines[l] with idle := true }))) ∧
    (s.lines[l].state = .draining → s.lines[l].acks = [] →
      (∃ x ∈ s.lines[l].control ++ s.lines[l].pass, x.awaiting = true) →
      exec (.lineIdle l) s = .next (settleLink (onLine s l { s.lines[l] with idle := true })))

/-- R41: the drain is complete when no reception that began before it (a header in progress is one, log 6), no transmission, no
frame awaiting acknowledgement and no pending acknowledgement is left: then DRAIN takes an ACTIVE line into STOPPED in its
handling, and the last acknowledgement sent takes a DRAINING line there. (No other line is DRAINING or ready to choose.) -/
def Obligations.CompleteDrainStopsTheLine : Prop :=
  ∀ (s : State) (l : LineId), (∀ k ≠ l, s.lines[k].state ≠ .draining ∧ s.lines[k].idle = false) →
    (∀ x ∈ s.lines[l].control ++ s.lines[l].pass, x.awaiting = false) →
    (∀ (i : SlotId) (h : Option Ms), asks s i 0x09 [byteOf (l.val + 1), 0] → s.lines[l].state = .active → s.lines[l].tx = none →
      s.lines[l].acks = [] →
      ((s.lines[l].rx = .hunting ∧ h = none) ∨ s.lines[l].rx = .abandoned →
        exec (.lineStopDrain h) s = .next (settleLink (enterStopped (replied
          (onLine s l { s.lines[l] with state := .draining, mark := true, latest := s.time.mono }) i .ok []) l))) ∧
      (∀ edge : Ms, s.lines[l].rx = .completing edge false →
        exec (.lineStopDrain h) s = .next (settleLink (replied
          (onLine s l { s.lines[l] with state := .draining, mark := true, latest := s.time.mono }) i .ok []))) ∧
      ∀ edge : Ms, s.lines[l].rx = .hunting → h = some edge →
        exec (.lineStopDrain h) s = .next (settleLink (replied
          (onLine s l
            { s.lines[l] with
              state := .draining, mark := true, latest := s.time.mono, rx := .completing edge false, idle := false })
          i .ok []))) ∧
    ∀ (x : Tx) (a : PendingAck), s.running = true → s.lines[l].state = .draining → s.lines[l].tx = some x → x.src = .ack →
      s.lines[l].acks = [a] → s.lines[l].rx = .hunting ∨ s.lines[l].rx = .abandoned →
      exec (.frameTransmitted l) s =
        .next (settleLink (enterStopped (onLine s l { s.lines[l] with tx := none, acks := [] }) l))

/-! ## Characters (2.2, 2.3) -/

/-- R25 to R30: a bit has the value of at least two of its three reads; a character is noisy when some bit's reads are not all alike;
it has a parity error when its data and parity bits hold an even number of ones; and a byte sent without noise is heard as that
byte with no error of any kind. R23: a line is driven dominant in the zeros of its transmission and nowhere else, and presents the
dominant level if any station drives it. -/
def Obligations.CharacterBitsAreJudged : Prop :=
  (∀ b : Bit3, bitValue b = decide (2 ≤ [b.a, b.b, b.c].count true)) ∧
  (∀ c : RawChar, charNoisy c = true ↔ ∃ b ∈ [c.start, c.d0, c.d1, c.d2, c.d3, c.d4, c.d5, c.d6, c.d7, c.parity, c.stop],
    ¬ (b.a = b.b ∧ b.b = b.c)) ∧
  (∀ c : RawChar, charParityError c = true ↔
    Even (([c.d0, c.d1, c.d2, c.d3, c.d4, c.d5, c.d6, c.d7, c.parity].map bitValue).count true)) ∧
  (∀ c : RawChar, ∀ k : Fin 8, (charByte c).getLsbD k =
    ([c.d0, c.d1, c.d2, c.d3, c.d4, c.d5, c.d6, c.d7].map bitValue)[k.val]!) ∧
  (∀ b : Byte, charByte (cleanChar b) = b ∧ charNoisy (cleanChar b) = false ∧ charParityError (cleanChar b) = false ∧
    bitValue (cleanChar b).start = false ∧ bitValue (cleanChar b).stop = true) ∧
  ∀ (ln : Line) (chr bit : Nat), (ln.tx = none → ln.drives chr bit = false) ∧
    (∀ x : Tx, ln.tx = some x → (ln.drives chr bit = true ↔
      ∃ b : Bit3, x.chars[chr]?.bind (fun y => (rawBits (cleanChar y))[bit]?) = some b ∧ bitValue b = false)) ∧
    ∀ others : Bool, ln.level chr bit others = false ↔ ln.drives chr bit = true ∨ others = true

/-- R27, R29, R32, R36, R52, R53: CHARACTER_RECEIVED: the first character of a frame is its header, taken with its arrival (or, for one
in progress at a drain or after a lost arbitration, with its start edge); the second gives destination and kind and may mark the
frame discarded; a body character goes where the body goes; a parity error marks the frame bad. On a DRAINING line a header that
opens a reception began in the drain. Its start edge alone ends the line's idleness and opens the header, with its arrival (the two
moments of the row: log 6). -/
def Obligations.CharactersBuildFrames : Prop :=
  (∀ (s : State) (l : LineId) (edge : Ms) (c : RawChar), hears s l →
    (s.lines[l].rx = .hunting → exec (.characterReceived l edge c .startEdge) s = .next (settle (onLine s l
      { s.lines[l] with idle := false, rx := .completing s.time.mono (decide (s.lines[l].state = .draining)) }))) ∧
    (s.lines[l].rx ≠ .hunting → exec (.characterReceived l edge c .startEdge) s =
      .next (settle (onLine s l { s.lines[l] with idle := false })))) ∧
  ∀ (s : State) (l : LineId) (edge : Ms) (c : RawChar), hears s l → handedOn c →
    (s.lines[l].rx = .hunting → exec (.characterReceived l edge c) s = .next (settle (onLine s l
      { heardChar s.lines[l] c with
        rx := .inFrame
          { stage := .second, head := charByte c, second := 0, sum := charByte c, bad := charParityError c, discarded := false
            inDrain := decide (s.lines[l].state = .draining)
            arrival := edge, dest := .undecided, buf := [] } }))) ∧
    (∀ (a : Ms) (d : Bool), s.lines[l].rx = .completing a d →
      exec (.characterReceived l edge c) s = .next (settle (onLine s l
        { heardChar s.lines[l] c with
          rx := .inFrame
            { stage := .second, head := charByte c, second := 0, sum := charByte c, bad := charParityError c
              discarded := false, inDrain := d, arrival := a, dest := .undecided, buf := [] } }))) ∧
    (s.lines[l].rx = .abandoned →
      exec (.characterReceived l edge c) s = .next (settle (onLine s l (heardChar s.lines[l] c)))) ∧
    ∀ f : RxFrame, s.lines[l].rx = .inFrame f →
      (f.stage = .second → exec (.characterReceived l edge c) s = .next (settle (onLine s l
        { heardChar s.lines[l] c with
          rx := .inFrame
            { tookChar f c with
              second := charByte c, stage := .length
              discarded := decide ((charByte c).toNat % 16 ≠ 0 ∨ f.head.toNat / 4 % 16 = 0 ∨
                (f.head.toNat / 64, (charByte c).toNat / 32) ∉
                  [(0, 0), (0, 1), (0, 2), (1, 0), (2, 0), (2, 1), (3, 0), (3, 1)]) } }))) ∧
      ∀ left : Nat, f.stage = .body left →
        ((∀ r e, f.dest ≠ .record r e) → exec (.characterReceived l edge c) s = .next (settle (onLine s l
          { heardChar s.lines[l] c with
            rx := .inFrame
              { tookChar f c with
                buf := if f.dest = .buffer then f.buf ++ [charByte c] else f.buf
                stage := if left ≤ 1 then .check else .body (left - 1) } }))) ∧
        ∀ (r : RecId) (e : EntryId), f.dest = .record r e →
          exec (.characterReceived l edge c) s = .next (settle (onLine
            { s with pool :=
              { s.pool with
                mem := memWrite s.pool.mem
                  (s.pool.recs[r].chunks.getD (s.pool.recs[r].len / 32) 0 * 32 + s.pool.recs[r].len % 32) (charByte c)
                recs := s.pool.recs.set r { s.pool.recs[r] with len := s.pool.recs[r].len + 1 } } } l
            { heardChar s.lines[l] c with
              rx := .inFrame { tookChar f c with stage := if left ≤ 1 then .check else .body (left - 1) } }))

/-- R27 to R31, R53: a false start counts as a false start and nothing else; a framing error raises the framing counter, and the parity and
noisy counters as its character is judged (noise by log 16); a gap raises the gap counter only; the end of an oversize abandonment
counts nothing. A framing error and a gap end the frame in progress and release its FILLING record; none touches another line. (The
gap and the end of an abandonment may come while the part transmits: log 40. A false start ends a header in progress: log 6.) -/
def Obligations.BrokenReceptionIsCounted : Prop :=
  ∀ (s : State) (l : LineId), (hears s l →
    (∀ b : Bit3, bitValue b = true → exec (.falseStart l b) s = .next (settle (onLine s l
      { s.lines[l] with
        idle := false
        rx :=
          match s.lines[l].rx with
          | .completing _ _ => .hunting
          | x => x
        counters := { s.lines[l].counters with falseStart := min 65535 (s.lines[l].counters.falseStart + 1) } }))) ∧
    (∀ c : RawChar, bitValue c.start = false → bitValue c.stop = false →
      (∀ f : RxFrame, s.lines[l].rx = .inFrame f → exec (.framingError l c) s = .next (settle (onLine
        { s with pool := withoutReception s.pool f } l
        { heardChar s.lines[l] c with
          rx := .hunting
          counters :=
            { (heardChar s.lines[l] c).counters with framing := min 65535 (s.lines[l].counters.framing + 1) } }))) ∧
      ((∀ f : RxFrame, s.lines[l].rx ≠ .inFrame f) → exec (.framingError l c) s = .next (settle (onLine s l
        { heardChar s.lines[l] c with
          rx := if s.lines[l].rx = .abandoned then .abandoned else .hunting
          counters :=
            { (heardChar s.lines[l] c).counters with framing := min 65535 (s.lines[l].counters.framing + 1) } }))))) ∧
    (listens s l →
      (∀ f : RxFrame, s.lines[l].rx = .inFrame f → exec (.characterGapExpiry l) s = .next (settle (onLine
        { s with pool := withoutReception s.pool f } l
        { s.lines[l] with
          rx := .hunting
          counters := { s.lines[l].counters with gap := min 65535 (s.lines[l].counters.gap + 1) } }))) ∧
      (s.lines[l].rx = .abandoned →
        exec (.oversizeAbandonEnd l) s = .next (settle (onLine s l { s.lines[l] with rx := .hunting }))))

/-! ## Frames from units (3.2, 3.3) -/

/-- R5, R12, R53: LENGTH_CHARACTER: an oversize frame is counted and abandoned; a discarded or bad one keeps its body nowhere; a control
or exchange frame uses the receive buffer; an event or data frame from a held source asks the pool for a FILLING record of the
class of its urgency, charged to its entry; from a source not held it is stray; begun in a drain it is kept nowhere (R41). -/
def Obligations.LengthCharacterPlacesTheBody : Prop :=
  ∀ (s : State) (l : LineId) (c : RawChar) (f : RxFrame) (n : Nat), hears s l → handedOn c → s.lines[l].rx = .inFrame f →
    f.stage = .length → n = (charByte c).toNat →
    (120 < n ∨ ((f.head.toNat / 64 = 1 ∨ f.head.toNat / 64 = 2) ∧ 16 < n) →
      exec (.lengthCharacter l c) s = .next (settle (onLine s l
        { heardChar s.lines[l] c with
          rx := .abandoned
          counters :=
            { (heardChar s.lines[l] c).counters with oversize := min 65535 (s.lines[l].counters.oversize + 1) } }))) ∧
    (¬ (120 < n ∨ ((f.head.toNat / 64 = 1 ∨ f.head.toNat / 64 = 2) ∧ 16 < n)) →
      (∀ d : BodyDest,
        (f.discarded = true ∨ (tookChar f c).bad = true ∨ rxKind f = none) ∧ d = .nowhere ∨
        (f.discarded = false ∧ (tookChar f c).bad = false ∧ ∃ k, rxKind f = some k ∧
          ((k.family = .control ∨ k.family = .exchange) ∧ d = .buffer ∨
            (k.family = .event ∨ k.family = .data) ∧
              (f.inDrain = true ∧ d = .nowhere ∨
                f.inDrain = false ∧ entryAt s l (headSource f.head) = none ∧ d = .stray))) →
        exec (.lengthCharacter l c) s = .next (settle (onLine s l
          { heardChar s.lines[l] c with
            rx := .inFrame { tookChar f c with dest := d, stage := if n = 0 then .check else .body n } }))) ∧
      ∀ (k : FrameKind) (e : EntryId) (cls : Cls), f.discarded = false → (tookChar f c).bad = false → f.inDrain = false →
        rxKind f = some k → k.family = .event ∨ k.family = .data → entryAt s l (headSource f.head) = some e →
        cls.val = min 2 (f.head.toNat % 4) →
        (admissible s.profile s.pool cls (max 1 ((n + 31) / 32)) (.unit e l (headSource f.head)) →
          ∃ (r : RecId) (p : Pool),
            granted s.pool p r
              { cls := cls, need := max 1 ((n + 31) / 32), origin := .unit e l (headSource f.head), kind := .frame k
                urg := BitVec.ofNat 2 f.head.toNat, arrival := f.arrival, state := .filling, promise := none } ∧
            exec (.lengthCharacter l c) s = .next (settle (onLine { s with pool := p } l
              { heardChar s.lines[l] c with
                rx := .inFrame
                  { tookChar f c with dest := .record r e, stage := if n = 0 then .check else .body n } }))) ∧
        ∀ x : Fin 9, refusedAt s.profile s.pool cls (max 1 ((n + 31) / 32)) (.unit e l (headSource f.head)) x →
          exec (.lengthCharacter l c) s = .next (settle (onLine { s with pool := counted s.pool x } l
            { heardChar s.lines[l] c with
              rx := .inFrame
                { tookChar f c with dest := .refused e, stage := if n = 0 then .check else .body n } })))

/-- R29, R41, R51, R52, R54: a frame of any kind, an unknown one too, that ends bad is dropped, its FILLING record released, the check
counter risen only for a wrong sum; a discarded one, or one of an unknown kind, that ends whole is counted as stray; one begun in a
drain, but an ACK, is dropped (log 11). That a discarded frame with a parity error and a sum of 0 is not counted as stray is the model's
choice (log 45). No acknowledgement is queued and the Directory is told nothing. The check character comes
as the row of the frame's kind or as CHARACTER_RECEIVED, that of an unknown kind as the latter. -/
def Obligations.BadFrameIsDropped : Prop :=
  ∀ (s : State) (l : LineId) (f : RxFrame) (c : RawChar) (i : Instr), endsFrame s l f c →
    (∃ edge : Ms, i = .characterReceived l edge c) ∨ (∃ k : FrameKind, rxKind f = some k ∧ i = closes l c k) →
    (f.sum + charByte c ≠ 0 → exec i s = .next (settle (onLine { s with pool := withoutReception s.pool f } l
      { heardChar s.lines[l] c with
        rx := .hunting
        counters :=
          { (heardChar s.lines[l] c).counters with check := min 65535 (s.lines[l].counters.check + 1) } }))) ∧
    (f.sum + charByte c = 0 → (tookChar f c).bad = true →
      exec i s = .next (settle { checkTaken s l c with pool := withoutReception s.pool f })) ∧
    (wholeAndGood f c → f.discarded = true ∨ rxKind f = none →
      exec i s = .next (settle (strayCounted (checkTaken s l c) l))) ∧
    ∀ k : FrameKind, rxKind f = some k → wholeAndGood f c → f.discarded = false → f.inDrain = true → k ≠ .ack →
      exec i s = .next (settle (checkTaken s l c))

/-- R12, R55, R56, R59, R81: a whole and good event or data frame: its source is heard; a repeat is released and acknowledged
ACCEPTED; a refused one is acknowledged BUSY and counted; a new one is STORED, its bit taken, ACCEPTED offered, and the record
handed to Dispatch; one whose entry no longer holds the address, or that was stray, is handled as a stray frame, another entry that
holds the address now having been heard. -/
def Obligations.UnitFrameIsStoredAndAnswered : Prop :=
  ∀ (s : State) (l : LineId) (f : RxFrame) (c : RawChar) (k : FrameKind) (e : EntryId) (r : RecId), settles s l f c k →
    k.family = .event ∨ k.family = .data →
    (entryAt s l (headSource f.head) = some e →
      (s.dir[e].inBit = some (secondSeq f.second) → f.dest = .record r e →
        exec (.unitEventDataFrame l c) s = .next (settle (ackOffered (dropRef (heardFrom (checkTaken s l c) e) r) l
          { dest := headSource f.head, seq := secondSeq f.second, accepted := true }))) ∧
      (s.dir[e].inBit = some (secondSeq f.second) → f.dest = .refused e →
        exec (.unitEventDataFrame l c) s = .next (settle (ackOffered (heardFrom (checkTaken s l c) e) l
          { dest := headSource f.head, seq := secondSeq f.second, accepted := true }))) ∧
      (s.dir[e].inBit ≠ some (secondSeq f.second) → f.dest = .refused e →
        exec (.unitEventDataFrame l c) s = .next (settle (ackOffered
          (onLine (heardFrom (checkTaken s l c) e) l
            { (checkTaken s l c).lines[l] with
              counters :=
                { (checkTaken s l c).lines[l].counters with busy := min 65535 (s.lines[l].counters.busy + 1) } }) l
          { dest := headSource f.head, seq := secondSeq f.second, accepted := false }))) ∧
      (s.dir[e].inBit ≠ some (secondSeq f.second) → f.dest = .record r e →
        exec (.unitEventDataFrame l c) s = .next (settle (handOver (ackOffered
          { checkTaken s l c with
            dir := s.dir.set e { afterHeard s e with inBit := some (secondSeq f.second) }
            pool := { s.pool with recs := s.pool.recs.set r { s.pool.recs[r] with state := .stored } } } l
          { dest := headSource f.head, seq := secondSeq f.second, accepted := true }) r e l k)))) ∧
    (f.dest = .stray → exec (.unitEventDataFrame l c) s = .next (settle (strayFrame (checkTaken s l c) l (headSource f.head)))) ∧
    (entryAt s l (headSource f.head) = none →
      (f.dest = .record r e → exec (.unitEventDataFrame l c) s =
        .next (settle (strayFrame (dropRef (checkTaken s l c) r) l (headSource f.head)))) ∧
      (f.dest = .refused e → exec (.unitEventDataFrame l c) s =
        .next (settle (strayFrame (checkTaken s l c) l (headSource f.head))))) ∧
    ∀ x : EntryId, entryAt s l (headSource f.head) = some x →
      s.dir[e].present = false ∨ s.dir[e].line ≠ l ∨ s.dir[e].addr ≠ some (headSource f.head) →
      (f.dest = .record r e → exec (.unitEventDataFrame l c) s =
        .next (settle (strayFrame (dropRef (heardFrom (checkTaken s l c) x) r) l (headSource f.head)))) ∧
      (f.dest = .refused e → exec (.unitEventDataFrame l c) s =
        .next (settle (strayFrame (heardFrom (checkTaken s l c) x) l (headSource f.head))))

/-- R60, R84: a stray frame is counted; from an address from 1 to 14 it draws a WHO to that address, queued when the pool admits it, but
none within 1,000 ms of the last one queued to it; a refused WHO leaves the spacing as it was. -/
def Obligations.StrayFrameDrawsAWho : Prop :=
  ∀ (s : State) (l : LineId) (a : Addr),
    (a = 0 ∨ a = 15 → strayFrame s l a = strayCounted s l) ∧
    (∀ t : Ms, s.lines[l].whoAt[a.toNat] = some t → elapsed s.time.mono t < 1000 → strayFrame s l a = strayCounted s l) ∧
    (a ≠ 0 → a ≠ 15 → s.lines[l].state ≠ .stopped →
      (∀ t : Ms, s.lines[l].whoAt[a.toNat] = some t → 1000 ≤ elapsed s.time.mono t) →
      (admissible s.profile s.pool 2 1 .part → ∃ (r : RecId) (p : Pool),
        granted s.pool p r
          { cls := 2, need := 1, origin := .part, kind := .frame .who, urg := 2, arrival := s.time.mono, state := .stored,
            promise := none } ∧
        strayFrame s l a = onLine { s with pool := p } l
          { s.lines[l] with
            counters := { s.lines[l].counters with stray := min 65535 (s.lines[l].counters.stray + 1) }
            control := s.lines[l].control ++ [{ whoEntry s.time.mono s.profile.queueLimit r with dest := a }]
            whoAt := s.lines[l].whoAt.set a.toNat (some s.time.mono) }) ∧
      ∀ x : Fin 9, refusedAt s.profile s.pool 2 1 .part x →
        strayFrame s l a = { strayCounted s l with pool := counted s.pool x })

/-! ## Admission, promises, and the ends of queued frames (1.3 to 1.7, 3.4, 5.4) -/

/-- R7 to R9, R16, R17, R19, R44, R60, R101: a frame that the part offers to a line is refused by a STOPPED one; else it is queued when
the pool admits it, its body readable from the pool and no other body changed; a promise is reserved alike, and completed as a
STORED record whose notice, with the promise's tag, joins its queue. A refused admission changes its counter only. -/
def Obligations.AdmissionsAndPromises : Prop :=
  (∀ (s : State) (l : LineId),
     (∀ (k : FrameKind) (dest : Addr) (target : Option EntryId) (owner : Owner) (body : List Byte) (c : Cls),
       c.val = urgencyOf k →
       (s.lines[l].state = .stopped → offerControl s l k dest target owner body = (s, .stopped)) ∧
       (s.lines[l].state ≠ .stopped → memorySound s.pool → chunksSound s.pool →
         admissible s.profile s.pool c (chunksNeeded body.length) .part →
         ∃ (r : RecId) (p q : Pool), granted s.pool p r (ownFrame s k c body.length) ∧ bodyWritten p q r body ∧
           offerControl s l k dest target owner body =
             (onLine { s with pool := q } l
               { s.lines[l] with control := s.lines[l].control ++ [queuedFrame s r dest target owner] }, .carried r)) ∧
       (s.lines[l].state ≠ .stopped →
         ∀ x : Fin 9, refusedAt s.profile s.pool c (chunksNeeded body.length) .part x →
           offerControl s l k dest target owner body = ({ s with pool := counted s.pool x }, .refused))) ∧
     ∀ (k : NoticeKind) (tag : Byte),
       (admissible s.profile s.pool 0 (if k = .sendDone then 4 else 1) .part →
         ∃ (r : RecId) (p : Pool), granted s.pool p r (promised s k tag) ∧ reserve s k tag = ({ s with pool := p }, some r)) ∧
       ∀ x : Fin 9, refusedAt s.profile s.pool 0 (if k = .sendDone then 4 else 1) .part x →
         reserve s k tag = ({ s with pool := counted s.pool x }, none)) ∧
  (∀ (s : State) (r : RecId) (k : NoticeKind) (q : Cls) (pos : Option Pos) (body : List Byte), memorySound s.pool →
     chunksSound s.pool → body.length ≤ 32 * s.pool.recs[r].chunks.length →
     ∃ p : Pool, p.body r = body ∧
       (∀ x : RecId, x ≠ r → s.pool.recs[x].len ≤ 32 * s.pool.recs[x].chunks.length → p.body x = s.pool.body x) ∧
       p = { s.pool with mem := p.mem, recs := s.pool.recs.set r (completedRec s.pool.recs[r] s.time.mono body.length) } ∧
       ∀ n : Notice, n = { record := r, kind := k, tag := s.pool.recs[r].promise.getD 0, unit := none, pos := pos,
                           witnessed := false, resent := false } →
         (q = 0 → completePromise s r k q pos body = { s with pool := p, w0 := s.w0 ++ [n] }) ∧
         (q = 1 → completePromise s r k q pos body = { s with pool := p, w1 := s.w1 ++ [n] }) ∧
         (q = 2 → completePromise s r k q pos body = { s with pool := p, w2 := s.w2 ++ [n] }))

/-- R63, R67, R73: an entry that ends leaves its queue, its reference is released (or left with its transmission), and the outbound
bit of its target toggles for the outcomes of R63; the owner is told as its own rules say; and the release of an address ends all
frames queued to its entry and stops its timers. -/
def Obligations.FramesEndWithAnOutcome : Prop :=
  (∀ (s : State) (l : LineId) (q : QEntry) (o : FrameOutcome) (b : State),
    b = { onLine s l
        { withoutEntry s.lines[l] q with
          tx := if q.inTx = true then s.lines[l].tx.map fun x => { x with src := .detached q.record } else s.lines[l].tx } with
        pool := if q.inTx = true then s.pool else s.pool.dropRef q.record
        dir :=
          match q.target with
          | some e =>
            if (s.pool.recs[q.record].kind = .frame .display ∨ s.pool.recs[q.record].kind = .frame .cardCommand ∨
                  s.pool.recs[q.record].kind = .frame .unitCommand) ∧ togglesOn q.isOpen o = true then
              s.dir.set e { s.dir[e] with outBit := !s.dir[e].outBit }
            else s.dir
          | none => s.dir } →
    (q.owner = .directory ∨ q.owner = .timeBase → endEntry s l q o = b) ∧
    (∀ p : Pos, q.owner = .entry p →
      (o = .noAck ∨ o = .expired ∨ o = .lineStopped → endEntry s l q o = atEntry b p
        { s.entry[p] with
          dispPending := true
          retryTimer := if s.entry[p].retryTimer = none then some 100 else s.entry[p].retryTimer }) ∧
      (o = .delivered ∨ o = .unitGone ∨ (∃ x, o = .refused x) → endEntry s l q o = b)) ∧
    (∀ p : Pos, q.owner = .card p →
      ((∀ cmd, s.card[p].current ≠ some (cmd, q.record)) ∨ o = .delivered ∨ o = .unitGone → endEntry s l q o = b) ∧
      (s.card[p].current = some (.read, q.record) →
        (∀ x, o = .refused x →
          endEntry s l q o = cardTo (readEnd b p .unitRefused .unitRefused x) p .present .unitRefused) ∧
        (o = .noAck ∨ o = .expired → endEntry s l q o = cardTo (readEnd b p .unitFailed .unitFailed 0) p .fault .unitFailed) ∧
        (o = .lineStopped → endEntry s l q o = cardTo (readEnd b p .unitFailed .lineStopped 0) p .fault .lineStopped)) ∧
      (∀ cmd : CardCommand, cmd ≠ .read → s.card[p].current = some (cmd, q.record) →
        ((∃ x, o = .refused x) → endEntry s l q o = cardTo b p .fault .unitRefused) ∧
        (o = .noAck ∨ o = .expired → endEntry s l q o = cardTo b p .fault .unitFailed) ∧
        (o = .lineStopped → endEntry s l q o = cardTo b p .fault .lineStopped))) ∧
    ∀ (sd : RecId) (e : EntryId), q.owner = .dispatch sd → q.target = some e → endEntry s l q o = copyOutcome b sd e o) ∧
  ∀ (s : State) (e : EntryId), ∃ t : State, releaseAddress s e = t ∧
    t = { s with pool := t.pool, lines := t.lines, dir := t.dir, w0 := t.w0, fanouts := t.fanouts } ∧
    t.dir[e] = { s.dir[e] with
      addr := none, grantTimer := none, silenceTimer := none, lostTimer := none } ∧
    (∀ x : EntryId, x ≠ e → t.dir[x] = s.dir[x]) ∧
    (∀ k : LineId, k ≠ s.dir[e].line → t.lines[k] = s.lines[k]) ∧
    ∀ x ∈ t.lines[s.dir[e].line].control ++ t.lines[s.dir[e].line].pass,
      x.target ≠ some e ∧ x ∈ s.lines[s.dir[e].line].control ++ s.lines[s.dir[e].line].pass

/-- R105: a copy's outcome is written into its SEND_DONE record, which is FILLING from the first one; the last copy's makes it
STORED and puts its notice on W0, and the bookkeeping ends. -/
def Obligations.CopiesAreGathered : Prop :=
  ∀ (s : State) (f : Fanout) (before after : List Fanout) (x : Target) (ta tb : List Target) (o : FrameOutcome) (p : Pool),
    s.fanouts = before ++ f :: after → (s.fanouts.map Fanout.sendDone).Nodup → f.targets = ta ++ x :: tb → x.ended = false →
    (∀ y ∈ ta, y.e = x.e → y.ended = true) →
    p = { s.pool with
      mem := memWriteBody s.pool.mem s.pool.recs[f.sendDone].chunks s.pool.recs[f.sendDone].len
        (identityBytes x.identity ++ [match o with
          | .delivered => 0
          | .refused _ => 1
          | .noAck => 2
          | .expired => 3
          | .lineStopped => 4
          | .unitGone => 5])
      recs := s.pool.recs.set f.sendDone
        { s.pool.recs[f.sendDone] with len := s.pool.recs[f.sendDone].len + 7, state := .filling } } →
    (2 ≤ f.outstanding → copyOutcome s f.sendDone x.e o =
      { s with
        pool := p
        fanouts := before ++
          { f with targets := ta ++ { x with ended := true } :: tb, outstanding := f.outstanding - 1 } :: after }) ∧
    (f.outstanding = 1 → copyOutcome s f.sendDone x.e o =
      { s with
        pool := { p with recs := p.recs.set f.sendDone { p.recs[f.sendDone] with state := .stored, arrival := s.time.mono } }
        fanouts := before ++ after
        w0 := s.w0 ++ [{ record := f.sendDone, kind := .sendDone, tag := f.tag, unit := none, pos := none,
                         witnessed := false, resent := false }] })

/-! ## Control frames and ACKs (3.2, 4.2) -/

/-- R57, R72, R74 to R79: a HELLO: malformed, it is counted as stray; well formed, the entry that holds its identity is granted its
address anew (restart), or one on the new line (relocation), or its GRANT again (PENDING); a new identity takes an entry, bound by
a pin; with no entry or address left a REFUSE is offered. GRANT carries identity and address, REFUSE identity and reason; each is
offered to the line, to address 15, and skipped when refused (R79). (Last heard by log 12. By log 11 a HELLO whose header began before a
drain is handled as on an ACTIVE line.) -/
def Obligations.HelloIsAnswered : Prop :=
  (∀ (s : State) (l : LineId) (f : RxFrame) (c : RawChar), settles s l f c .hello →
    (f.buf.length ≠ 7 ∨ (byteAt f.buf 6 ≠ 1 ∧ byteAt f.buf 6 ≠ 2) ∨ headSource f.head ≠ 15 →
      exec (.hello l c) s = .next (settle (strayCounted (checkTaken s l c) l))) ∧
    ∀ (u : State) (i : Identity) (k : UnitKind), u = checkTaken s l c → f.buf.length = 7 → headSource f.head = 15 →
      byteAt f.buf 6 = k.code → i = identityAt f.buf 0 →
      ((∀ e : EntryId, s.dir[e].state ≠ .free → s.dir[e].identity ≠ i) →
        ((∀ e : EntryId, s.dir[e].state ≠ .free ∧ (s.dir[e].state = .lost → s.dir[e].pinned = true)) →
          exec (.hello l c) s = .next (settle (offerRefuse u l i 1))) ∧
        (∀ e : EntryId, takenForNew s e → lineFull s l → exec (.hello l c) s = .next (settle (offerRefuse u l i 2))) ∧
        ∀ (e : EntryId) (a : Addr) (g : State), takenForNew s e → lowestFree s l a →
          g = regranted (atUnit u e { s.dir[e] with
            identity := i, kind := k, pos := none, pinned := false, established := false, condition := .ok
            lastHeard := s.time.mono }) e l a →
          ((∀ p : Pos, some (i, p) ∉ s.profile.pins.toList) → exec (.hello l c) s = .next (settle (marked g e))) ∧
          ∀ p : Pos, firstPin s.profile i p →
            ((∀ x : EntryId, x ≠ e → s.dir[x].state ≠ .free → s.dir[x].kind = k → s.dir[x].pos ≠ some p) →
              exec (.hello l c) s =
                .next (settle (marked (atUnit g e { g.dir[e] with pos := some p, pinned := true }) e))) ∧
            ∀ x : EntryId, x ≠ e → slotOf g k p = some x →
              (s.dir[x].pinned = true → exec (.hello l c) s = .next (settle (marked g e))) ∧
              (s.dir[x].pinned = false → ∃ h : State,
                h = sessionsEnded (marked (atUnit g x { g.dir[x] with pos := none, pinned := false }) x) k (some p) .displaced ∧
                exec (.hello l c) s =
                  .next (settle (marked (atUnit h e { h.dir[e] with pos := some p, pinned := true }) e)))) ∧
      ∀ e : EntryId, holds s e i →
        (s.dir[e].line ≠ l → lineFull s l → exec (.hello l c) s = .next (settle (offerRefuse u l i 2))) ∧
        ∀ v : State,
          (s.dir[e].kind = k ∨ s.dir[e].pos = none → v = atUnit u e { s.dir[e] with kind := k, lastHeard := s.time.mono }) →
          (∀ p : Pos, s.dir[e].kind ≠ k → s.dir[e].pos = some p → ∃ w : State,
            w = sessionsEnded (marked (atUnit u e { s.dir[e] with pos := none, pinned := false }) e) s.dir[e].kind (some p)
              .unitRestarted ∧
            v = atUnit w e { w.dir[e] with kind := k, lastHeard := s.time.mono }) →
          (s.dir[e].line = l → s.dir[e].state = .pending → exec (.hello l c) s = .next (settle (offerGrant v e))) ∧
          (s.dir[e].line = l → s.dir[e].state ≠ .pending →
            (∀ a : Addr, s.dir[e].addr = some a → exec (.hello l c) s = .next (settle (marked
              (sessionsEnded (regranted (releaseAddress v e) e l a) k v.dir[e].pos .unitRestarted) e))) ∧
            (∀ a : Addr, s.dir[e].addr = none → lowestFree s l a → exec (.hello l c) s = .next (settle (marked
              (sessionsEnded (regranted v e l a) k v.dir[e].pos .unitRestarted) e))) ∧
            (s.dir[e].addr = none → lineFull s l → exec (.hello l c) s = .next (settle (offerRefuse v l i 2)))) ∧
          ∀ a : Addr, s.dir[e].line ≠ l → lowestFree s l a →
            exec (.hello l c) s = .next (settle (marked (sessionsEnded
              (regranted (if s.dir[e].addr = none then v else releaseAddress v e) e l a) k v.dir[e].pos .unitMoved) e))) ∧
  (∀ (s : State) (e : EntryId), frameOffered s (offerGrant s e) s.dir[e].line .grant 15 none .directory
    (leBytes 6 s.dir[e].identity.toNat ++ [match s.dir[e].addr with
      | some a => byteOf a.toNat
      | none => 0])) ∧
  ∀ (s : State) (l : LineId) (i : Identity) (reason : Byte),
    frameOffered s (offerRefuse s l i reason) l .refuse 15 none .directory (leBytes 6 i.toNat ++ [reason])

/-- R57, R58, R67, R81, R84, R148: a STATUS is heard, gives its entry the condition and reconciles a FAULT card context; a malformed one, or
one of the other kind, is counted as stray, one from an address not held is a stray frame. An ACK with the right sequence bit ends
the frame that awaits it, DELIVERED or REFUSED with its reason; any other is counted as stray; its source is heard either way. (A
STATUS is judged malformed before its source is looked up: log 33. Drains: log 11.) -/
def Obligations.StatusAndAckAreTaken : Prop :=
  (∀ (s : State) (l : LineId) (f : RxFrame) (c : RawChar), settles s l f c .status →
     ((∀ x : Byte, x.toNat ≤ 1 → f.buf ≠ [2, x] ∧ ∀ y : Byte, y.toNat ≤ 1 → f.buf ≠ [1, x, y]) →
       exec (.unitStatus l c) s = .next (settle (strayCounted (checkTaken s l c) l))) ∧
     ∀ (k : UnitKind) (cond : Condition) (present : Bool),
       (k = .keypad ∧ f.buf = [2, cond.code]) ∨ (k = .reader ∧ f.buf = [1, cond.code, if present then 1 else 0]) →
       (entryAt s l (headSource f.head) = none →
         exec (.unitStatus l c) s = .next (settle (strayFrame (checkTaken s l c) l (headSource f.head)))) ∧
       ∀ e : EntryId, entryAt s l (headSource f.head) = some e →
         (s.dir[e].kind ≠ k →
           exec (.unitStatus l c) s = .next (settle (strayCounted (heardFrom (checkTaken s l c) e) l))) ∧
         ∀ v : State, s.dir[e].kind = k →
           v = (if s.dir[e].condition = cond then heardFrom (checkTaken s l c) e
             else marked (atUnit (checkTaken s l c) e { afterHeard s e with condition := cond }) e) →
           (k = .keypad ∨ s.dir[e].pos = none → exec (.unitStatus l c) s = .next (settle v)) ∧
           ∀ p : Pos, k = .reader → s.dir[e].pos = some p →
             (s.card[p].state ≠ .fault → exec (.unitStatus l c) s = .next (settle v)) ∧
             (s.card[p].state = .fault →
               (present = false → exec (.unitStatus l c) s = .next (settle (cardTo v p .empty .status))) ∧
               (present = true → s.time.attended = true →
                 exec (.unitStatus l c) s = .next (settle (cardTo v p .present .status))) ∧
               (present = true → s.time.attended = false →
                 exec (.unitStatus l c) s = .next (settle (ownCommand v p .eject .ejecting .status))))) ∧
  (∀ (s : State) (l : LineId) (f : RxFrame) (c : RawChar) (u : State), endsFrame s l f c → rxKind f = some .ack →
     wholeAndGood f c → f.discarded = false →
     (∀ q : QEntry, firstEntry s.lines[l] q (fun x => x.awaiting = true ∧ x.dest = headSource f.head) →
       (∀ x : Byte, q.lastBit = secondSeq f.second → f.buf = [0, x] → u = endEntry (checkTaken s l c) l q .delivered) ∧
       (∀ x : Byte, q.lastBit = secondSeq f.second → f.buf = [1, x] → u = endEntry (checkTaken s l c) l q (.refused x)) ∧
       (q.lastBit ≠ secondSeq f.second ∨ (∀ x : Byte, f.buf ≠ [0, x] ∧ f.buf ≠ [1, x]) →
         u = strayCounted (checkTaken s l c) l)) →
     ((∀ q ∈ s.lines[l].control ++ s.lines[l].pass, ¬ (q.awaiting = true ∧ q.dest = headSource f.head)) →
       u = strayCounted (checkTaken s l c) l) →
     (entryAt s l (headSource f.head) = none → exec (.unitAck l c) s = .next (settle u)) ∧
     ∀ e : EntryId, entryAt s l (headSource f.head) = some e → exec (.unitAck l c) s = .next (settle (heardFrom u e)))

/-! ## Stuck lines and transmissions (2.4, 2.5, 3.4) -/

/-- R33, R37, R45, R32: LINE_STUCK ends a transmission as a bit error and a reception with its record, counts, and makes the line
STUCK, remembering ACTIVE or DRAINING; LINE_IDLE ends it: the remembered ACTIVE comes back, a remembered DRAINING becomes STOPPED.
(Any reception but a header in progress lets a line become idle: log 40.) -/
def Obligations.StuckLineRecovers : Prop :=
  ∀ (s : State) (l : LineId), s.running = true →
    (∀ b : State, s.lines[l].state = .active ∨ s.lines[l].state = .draining → (s.lines[l].tx = none → b = s) →
      (s.lines[l].tx.isSome = true → b = bitErrorAt s l) →
      exec (.lineStuck l) s = .next (settle (onLine
        { b with pool :=
          match s.lines[l].rx with
            | .inFrame f => withoutReception b.pool f
            | _ => b.pool } l
        { b.lines[l] with
          rx := .hunting, idle := false, mark := true, latest := s.time.mono
          state := .stuck (decide (s.lines[l].state = .draining))
          counters := { b.lines[l].counters with stuck := min 65535 (b.lines[l].counters.stuck + 1) } }))) ∧
    (s.lines[l].tx = none → s.lines[l].idle = false → ¬ headerOpen s.lines[l] →
      (s.lines[l].state = .stuck false → exec (.lineIdle l) s = .next (settle (onLine s l
        { s.lines[l] with state := .active, idle := true, mark := true, latest := s.time.mono }))) ∧
      (s.lines[l].state = .stuck true → exec (.lineIdle l) s = .next (settle (enterStopped s l))))

/-- R34 to R38, R58, R64, R65: how a transmission ends. A header bit sent recessive and read dominant: the part withdraws and receives
on, no attempt counted, a reception that its transmission cut short discarded (log 40). Any other mismatch: a bit error, an attempt
of a queue entry, the third of which ends it NO_ACK. In full: an acknowledged frame awaits its ACK, another ends DELIVERED, an ACK
leaves its list. -/
def Obligations.TransmissionsEnd : Prop :=
  ∀ (s : State) (l : LineId) (x : Tx), s.running = true → s.lines[l].tx = some x →
    (∀ bit : Nat, bit ≤ 10 → sentBit (x.chars.getD 0 0) bit = true →
      exec (.lostArbitration l bit) s = .next (settle (onLine
        { withdrawn s l x with pool := receptionDropped (withdrawn s l x).pool s.lines[l] } l
        { (withdrawn s l x).lines[l] with
          rx := .completing x.startedAt x.inDrain
          counters := { s.lines[l].counters with arbLoss := min 65535 (s.lines[l].counters.arbLoss + 1) } }))) ∧
    (∀ (chr bit : Nat) (w : State), chr < x.chars.length → bit ≤ 10 → chr ≠ 0 ∨ sentBit (x.chars.getD 0 0) bit = false →
      w = onLine (withdrawn s l x) l
        { (withdrawn s l x).lines[l] with
          counters := { s.lines[l].counters with bitError := min 65535 (s.lines[l].counters.bitError + 1) } } →
      ((∀ q ∈ s.lines[l].control ++ s.lines[l].pass, q.inTx = false) → exec (.bitError l chr bit) s = .next (settle w)) ∧
      ∀ q : QEntry, firstEntry s.lines[l] q (fun y => y.inTx = true) →
        (q.attempts < 2 → exec (.bitError l chr bit) s = .next (settle (onLine w l
          (withEntry w.lines[l] q fun y => { y with attempts := q.attempts + 1 })))) ∧
        (2 ≤ q.attempts → exec (.bitError l chr bit) s =
          .next (settle (endEntry w l { q with attempts := q.attempts + 1, inTx := false } .noAck)))) ∧
    (x.src = .ack →
      exec (.frameTransmitted l) s =
        .next (settle (onLine s l { s.lines[l] with tx := none, acks := s.lines[l].acks.drop 1 }))) ∧
    (∀ r : RecId, x.src = .detached r →
      exec (.frameTransmitted l) s =
        .next (settle (onLine { s with pool := s.pool.dropRef r } l { s.lines[l] with tx := none }))) ∧
    ∀ (q : QEntry) (k : FrameKind), x.src = .queued → firstEntry s.lines[l] q (fun y => y.inTx = true) →
      s.pool.recs[q.record].kind = .frame k →
      ((k = .display ∨ k = .cardCommand ∨ k = .unitCommand) ∧ q.target ≠ none →
        exec (.frameTransmitted l) s = .next (settle (onLine s l
          { withEntry s.lines[l] q (fun y =>
              { y with
                sent := true, isOpen := true, awaiting := true, inTx := false, ackTimer := some s.profile.ackTimeout }) with
            tx := none }))) ∧
      ((k ≠ .display ∧ k ≠ .cardCommand ∧ k ≠ .unitCommand) ∨ q.target = none →
        exec (.frameTransmitted l) s = .next (settle (endEntry (onLine s l { s.lines[l] with tx := none }) l
          { q with inTx := false, sent := true } .delivered)))

/-- R65, R66, R41: an acknowledgement timeout is an attempt: the entry is sent again, or ends NO_ACK at the third, or LINE_STOPPED on a
line that drains; a queue limit ends its entry EXPIRED. -/
def Obligations.QueuedFramesTimeOut : Prop :=
  ∀ (s : State) (l : LineId) (q : QEntry), s.running = true →
    (∀ dest : Addr, firstEntry s.lines[l] q (fun y => y.awaiting = true ∧ y.dest = dest) → q.ackTimer = some 0 →
      (s.lines[l].state = .draining ∨ s.lines[l].state = .stuck true → exec (.ackTimeout l dest) s =
        .next (settle (endEntry s l { q with attempts := q.attempts + 1 } .lineStopped))) ∧
      (s.lines[l].state ≠ .draining → s.lines[l].state ≠ .stuck true →
        (q.attempts < 2 → exec (.ackTimeout l dest) s = .next (settle (onLine s l
          (withEntry s.lines[l] q fun y => { y with attempts := q.attempts + 1, awaiting := false, ackTimer := none })))) ∧
        (2 ≤ q.attempts → exec (.ackTimeout l dest) s =
          .next (settle (endEntry s l { q with attempts := q.attempts + 1, inTx := false } .noAck))))) ∧
    (firstEntry s.lines[l] q (fun y => y.record = q.record ∧ y.dest = q.dest) → q.limitTimer = some 0 →
      exec (.queueLimitExpiry l q.record q.dest) s = .next (settle (endEntry s l q .expired)))

/-! ## Screening and classification (5.1, 5.2) -/

/-- R92, R93, R96 to R100: Dispatch and a stored unit frame: each match's hit count rises; DROP releases the record; a frame that
suits no binding is queued as a notice; a KEY frame of a bound keypad goes to its session, or under the guard, or is discarded
when UNATTENDED, or becomes a notice; a bound reader's CARD_MOVE or TRACK goes to the Card Engine; a WITNESS adds a copy. (The record
of a KEY frame is released after its codes have been taken: log 15. An empty one draws no notice there: log 35.) -/
def Obligations.StoredFramesAreScreened : Prop :=
  ∀ (s u : State) (r : RecId) (e : EntryId) (l : LineId) (k : FrameKind) (sk : ScreenKind) (src knd : Option EntryId) (q : Cls),
    screenKindNamed k sk →
    firstScreen s (fun x => x.inUse = true ∧ x.type = .source ∧ selects x s.dir[e] l) src →
    firstScreen s (fun x => x.inUse = true ∧ x.type = .kind ∧ x.kind = sk) knd → queueOf s src knd s.pool.recs[r].urg q →
    u = { s with hits := u.hits } →
    (∀ i : EntryId, u.hits[i] = if src = some i ∨ knd = some i then min 65535 (s.hits[i] + 1) else s.hits[i]) →
    (actionOf s src = .drop ∨ actionOf s knd = .drop → handOver s r e l k = { u with pool := s.pool.dropRef r }) ∧
    (actionOf s src ≠ .drop → actionOf s knd ≠ .drop →
      (s.dir[e].state = .free ∨ s.dir[e].pos = none ∨ k = .alert ∨ k = .data ∨ (k = .key ∧ s.dir[e].kind = .reader) ∨
          ((k = .cardMove ∨ k = .track) ∧ s.dir[e].kind = .keypad) →
        handOver s r e l k = u.pushW q (unitNotice s r e (noticeOfFrame k) false)) ∧
      ∀ p : Pos, s.dir[e].state ≠ .free → s.dir[e].pos = some p →
        (k = .key → s.dir[e].kind = .keypad →
          (∀ ss : Session, s.entry[p].sess = some ss →
            ((actionOf s src = .witness ∨ actionOf s knd = .witness) ∧ ss.witness = true →
              handOver s r e l k = dropRef (takeKeys p e (s.pool.body r) false false
                (witnessedBy u q r (unitNotice s r e .key true))) r) ∧
            ((actionOf s src ≠ .witness ∧ actionOf s knd ≠ .witness) ∨ ss.witness = false →
              handOver s r e l k = dropRef (takeKeys p e (s.pool.body r) false false u) r)) ∧
          (s.entry[p].sess = none →
            (s.entry[p].guardTimer ≠ none → handOver s r e l k = dropRef (guardKeys u p e (s.pool.body r)) r) ∧
            (s.entry[p].guardTimer = none → s.time.attended = false →
              handOver s r e l k = { u with pool := s.pool.dropRef r }) ∧
            (s.entry[p].guardTimer = none → s.time.attended = true →
              handOver s r e l k = u.pushW q (unitNotice s r e .key false)))) ∧
        ∀ v : State, s.dir[e].kind = .reader →
          ((actionOf s src ≠ .witness ∧ actionOf s knd ≠ .witness) → v = u) →
          (actionOf s src = .witness ∨ actionOf s knd = .witness →
            v = witnessedBy u 1 r (unitNotice s r e (noticeOfFrame k) true)) →
          (k = .cardMove → handOver s r e l k = cardMoveFrame v p r) ∧
          (k = .track → handOver s r e l k = trackFrame v p e r))

/-! ## Supervision and the requests of the Directory (4.3, 4.4, 4.6) -/

/-- R80, R82, R73: a grant timer offers the GRANT again up to three times, then the grant cycle fails: address released, LOST if
established, else FREE and unbound; a silence timer makes an ACTIVE entry SILENT, its lost timer running on; a lost timer makes a
SILENT one LOST: address released, sessions ended UNIT_LOST. The mark is set, but for a repeated GRANT. (What offerGrant leaves is said
in HelloIsAnswered.) -/
def Obligations.UnitTimersSupervise : Prop :=
  ∀ (s : State) (e : EntryId), s.running = true →
    (s.dir[e].state = .pending → s.dir[e].grantTimer = some 0 →
      (∀ d : DirEntry, d = { s.dir[e] with grantTimer := none, grantAttempts := s.dir[e].grantAttempts + 1 } →
        s.dir[e].grantAttempts < 3 → exec (.grantTimerExpiry e) s =
          .next (settle (atUnit (offerGrant (atUnit s e d) e) e { d with grantTimer := some s.profile.grantTimeout }))) ∧
      ∀ v : State, v = releaseAddress (atUnit s e { s.dir[e] with grantTimer := none }) e → 3 ≤ s.dir[e].grantAttempts →
        (s.dir[e].established = true → exec (.grantTimerExpiry e) s =
          .next (settle (marked (atUnit v e { v.dir[e] with state := .lost }) e))) ∧
        (s.dir[e].established = false → exec (.grantTimerExpiry e) s =
          .next (settle (marked (atUnit v e { v.dir[e] with state := .free, pos := none, pinned := false }) e)))) ∧
    (s.dir[e].state = .active → s.dir[e].silenceTimer = some 0 → exec (.silenceTimerExpiry e) s =
      .next (settle (atUnit s e
        { s.dir[e] with state := .silent, silenceTimer := none, mark := true, latest := s.time.mono }))) ∧
    (s.dir[e].state = .silent → s.dir[e].lostTimer = some 0 → exec (.lostTimerExpiry e) s =
      .next (settle (marked (sessionsEnded (releaseAddress (atUnit s e { s.dir[e] with state := .lost, lostTimer := none }) e)
        s.dir[e].kind s.dir[e].pos .unitLost) e)))

/-- R85, R202, R203: UNIT_LIST replies OK with the sixteen entries in ascending order; UNIT_INFO with the one that holds the identity,
its bits and its timers; no entry that holds it is NO_SUCH_UNIT, another length BAD_LENGTH; the Directory is unchanged. -/
def Obligations.UnitsAreReported : Prop :=
  (∀ (s : State) (i : SlotId), asks s i 0x10 [] →
    exec .unitList s = .next (settleLink (replied s i .ok ((List.finRange 16).flatMap fun e => unitBytes s e)))) ∧
  (∀ (s : State) (i : SlotId) (body : List Byte), asks s i 0x10 body → body ≠ [] →
    exec .unitList s = .next (settleLink (replied s i .badLength []))) ∧
  (∀ (s : State) (i : SlotId) (e : EntryId), asks s i 0x11 (leBytes 6 s.dir[e].identity.toNat) → holds s e s.dir[e].identity →
    exec .unitInfo s = .next (settleLink (replied s i .ok
      (unitBytes s e ++ [byteOf s.dir[e].grantAttempts, if s.dir[e].outBit then 1 else 0,
          match s.dir[e].inBit with
            | none => 2
            | some true => 1
            | some false => 0]
        ++ leBytes 2 (min 65535 (elapsed s.time.mono s.dir[e].lastHeard)) ++ timerBytes s.dir[e].grantTimer
        ++ timerBytes s.dir[e].silenceTimer ++ timerBytes s.dir[e].lostTimer)))) ∧
  (∀ (s : State) (i : SlotId) (n : Identity), asks s i 0x11 (leBytes 6 n.toNat) →
    (∀ e : EntryId, s.dir[e].state ≠ .free → s.dir[e].identity ≠ n) →
    exec .unitInfo s = .next (settleLink (replied s i .noSuchUnit []))) ∧
  ∀ (s : State) (i : SlotId) (body : List Byte), asks s i 0x11 body → body.length ≠ 6 →
    exec .unitInfo s = .next (settleLink (replied s i .badLength []))

/-- R86 to R88: UNIT_BIND moves a unit into an empty slot of its kind, its sessions at the old position ended UNBOUND, not pinned;
UNIT_UNBIND empties its slot; UNIT_FORGET makes its entry FREE, the address released and the sessions ended; each sets the mark of
what it changes, and is OK with nothing changed where it is so already. Refusals change nothing. -/
def Obligations.BindingsChange : Prop :=
  (∀ (s : State) (i : SlotId) (e : EntryId) (p : Pos), asks s i 0x12 (leBytes 6 s.dir[e].identity.toNat ++ [byteOf (p.val + 1)]) →
    holds s e s.dir[e].identity →
    (slotOf s s.dir[e].kind p = some e → exec .unitBind s = .next (settle (replied s i .ok []))) ∧
    (∀ x : EntryId, slotOf s s.dir[e].kind p = some x → x ≠ e → exec .unitBind s = .next (settle (replied s i .slotTaken []))) ∧
    ∀ v : State, slotOf s s.dir[e].kind p = none →
      (s.dir[e].pos = none → v = s) →
      (s.dir[e].pos ≠ none →
        v = sessionsEnded (atUnit s e { s.dir[e] with pos := none, pinned := false }) s.dir[e].kind s.dir[e].pos .unbound) →
      exec .unitBind s =
        .next (settle (replied (marked (atUnit v e { v.dir[e] with pos := some p, pinned := false }) e) i .ok []))) ∧
  (∀ (s : State) (i : SlotId) (e : EntryId), asks s i 0x13 (leBytes 6 s.dir[e].identity.toNat) → holds s e s.dir[e].identity →
    (s.dir[e].pos = none → exec .unitUnbind s = .next (settle (replied s i .ok []))) ∧
    (s.dir[e].pos ≠ none → exec .unitUnbind s = .next (settle (replied (marked (sessionsEnded
      (atUnit s e { s.dir[e] with pos := none, pinned := false }) s.dir[e].kind s.dir[e].pos .unbound) e) i .ok [])))) ∧
  (∀ (s v w : State) (i : SlotId) (e : EntryId), asks s i 0x14 (leBytes 6 s.dir[e].identity.toNat) →
    holds s e s.dir[e].identity → v = (if s.dir[e].addr = none then s else releaseAddress s e) →
    w = sessionsEnded v s.dir[e].kind s.dir[e].pos .unbound →
    exec .unitForget s = .next (settle (replied (marked
      (atUnit w e { w.dir[e] with state := .free, pos := none, pinned := false, established := false }) e) i .ok []))) ∧
  (∀ (s : State) (i : SlotId) (n : Identity), (∀ e : EntryId, s.dir[e].state ≠ .free → s.dir[e].identity ≠ n) →
    (∀ p : Pos, asks s i 0x12 (leBytes 6 n.toNat ++ [byteOf (p.val + 1)]) →
      exec .unitBind s = .next (settle (replied s i .noSuchUnit []))) ∧
    (asks s i 0x13 (leBytes 6 n.toNat) → exec .unitUnbind s = .next (settle (replied s i .noSuchUnit []))) ∧
    (asks s i 0x14 (leBytes 6 n.toNat) → exec .unitForget s = .next (settle (replied s i .noSuchUnit [])))) ∧
  ∀ (s : State) (i : SlotId) (body : List Byte),
    (∀ b : Byte, body.length = 6 → b = 0 ∨ 8 < b.toNat → asks s i 0x12 (body ++ [b]) →
      exec .unitBind s = .next (settle (replied s i .badParameter []))) ∧
    (body.length ≠ 7 → asks s i 0x12 body → exec .unitBind s = .next (settle (replied s i .badLength []))) ∧
    (body.length ≠ 6 → asks s i 0x13 body → exec .unitUnbind s = .next (settle (replied s i .badLength []))) ∧
    (body.length ≠ 6 → asks s i 0x14 body → exec .unitForget s = .next (settle (replied s i .badLength [])))

/-! ## The requests of Dispatch (5.1, 5.4) -/

/-- R91, R94 to R96, R202: SCREEN_SET writes a valid item into the working profile and makes its hit count 0; SCREEN_GET replies the
whole list, or one entry, each with its hit count, unchanged; a field outside its values is BAD_PARAMETER, a wrong length BAD_LENGTH,
with nothing written. -/
def Obligations.ScreenListIsKept : Prop :=
  (∀ (s : State) (i : SlotId) (n : EntryId) (x : ScreenEntry), asks s i 0x18 (screenBytes n x) → selectorNamed x →
    exec .screenSet s = .next (settleLink (replied
      { s with profile := { s.profile with screen := s.profile.screen.set n x }, hits := s.hits.set n 0 } i .ok []))) ∧
  (∀ (s : State) (i : SlotId) (body : List Byte), asks s i 0x18 body → body.length = 13 →
    (∀ (n : EntryId) (x : ScreenEntry), selectorNamed x → body ≠ screenBytes n x) →
    exec .screenSet s = .next (settleLink (replied s i .badParameter []))) ∧
  (∀ (s : State) (i : SlotId) (body : List Byte), asks s i 0x18 body → body.length ≠ 13 →
    exec .screenSet s = .next (settleLink (replied s i .badLength []))) ∧
  (∀ (s : State) (i : SlotId), asks s i 0x19 [] → exec .screenGet s = .next (settleLink (replied s i .ok
    ((List.finRange 16).flatMap fun n => screenBytes n s.profile.screen[n] ++ leBytes 2 s.hits[n])))) ∧
  (∀ (s : State) (i : SlotId) (n : EntryId), asks s i 0x19 [byteOf n.val] →
    exec .screenGet s = .next (settleLink (replied s i .ok (screenBytes n s.profile.screen[n] ++ leBytes 2 s.hits[n])))) ∧
  (∀ (s : State) (i : SlotId) (b : Byte), asks s i 0x19 [b] → 16 ≤ b.toNat →
    exec .screenGet s = .next (settleLink (replied s i .badParameter []))) ∧
  ∀ (s : State) (i : SlotId) (body : List Byte), asks s i 0x19 body → 2 ≤ body.length →
    exec .screenGet s = .next (settleLink (replied s i .badLength []))

/-- R103, R104: UNIT_SEND: with targets, and both admissions granted, its body is stored with one reference for each copy placed, the
bookkeeping is kept, and each target gets its copy at the tail of its line's pass queue, or LINE_STOPPED at once; refusals: the
body's length, the urgency, an empty role, no target, either admission. -/
def Obligations.SendFansOut : Prop :=
  (∀ (s : State) (i : SlotId) (b0 b1 urg : Byte) (n : Identity) (body : List Byte) (c : Cls) (tgs : List EntryId),
    asks s i 0x1A (b0 :: b1 :: leBytes 6 n.toNat ++ urg :: byteOf body.length :: body) → body.length ≤ 120 →
    (urg ≠ 1 → urg ≠ 2 → exec .unitSend s = .next (settle (replied s i .badParameter []))) ∧
    (urg = 1 ∨ urg = 2 → c.val = urg.toNat →
      (b0 ≠ 0 → b1.toNat % 4 = 0 → exec .unitSend s = .next (settle (replied s i .badParameter []))) ∧
      (b0 = 0 ∨ b1.toNat % 4 ≠ 0 → tgs = sendTargets s b0 b1 n →
        (tgs = [] → exec .unitSend s = .next (settle (replied s i .noSuchUnit []))) ∧
        (tgs ≠ [] →
          (∀ x : Fin 9, refusedAt s.profile s.pool 0 4 .part x →
            exec .unitSend s = .next (settle (replied { s with pool := counted s.pool x } i .poolFull []))) ∧
          ∀ (sd : RecId) (p : Pool), granted s.pool p sd (promised s .sendDone s.link.slots[i].tag) →
            admissible s.profile s.pool 0 4 .part →
            (∀ x : Fin 9, refusedAt s.profile p c (chunksNeeded body.length) (.workstation s.link.slots[i].tag) x →
              exec .unitSend s = .next (settle (replied { s with pool := (counted p x).dropRef sd } i .poolFull []))) ∧
            (memorySound s.pool → chunksSound s.pool →
              admissible s.profile p c (chunksNeeded body.length) (.workstation s.link.slots[i].tag) →
              ∃ (r : RecId) (p1 p2 p3 : Pool) (ts : List Target),
                granted p p1 r (sentBody s s.link.slots[i].tag (BitVec.ofNat 2 urg.toNat) c body.length) ∧
                bodyWritten p1 p2 r body ∧
                ts = tgs.map (fun e => { e := e, identity := s.dir[e].identity, line := s.dir[e].line, ended := false : Target }) ∧
                ((∀ t ∈ ts, s.lines[t.line].state = .stopped) → p3 = p2.dropRef r) ∧
                ((∃ t ∈ ts, s.lines[t.line].state ≠ .stopped) →
                  p3 = { p2 with
                    recs := p2.recs.set r
                      { p2.recs[r] with refs := ts.countP fun t => s.lines[t.line].state != .stopped } }) ∧
                exec .unitSend s = .next (settle (replied
                  (ts.foldl (placeCopy sd r)
                    { s with
                      pool := p3
                      fanouts := s.fanouts ++
                        [{ sendDone := sd, body := r, tag := s.link.slots[i].tag, targets := ts, outstanding := ts.length }] })
                  i .ok [byteOf tgs.length]))))))) ∧
  (∀ (s : State) (sd r : RecId) (t : Target),
    (s.lines[t.line].state = .stopped → placeCopy sd r s t = copyOutcome s sd t.e .lineStopped) ∧
    (∀ a : Addr, s.lines[t.line].state ≠ .stopped → s.dir[t.e].addr = some a →
      placeCopy sd r s t = onLine s t.line
        { s.lines[t.line] with
          pass := s.lines[t.line].pass ++ [queuedFrame s r a (some t.e) (.dispatch sd)] })) ∧
  ∀ (s : State) (i : SlotId) (body : List Byte), asks s i 0x1A body →
    body.length < 10 ∨ body.length ≠ 10 + (byteAt body 9).toNat ∨ 120 < (byteAt body 9).toNat →
    exec .unitSend s = .next (settle (replied s i .badLength []))

/-! ## Entry contexts (chapter 6) -/

/-- R114 to R116, R124: ENTRY_OPEN on a position with a serving keypad and no session: its result is promised, the session is OPEN with
the value empty and its timeouts taken, the guard stopped, the keypad the display target, the opening display offered, and the
reply OK, or CLAMPED; each check that fails refuses it in the order of R114, with nothing changed: length, position and kind, keypad,
IDLE context, parameters, promise. -/
def Obligations.SessionsOpen : Prop :=
  (∀ (s : State) (i : SlotId) (p : Pos) (f : Field) (t1 t2 m : Byte) (prompt pfx : List Byte),
    asks s i 0x20 (openBody p f t1 t2 prompt m pfx) → fieldSound f → prompt.length = 16 → pfx.length = 3 → m.toNat ≤ 3 →
    ((∀ e : EntryId, ¬ servesSessions s p e) → exec .entryOpen s = .next (settle (replied s i .noSuchUnit []))) ∧
    ∀ e : EntryId, servesSessions s p e →
      (s.entry[p].sess ≠ none → exec .entryOpen s = .next (settle (replied s i .sessionBusy []))) ∧
      (s.entry[p].sess = none →
        (∀ x : Fin 9, refusedAt s.profile s.pool 0 1 .part x →
          exec .entryOpen s = .next (settle (replied { s with pool := counted s.pool x } i .poolFull []))) ∧
        (admissible s.profile s.pool 0 1 .part → ∃ (r : RecId) (pl : Pool) (ss : Session),
          granted s.pool pl r (promised s .entryResult s.link.slots[i].tag) ∧
          ss =
            { active := false, field := f, value := 0, digits := [], prompt := prompt, pfx := pfx.take m.toNat
              firstKey := timeoutTaken t1 s.profile.firstKey 120, interKey := timeoutTaken t2 s.profile.interKey 60
              firstTimer := some (1000 * timeoutTaken t1 s.profile.firstKey 120), interTimer := none, result := r
              tag := s.link.slots[i].tag, keypad := e, keypadId := s.dir[e].identity
              witness := match f with
                | .pin .. => false
                | _ => true } ∧
          exec .entryOpen s = .next (settle (replied
            (displayUpdate (atEntry { s with pool := pl } p
              { s.entry[p] with sess := some ss, guardTimer := none, target := some (e, s.dir[e].identity) })
              p (sessionLines ss) .none)
            i (if 120 < t1.toNat ∨ 60 < t2.toNat then .clamped else .ok) [byteOf ss.firstKey, byteOf ss.interKey]))))) ∧
  (∀ (s : State) (i : SlotId) (body : List Byte) (k : Byte), asks s i 0x20 body → k = byteAt body 1 →
    body.length < 2 ∨ (k = 1 ∧ body.length ≠ 37) ∨ (k = 2 ∧ body.length ≠ 27) ∨ (k = 3 ∧ body.length ≠ 26) ∨
      (k = 4 ∧ body.length ≠ 24) →
    exec .entryOpen s = .next (settle (replied s i .badLength []))) ∧
  (∀ (s : State) (i : SlotId) (body : List Byte) (k : Byte), asks s i 0x20 body → k = byteAt body 1 → 2 ≤ body.length →
    k = 0 ∨ 4 < k.toNat → exec .entryOpen s = .next (settle (replied s i .badParameter []))) ∧
  ∀ (s : State) (i : SlotId) (body : List Byte) (k : Byte), asks s i 0x20 body → k = byteAt body 1 →
    (k = 1 ∧ body.length = 37) ∨ (k = 2 ∧ body.length = 27) ∨ (k = 3 ∧ body.length = 26) ∨ (k = 4 ∧ body.length = 24) →
    (byteAt body 0 = 0 ∨ 8 < (byteAt body 0).toNat → exec .entryOpen s = .next (settle (replied s i .badParameter []))) ∧
    ∀ p : Pos, byteAt body 0 = byteOf (p.val + 1) →
      ((∀ e : EntryId, ¬ servesSessions s p e) → exec .entryOpen s = .next (settle (replied s i .noSuchUnit []))) ∧
      ∀ e : EntryId, servesSessions s p e →
        (s.entry[p].sess ≠ none → exec .entryOpen s = .next (settle (replied s i .sessionBusy []))) ∧
        (s.entry[p].sess = none →
          3 < (byteAt body 20).toNat ∨ (∀ f : Field, fieldSound f → body.drop 24 ≠ fieldBytes f) →
          exec .entryOpen s = .next (settle (replied s i .badParameter [])))

/-- R124 to R129: a session ends by ENTRY_CANCEL, by its timers, or ABORTED by an event: its result is completed on W0 with value,
outcome and cause, the context is IDLE, the closing display is offered (the closed text for UNATTENDED), and a PIN session arms
the guard. ENTRY_CANCEL of an IDLE context is NO_SESSION. -/
def Obligations.SessionsEnd : Prop :=
  (∀ (s v w : State) (p : Pos) (ss : Session) (o : EntryOutcome) (c : Cause) (t : Tone), valueSound ss → fieldSound ss.field →
    v = completePromise s ss.result .entryResult 0 (some p) (resultBytes p ss o c) →
    w = displayUpdate (atEntry v p { s.entry[p] with sess := none }) p
      (if c = .unattended then { line1 := s.profile.closedText, line2 := s.profile.closedText }
        else { line1 := List.replicate 16 0x20, line2 := List.replicate 16 0x20 }) t →
    ((∃ lo hi, ss.field = .pin lo hi) → s.profile.pinGuard ≠ 0 →
      endSession s p ss o c t = atEntry w p { w.entry[p] with guardTimer := some (1000 * s.profile.pinGuard) }) ∧
    ((∀ lo hi, ss.field ≠ .pin lo hi) ∨ s.profile.pinGuard = 0 → endSession s p ss o c t = w)) ∧
  (∀ (s : State) (p : Pos) (c : Cause),
    (s.entry[p].sess = none → abortSession s p c = s) ∧
    ∀ ss : Session, s.entry[p].sess = some ss → abortSession s p c = endSession s p ss .aborted c .none) ∧
  (∀ (s : State) (p : Pos) (ss : Session), s.running = true → s.entry[p].sess = some ss →
    (ss.firstTimer = some 0 →
      exec (.firstKeyTimeout p) s = .next (settle (endSession s p ss .timedOut .firstKey .none))) ∧
    (ss.interTimer = some 0 →
      exec (.interKeyTimeout p) s = .next (settle (endSession s p ss .timedOut .interKey .none)))) ∧
  (∀ (s : State) (i : SlotId) (p : Pos), asks s i 0x21 [byteOf (p.val + 1)] →
    (s.entry[p].sess = none → exec .entryCancel s = .next (settle (replied s i .noSession []))) ∧
    ∀ ss : Session, s.entry[p].sess = some ss →
      exec .entryCancel s = .next (settle (replied (endSession s p ss .aborted .entryCancel .none) i .ok []))) ∧
  ∀ (s : State) (i : SlotId) (body : List Byte), asks s i 0x21 body →
    (body.length ≠ 1 → exec .entryCancel s = .next (settle (replied s i .badLength []))) ∧
    ∀ b : Byte, body = [b] → b = 0 ∨ 8 < b.toNat → exec .entryCancel s = .next (settle (replied s i .badParameter []))

/-- R68, R131 to R133: a display update becomes the wanted lines and is folded into an unsent DISPLAY of its context, or offered to its
keypad's line; one that is refused waits with the stronger tone, to be retried after 100 ms; with no keypad to reach, the target
is dropped. The guard's expiry stops the guard. (LOST targets by log 25.) -/
def Obligations.DisplaysReachTheKeypad : Prop :=
  (∀ (s : State) (p : Pos) (d : DisplayLines) (t u : Tone), u = strongerTone t s.entry[p].pendTone →
    (unreached s p → displayUpdate s p d t = atEntry s p { displayed s.entry[p] d with target := none }) ∧
    ∀ (e : EntryId) (a : Addr) (l : LineId), reached s p e a → s.dir[e].line = l →
      (s.lines[l].state = .stopped → displayUpdate s p d t = atEntry s p (displayWaits s.entry[p] d u)) ∧
      (s.lines[l].state ≠ .stopped →
        (∀ (before after : List QEntry) (q : QEntry), s.lines[l].control = before ++ q :: after → unsentDisplay s p a q →
          (∀ x ∈ before, ¬ unsentDisplay s p a x) →
          displayUpdate s p d t = atEntry
            { s with pool := s.pool.setBody q.record (d.line1 ++ d.line2 ++
              [(strongerTone (Tone.ofCode (byteAt (s.pool.body q.record) 32)) u).code]) } p (displayed s.entry[p] d)) ∧
        ((∀ x ∈ s.lines[l].control, ¬ unsentDisplay s p a x) → ∀ (v : State) (x : Offer),
          offerControl s l .display a (some e) (.entry p) (d.line1 ++ d.line2 ++ [u.code]) = (v, x) →
          ((∃ r, x = .carried r) → displayUpdate s p d t = atEntry v p (displayed s.entry[p] d)) ∧
          (x = .refused → displayUpdate s p d t = atEntry v p (displayWaits s.entry[p] d u))))) ∧
  (∀ (s : State) (p : Pos), s.running = true →
    (s.entry[p].guardTimer = some 0 → exec (.pinGuardExpiry p) s = .next (atEntry s p { s.entry[p] with guardTimer := none })) ∧
    (s.entry[p].retryTimer = some 0 → s.entry[p].dispPending = true →
      ((∃ (e : EntryId) (i : Identity), s.entry[p].target = some (e, i) ∧ s.dir[e].state ≠ .free ∧ s.dir[e].identity = i ∧
          s.lines[s.dir[e].line].state = .stopped) →
        exec (.displayRetryExpiry p) s = .next (settle (atEntry s p { s.entry[p] with retryTimer := some 100 }))) ∧
      ((∀ (e : EntryId) (i : Identity), s.entry[p].target = some (e, i) →
          s.dir[e].state = .free ∨ s.dir[e].identity ≠ i ∨ s.lines[s.dir[e].line].state ≠ .stopped) →
        exec (.displayRetryExpiry p) s = .next (settle
          (displayUpdate (atEntry s p { s.entry[p] with retryTimer := none }) p s.entry[p].wanted .none))))) ∧
  ∀ t u : Tone, (t = .buzz ∨ u = .buzz → strongerTone t u = .buzz) ∧ (strongerTone t .none = t) ∧ (strongerTone .none u = u) ∧
    strongerTone .click .click = .click

/-- R117 to R123, R130, R131, R164: the codes of a KEY frame in order: a function key becomes a KEY notice, an unknown code nothing; a
taken key is accepted, refused or ends the session as its field kind says; the frame is answered by one update, BUZZ if a key
was refused; the codes after an ending, and those under the guard, go where R130 and R131 say: under the guard digits are
discarded, when UNATTENDED every code is, and a frame of which a code was discarded draws a BUZZ. The KEY notice is part-built, of class
1, on W1 with position and keypad, the codes its body; one that the pool refuses is skipped, its counter risen. (Empty frames: log 35;
the urgency of the notice: log 30.) -/
def Obligations.KeysEditTheValue : Prop :=
  ((∀ n : Nat, n ≤ 9 → keyOfCode (byteOf n) = .key (.digit n)) ∧ keyOfCode 0x0A = .key .doubleZero ∧
    keyOfCode 0x0B = .key .back ∧ keyOfCode 0x0C = .key .clear ∧ keyOfCode 0x0D = .key .enter ∧ keyOfCode 0x0E = .key .cancel ∧
    ∀ b : Byte, (keyOfCode b = .function ↔ 0x11 ≤ b.toNat ∧ b.toNat ≤ 0x14) ∧
      (keyOfCode b = .unknown ↔ b.toNat = 0x0F ∨ b.toNat = 0x10 ∨ 0x14 < b.toNat)) ∧
  (∀ (s : State) (p : Pos) (e : EntryId) (c : Byte) (cs : List Byte) (taken buzz : Bool) (ss : Session),
    s.entry[p].sess = some ss →
    (keyOfCode c = .function → takeKeys p e (c :: cs) taken buzz s = takeKeys p e cs taken buzz (keyNotice s p e [c])) ∧
    (keyOfCode c = .unknown → takeKeys p e (c :: cs) taken buzz s = takeKeys p e cs taken buzz s) ∧
    ∀ k : Key, keyOfCode c = .key k →
      (∀ x : Session, keyEffect ss k = .accepts x → takeKeys p e (c :: cs) taken buzz s =
        takeKeys p e cs true buzz (atEntry s p { s.entry[p] with sess := some (afterKey x) })) ∧
      (keyEffect ss k = .refuses → takeKeys p e (c :: cs) taken buzz s =
        takeKeys p e cs true true (atEntry s p { s.entry[p] with sess := some (afterKey ss) })) ∧
      ∀ (o : EntryOutcome) (d : Cause) (v : State), keyEffect ss k = .ends o d →
        v = endSession s p ss o d (if buzz then .buzz else .click) →
        ((∀ lo hi, ss.field ≠ .pin lo hi) →
          (cs = [] ∨ v.time.attended = false → takeKeys p e (c :: cs) taken buzz s = v) ∧
          (cs ≠ [] → v.time.attended = true → takeKeys p e (c :: cs) taken buzz s = keyNotice v p e cs)) ∧
        ((∃ lo hi, ss.field = .pin lo hi) → takeKeys p e (c :: cs) taken buzz s =
          (cs.filter fun b => decide (0x11 ≤ b.toNat ∧ b.toNat ≤ 0x14)).foldl (fun t b => keyNotice t p e [b]) v)) ∧
  (∀ (s : State) (p : Pos) (e : EntryId) (buzz : Bool) (ss : Session), s.entry[p].sess = some ss →
    takeKeys p e [] false buzz s = s ∧
    takeKeys p e [] true buzz s = displayUpdate s p (sessionLines ss) (if buzz then .buzz else .click)) ∧
  (∀ (s v : State) (p : Pos) (e : EntryId) (codes kept : List Byte), kept = codes.filter (fun b => decide (0x0A < b.toNat)) →
    (kept = [] ∨ s.time.attended = false → v = s) → (kept ≠ [] → s.time.attended = true → v = keyNotice s p e kept) →
    ((∃ b ∈ codes, b.toNat ≤ 0x0A) ∨ (codes ≠ [] ∧ s.time.attended = false) →
      guardKeys s p e codes = displayUpdate v p v.entry[p].wanted .buzz) ∧
    ((∀ b ∈ codes, 0x0A < b.toNat) → codes = [] ∨ s.time.attended = true → guardKeys s p e codes = v)) ∧
  (∀ (s : State) (p : Pos) (e : EntryId) (codes : List Byte),
    (memorySound s.pool → chunksSound s.pool → admissible s.profile s.pool 1 (chunksNeeded codes.length) .part →
      ∃ (r : RecId) (pl q : Pool), granted s.pool pl r (ownKeys s codes.length) ∧ bodyWritten pl q r codes ∧
        keyNotice s p e codes =
          { s with
            pool := q
            w1 := s.w1 ++ [
              { record := r, kind := .key, tag := 0
                unit := some { identity := s.dir[e].identity, line := s.dir[e].line, addr := s.dir[e].addr, kind := s.dir[e].kind }
                pos := some p, witnessed := false, resent := false }] }) ∧
    ∀ x : Fin 9, refusedAt s.profile s.pool 1 (chunksNeeded codes.length) .part x →
      keyNotice s p e codes = { s with pool := counted s.pool x }) ∧
  ∀ ss : Session, (sessionLines ss).line1 = ss.prompt ∧
    (∀ k maxV minV n : Nat, ss.field = .amount k maxV minV → ss.value / 10 ^ k < 10 ^ n → 1 ≤ n → n ≤ 13 →
      (n = 1 ∨ 10 ^ (n - 1) ≤ ss.value / 10 ^ k) →
      ∃ text : List Byte,
        text = ((List.range n).map fun j => byteOf (0x30 + ss.value / 10 ^ k / 10 ^ (n - 1 - j) % 10))
          ++ (if k = 0 then [] else
            0x2E :: (List.range k).map fun j => byteOf (0x30 + ss.value % 10 ^ k / 10 ^ (k - 1 - j) % 10)) ∧
        (sessionLines ss).line2 = ss.pfx ++ List.replicate (16 - ss.pfx.length - text.length) 0x20 ++ text) ∧
    (∀ lo hi : Nat, ss.field = .digits lo hi false → ∃ shown : List Nat, shown <:+ ss.digits ∧
      shown.length = min 16 ss.digits.length ∧
      (sessionLines ss).line2 = (shown.map fun d => byteOf (0x30 + d)) ++ List.replicate (16 - shown.length) 0x20) ∧
    (∀ lo hi : Nat, ss.field = .digits lo hi true ∨ ss.field = .pin lo hi →
      (sessionLines ss).line2 =
        List.replicate (min 16 ss.digits.length) 0x2A ++ List.replicate (16 - ss.digits.length) 0x20) ∧
    (ss.field = .confirm → (sessionLines ss).line2 = List.replicate 16 0x20)

/-! ## Card contexts (chapter 7) -/

/-- R137 to R141, R146: CARD_READ, CARD_EJECT and CARD_RETAIN in the states that accept them, with a serving reader: the command is
offered to its line and becomes current, a promise of READ_DONE and the read timer with a read, an ABORTED read before a movement,
the movement timer with it; a refused offer or promise is POOL_FULL, the context unchanged; every failed check refuses. (That
CARD_RETAIN in FAULT with no reader to command is WRONG_STATE is log 36; the order in which holds are released, log 37.) -/
def Obligations.CardRequestsCommandTheReader : Prop :=
  (∀ (s : State) (i : SlotId) (p : Pos) (m t : Byte), asks s i 0x28 [byteOf (p.val + 1), m, t] →
    (m = 0 ∨ 7 < m.toNat → exec .cardRead s = .next (settle (replied s i .badParameter []))) ∧
    (1 ≤ m.toNat → m.toNat ≤ 7 →
      ((s.card[p].state ≠ .present ∧ s.card[p].state ≠ .read) ∨ readerAway s p →
        exec .cardRead s = .next (settle (replied s i .wrongState []))) ∧
      ∀ (e : EntryId) (a : Addr), s.card[p].state = .present ∨ s.card[p].state = .read → readerServes s p e a →
        (∀ x : Fin 9, refusedAt s.profile s.pool 0 1 .part x →
          exec .cardRead s = .next (settle (replied { s with pool := counted s.pool x } i .poolFull []))) ∧
        ∀ (pr : RecId) (pl : Pool) (v : State) (x : Offer), granted s.pool pl pr (promised s .readDone s.link.slots[i].tag) →
          admissible s.profile s.pool 0 1 .part →
          offerControl { s with pool := pl } s.dir[e].line .cardCommand a (some e) (.card p) [1, m] = (v, x) →
          (x = .refused → exec .cardRead s =
            .next (settle (replied { v with pool := v.pool.dropRef pr } i .poolFull []))) ∧
          ∀ r : RecId, x = .carried r → exec .cardRead s = .next (settle (replied
            (atCard { v with pool := (heldBy s.card[p]).foldl Pool.dropRef v.pool } p
              (entered s { s.card[p] with
                holds := Vector.replicate 3 none, result := some pr, mask := BitVec.ofNat 3 m.toNat
                tag := s.link.slots[i].tag, reader := some (e, s.dir[e].identity) }
                .reading .request (some (.read, r)) (timeoutTaken t s.profile.readTimeout 20)))
            i (if 20 < t.toNat then .clamped else .ok) [byteOf (timeoutTaken t s.profile.readTimeout 20)])))) ∧
  (∀ (s : State) (i : SlotId) (p : Pos) (cmd : CardCommand) (c : Instr) (ty : Byte) (st : CardState),
    (cmd = .eject ∧ c = .cardEject ∧ ty = 0x2A ∧ st = .ejecting) ∨ (cmd = .retain ∧ c = .cardRetain ∧ ty = 0x2B ∧ st = .retaining) →
    asks s i ty [byteOf (p.val + 1)] →
    ((cmd = .eject ∧ s.card[p].state ∉ [.present, .reading, .read]) ∨ (cmd = .retain ∧ s.card[p].state ∈ [.empty, .retaining]) ∨
        readerAway s p →
      exec c s = .next (settle (replied s i .wrongState []))) ∧
    ∀ (e : EntryId) (a : Addr) (v : State) (x : Offer), readerServes s p e a →
      (cmd = .eject → s.card[p].state ∈ [.present, .reading, .read]) →
      (cmd = .retain → s.card[p].state ∉ [.empty, .retaining]) →
      offerControl s s.dir[e].line .cardCommand a (some e) (.card p) [cmd.code, 0] = (v, x) →
      (x = .refused → exec c s = .next (settle (replied v i .poolFull []))) ∧
      ∀ (r : RecId) (w : State), x = .carried r →
        w = (if s.card[p].state = .reading then readEnd v p .aborted .request 0 else v) →
        exec c s = .next (settle (replied
          (atCard { w with pool := holdsDropped w p st } p (entered s w.card[p] st .request (some (cmd, r)) 0)) i .ok []))) ∧
  ∀ (s : State) (i : SlotId) (body : List Byte),
    (body.length ≠ 3 → asks s i 0x28 body → exec .cardRead s = .next (settle (replied s i .badLength []))) ∧
    (body.length ≠ 1 → asks s i 0x2A body → exec .cardEject s = .next (settle (replied s i .badLength []))) ∧
    (body.length ≠ 1 → asks s i 0x2B body → exec .cardRetain s = .next (settle (replied s i .badLength []))) ∧
    ∀ b m t : Byte, b = 0 ∨ 8 < b.toNat →
      (asks s i 0x28 [b, m, t] → exec .cardRead s = .next (settle (replied s i .badParameter []))) ∧
      (asks s i 0x2A [b] → exec .cardEject s = .next (settle (replied s i .badParameter []))) ∧
      (asks s i 0x2B [b] → exec .cardRetain s = .next (settle (replied s i .badParameter [])))

/-- R15, R144, R101: CARD_RESEND in READ queues each held track again as a resent TRACK notice with one more reference, then its own
READ_DONE with outcome OK, the state untouched; another state is WRONG_STATE; a held record at 20 references, or no promise, is
POOL_FULL. (The unit fields come from the record's origin, log 24.) -/
def Obligations.ResentTracksAreQueuedAgain : Prop :=
  (∀ (s : State) (i : SlotId) (p : Pos), asks s i 0x29 [byteOf (p.val + 1)] →
    (s.card[p].state ≠ .read → exec .cardResend s = .next (settleLink (replied s i .wrongState []))) ∧
    (s.card[p].state = .read →
      ((∃ r ∈ heldBy s.card[p], 20 ≤ s.pool.recs[r].refs) → exec .cardResend s = .next (settleLink (replied
        { s with pool := { s.pool with refLimit := min 65535 (s.pool.refLimit + 1) } } i .poolFull []))) ∧
      ((∀ r ∈ heldBy s.card[p], s.pool.recs[r].refs < 20) →
        (∀ x : Fin 9, refusedAt s.profile s.pool 0 1 .part x →
          exec .cardResend s = .next (settleLink (replied { s with pool := counted s.pool x } i .poolFull []))) ∧
        ∀ (pr : RecId) (pl q : Pool) (ns : List Notice), granted s.pool pl pr (promised s .readDone s.link.slots[i].tag) →
          admissible s.profile s.pool 0 1 .part → (heldBy s.card[p]).Nodup →
          (∀ r ∈ heldBy s.card[p], s.pool.recs[r].state ≠ .free) →
          q = { pl with recs := q.recs } →
          (∀ r : RecId, q.recs[r] =
            if r ∈ heldBy s.card[p] then { pl.recs[r] with refs := pl.recs[r].refs + 1 } else pl.recs[r]) →
          List.Forall₂ (fun r n => ∃ (e : EntryId) (l : LineId) (a : Addr), s.pool.recs[r].origin = .unit e l a ∧
            n = trackEntry s p e r true) (heldBy s.card[p]) ns →
          exec .cardResend s = .next (settleLink (replied
            (completePromise { s with pool := q, w1 := s.w1 ++ ns } pr .readDone 1 (some p)
              (readDoneBytes p s.card[p] .ok .request true 0)) i .ok []))))) ∧
  ∀ (s : State) (i : SlotId) (body : List Byte), asks s i 0x29 body →
    (body.length ≠ 1 → exec .cardResend s = .next (settleLink (replied s i .badLength []))) ∧
    ∀ b : Byte, body = [b] → b = 0 ∨ 8 < b.toNat → exec .cardResend s = .next (settleLink (replied s i .badParameter []))

/-- R137, R138, R142, R143, R145, R147 to R151: how a card context moves: a change of state stops its timers, arms that of the new state and
drops the holds; a read ends with its READ_DONE; tracks are collected; movement reports, jams, line stops and the end of service
act by state; the read, take and movement timers expire; and a command on the context's own account becomes current with the state
entered, or is refused, FAULT with POOL_FULL. (By log 13 a line stop acts on a context in FAULT too; by log 15 the
record of a CARD_MOVE is released last; by log 37 holds are released in ascending track number.) -/
def Obligations.CardContextsMove : Prop :=
  (∀ (s : State) (p : Pos) (st : CardState) (c : Cause) (cur : Option (CardCommand × RecId)) (sec : Nat),
    cardEnter s p st c cur sec = atCard { s with pool := holdsDropped s p st } p (entered s s.card[p] st c cur sec) ∧
    cardTo s p st c = cardEnter s p st c none 0) ∧
  (∀ (s : State) (p : Pos) (r : RecId) (o : ReadOutcome) (c : Cause) (x : Byte), s.card[p].result = some r →
    readEnd s p o c x = atCard (completePromise s r .readDone 1 (some p) (readDoneBytes p s.card[p] o c false x)) p
      { s.card[p] with result := none, readTimer := none }) ∧
  (∀ (s : State) (p : Pos), s.running = true →
    (s.card[p].readTimer = some 0 → exec (.readTimerExpiry p) s = .next (settle (cardTo
      (readEnd s p .timedOut .readTimedOut 0) p (if heldBy s.card[p] = [] then .present else .read) .readTimedOut))) ∧
    (s.card[p].moveTimer = some 0 →
      exec (.movementTimerExpiry p) s = .next (settle (cardTo s p .fault .movementTimeout))) ∧
    (s.card[p].takeTimer = some 0 → ∀ (e : EntryId) (a : Addr) (v : State) (x : Offer), readerServes s p e a →
      offerControl s s.dir[e].line .cardCommand a (some e) (.card p) [3, 0] = (v, x) →
      (∀ r : RecId, x = .carried r → exec (.takeTimerExpiry p) s =
        .next (settle (cardEnter v p .retaining .takeTimeout (some (.retain, r)) 0))) ∧
      (x = .refused → exec (.takeTimerExpiry p) s = .next (settle (cardTo v p .fault .poolFull))))) ∧
  (∀ (s : State) (p : Pos) (c : Cause),
    (s.card[p].state = .empty → cardServiceEnd s p c = s ∧ cardGone s p c = s) ∧
    (s.card[p].state ≠ .empty → s.card[p].state ≠ .reading →
      cardServiceEnd s p c = cardTo s p .empty c ∧ cardGone s p c = cardTo s p .empty c) ∧
    (s.card[p].state = .reading → cardServiceEnd s p c = cardTo (readEnd s p .unitGone c 0) p .empty c ∧
      cardGone s p c = cardTo (readEnd s p .withdrawn c 0) p .empty c ∧
      cardMove s p .jammed = cardTo (readEnd s p .unitFailed .jammed 0) p .fault .jammed ∧
      cardLineStopped s p = cardTo (readEnd s p .unitFailed .lineStopped 0) p .fault .lineStopped) ∧
    (s.card[p].state ≠ .reading → cardMove s p .jammed = cardTo s p .fault .jammed ∧
      cardLineStopped s p = cardTo s p .fault .lineStopped) ∧
    cardMove s p .removed = cardGone s p .cardRemoved ∧ cardMove s p .retained = cardGone s p .cardRetained ∧
    (s.card[p].state = .ejecting → cardMove s p .presented = cardTo s p .presented .cardPresented) ∧
    (s.card[p].state ≠ .ejecting → cardMove s p .presented = s)) ∧
  (∀ (s : State) (p : Pos) (cmd : CardCommand) (st : CardState) (c : Cause) (e : EntryId) (a : Addr),
    (∀ (v : State) (x : Offer), readerServes s p e a →
      offerControl s s.dir[e].line .cardCommand a (some e) (.card p) [cmd.code, 0] = (v, x) →
      (∀ r : RecId, x = .carried r → ownCommand s p cmd st c = cardEnter v p st c (some (cmd, r)) 0) ∧
      (x = .refused → ownCommand s p cmd st c = cardTo v p .fault .poolFull)) ∧
    (slotOf s .reader p = some e → s.dir[e].addr = some a → s.lines[s.dir[e].line].state = .stopped →
      ownCommand s p cmd st c = cardTo s p .fault .lineStopped)) ∧
  (∀ (s v : State) (p : Pos),
    v = (if s.card[p].state = .reading then readEnd s p .withdrawn .cardInserted 0 else s) →
    (s.time.attended = false → cardMove s p .inserted = ownCommand v p .eject .ejecting .cardInserted) ∧
    (s.time.attended = true →
      ((s.card[p].state = .empty ∨ s.card[p].state = .fault) ∧ s.profile.readOnInsert.getLsbD p.val = true →
        cardMove s p .inserted = readOnInsert s p) ∧
      (¬ ((s.card[p].state = .empty ∨ s.card[p].state = .fault) ∧ s.profile.readOnInsert.getLsbD p.val = true) →
        cardMove s p .inserted = cardTo v p .present .cardInserted))) ∧
  (∀ (s : State) (p : Pos) (e : EntryId) (a : Addr) (pr : RecId) (pl : Pool) (v : State) (x : Offer), readerServes s p e a →
    (∀ y : Fin 9, refusedAt s.profile s.pool 0 1 .part y →
      readOnInsert s p = cardTo { s with pool := counted s.pool y } p .present .cardInserted) ∧
    (granted s.pool pl pr (promised s .readDone 0) → admissible s.profile s.pool 0 1 .part →
      offerControl { s with pool := pl } s.dir[e].line .cardCommand a (some e) (.card p) [1, 7] = (v, x) →
      (x = .refused → readOnInsert s p = cardTo { v with pool := v.pool.dropRef pr } p .present .cardInserted) ∧
      ∀ r : RecId, x = .carried r → readOnInsert s p =
        atCard { v with pool := (heldBy s.card[p]).foldl Pool.dropRef v.pool } p
          (entered s { s.card[p] with
            holds := Vector.replicate 3 none, result := some pr, mask := 7, tag := 0, reader := some (e, s.dir[e].identity) }
            .reading .cardInserted (some (.read, r)) s.profile.readTimeout))) ∧
  (∀ (s : State) (p : Pos) (r : RecId) (b : Byte) (m : Movement), s.pool.body r = [b] → Movement.ofCode b = some m →
    cardMoveFrame s p r = dropRef (cardMove s p m) r) ∧
  (∀ (s : State) (p : Pos) (r : RecId), (∀ b m, s.pool.body r = [b] → Movement.ofCode b ≠ some m) →
    cardMoveFrame s p r = dropRef s r) ∧
  (∀ (s : State) (p : Pos) (e : EntryId) (r : RecId),
    ((∀ (i : Fin 3) (t : TrackStatus) (cs : List Byte), cs.length ≤ 107 → s.pool.body r ≠ byteOf (i.val + 1) :: t.code :: cs) ∨
        s.card[p].state ≠ .reading → trackFrame s p e r = dropRef s r) ∧
    ∀ (i : Fin 3) (t : TrackStatus) (cs : List Byte), cs.length ≤ 107 → s.pool.body r = byteOf (i.val + 1) :: t.code :: cs →
      (s.card[p].mask.getLsbD i.val = false ∨ s.card[p].holds[i] ≠ none → trackFrame s p e r = dropRef s r) ∧
      ∀ v : State, s.card[p].state = .reading → s.card[p].mask.getLsbD i.val = true → s.card[p].holds[i] = none →
        s.pool.recs[r].refs < 20 →
        v = atCard
          { s with
            pool := { s.pool with recs := s.pool.recs.set r { s.pool.recs[r] with refs := s.pool.recs[r].refs + 1 } }
            w1 := s.w1 ++ [trackEntry s p e r false] } p
          { s.card[p] with holds := s.card[p].holds.set i (some (t, r)) } →
        ((∀ j : Fin 3, s.card[p].mask.getLsbD j.val = true → v.card[p].holds[j] ≠ none) →
          trackFrame s p e r = cardTo (readEnd v p .ok .readComplete 0) p .read .readComplete) ∧
        ((∃ j : Fin 3, s.card[p].mask.getLsbD j.val = true ∧ v.card[p].holds[j] = none) → trackFrame s p e r = v))

/-- R134, R153, R203: ENTRY_STATUS and CARD_STATUS reply OK with the context at the position as it stands, in the layout of R203, and
change nothing; a wrong length is BAD_LENGTH, a position outside 1 to 8 BAD_PARAMETER. -/
def Obligations.ContextsAreReported : Prop :=
  (∀ (s : State) (i : SlotId) (p : Pos) (tail : List Byte), asks s i 0x22 [byteOf (p.val + 1)] →
    tail = [if s.entry[p].dispPending then (1 : Byte) else 0, s.entry[p].pendTone.code]
      ++ (match s.entry[p].target with
          | some (_, x) => (1 : Byte) :: leBytes 6 x.toNat
          | none => List.replicate 7 (0 : Byte))
      ++ (match s.entry[p].guardTimer with
          | some n => (1 : Byte) :: leBytes 2 (min 65535 n)
          | none => [(0 : Byte), 0, 0]) →
    (s.entry[p].sess = none →
      exec .entryStatus s = .next (settleLink (replied s i .ok (List.replicate 62 0 ++ tail)))) ∧
    ∀ ss : Session, s.entry[p].sess = some ss → ss.prompt.length = 16 → ss.pfx.length ≤ 3 → valueSound ss → fieldSound ss.field →
      exec .entryStatus s = .next (settleLink (replied s i .ok
        ([if ss.active then (2 : Byte) else 1, ss.field.code] ++ fieldBytes ss.field
          ++ List.replicate (13 - (fieldBytes ss.field).length) 0 ++ ss.prompt ++ [byteOf ss.pfx.length] ++ ss.pfx
          ++ List.replicate (3 - ss.pfx.length) 0 ++ [byteOf ss.firstKey, byteOf ss.interKey, ss.tag]
          ++ leBytes 6 ss.keypadId.toNat ++ resultValue ss none
          ++ (match ss.firstTimer, ss.interTimer with
              | some n, _ => (1 : Byte) :: leBytes 4 n
              | none, some n => 2 :: leBytes 4 n
              | none, none => [0, 0, 0, 0, 0])
          ++ tail)))) ∧
  (∀ (s : State) (i : SlotId) (p : Pos), asks s i 0x2C [byteOf (p.val + 1)] →
    exec .cardStatus s = .next (settleLink (replied s i .ok
      ([s.card[p].state.code, s.card[p].cause.code]
        ++ (match slotOf s .reader p with
            | some e => (1 : Byte) :: leBytes 6 s.dir[e].identity.toNat
            | none => List.replicate 7 (0 : Byte))
        ++ [byteOf s.card[p].mask.toNat, s.card[p].tag]
        ++ ((List.finRange 3).flatMap fun k =>
            match s.card[p].holds[k] with
            | some (st, r) => [(1 : Byte), st.code, byteOf (min 255 (s.pool.recs[r].len - 2))]
            | none => [0, 0, 0])
        ++ [match s.card[p].current with
            | some (.read, _) => (1 : Byte)
            | some (.eject, _) => 2
            | some (.retain, _) => 3
            | none => 0]
        ++ (match s.card[p].readTimer, s.card[p].takeTimer, s.card[p].moveTimer with
            | some n, _, _ => (1 : Byte) :: leBytes 4 n
            | none, some n, _ => 2 :: leBytes 4 n
            | none, none, some n => 3 :: leBytes 4 n
            | none, none, none => [0, 0, 0, 0, 0]))))) ∧
  ∀ (s : State) (i : SlotId) (body : List Byte),
    (body.length ≠ 1 →
      (asks s i 0x22 body → exec .entryStatus s = .next (settleLink (replied s i .badLength []))) ∧
      (asks s i 0x2C body → exec .cardStatus s = .next (settleLink (replied s i .badLength [])))) ∧
    ∀ b : Byte, body = [b] → b = 0 ∨ 8 < b.toNat →
      (asks s i 0x22 body → exec .entryStatus s = .next (settleLink (replied s i .badParameter []))) ∧
      (asks s i 0x2C body → exec .cardStatus s = .next (settleLink (replied s i .badParameter [])))

/-! ## Attendance (8.3) -/

/-- R151, R162, R163: the attendance timer with its item above 0 makes the part UNATTENDED: the sessions end ABORTED with cause UNATTENDED
(abortSession, R126: each with its result on W0 and its closing display) by ascending position; the idle contexts with a display pending
want the closed text; the cards in PRESENT, READING and READ are ejected by ascending position, a read having ended ABORTED: EJECTING
with the EJECT on the control queue and current, or FAULT with POOL_FULL when the pool refuses it; then each ACTIVE line is offered
the closed text as a general call. With its item at 0 the timer stops and nothing else happens. -/
def Obligations.AttendanceIsLost : Prop :=
  (∀ s : State, s.running = true → s.time.timer = some 0 →
    (s.profile.wsSilence = 0 → exec .attendanceTimerExpiry s =
      .next (settle { s with time := { s.time with timer := none } })) ∧
    (s.profile.wsSilence ≠ 0 → ∃ v w u : State,
      v = (List.finRange 8).foldl (fun x p => abortSession x p .unattended)
        { s with time := { s.time with attended := false, latest := s.time.mono, mark := true, timer := none } } ∧
      w = { v with
        entry := v.entry.map fun c =>
          if c.sess = none ∧ c.dispPending = true then
            { c with wanted := { line1 := s.profile.closedText, line2 := s.profile.closedText } }
          else c } ∧
      u = (List.finRange 8).foldl cardClosed w ∧
      exec .attendanceTimerExpiry s = .next (settle (([0, 1, 2, 3] : List LineId).foldl
        (fun x l =>
          if s.lines[l].state = .active then
            (offerControl x l .display 15 none .timeBase (s.profile.closedText ++ s.profile.closedText ++ [0])).1
          else x) u)) ∧
      u = { s with
        time := { s.time with attended := false, latest := s.time.mono, mark := true, timer := none }
        pool := u.pool, lines := u.lines, w0 := u.w0, w1 := u.w1, entry := u.entry, card := u.card } ∧
      (∀ l : LineId, u.lines[l] = { s.lines[l] with control := u.lines[l].control } ∧
        s.lines[l].control <+: u.lines[l].control) ∧
      u.w0.map Notice.record =
        s.w0.map Notice.record ++ (List.finRange 8).filterMap (fun p => s.entry[p].sess.map Session.result) ∧
      (∀ p : Pos, u.entry[p].sess = none ∧
        (s.entry[p].sess = none → s.entry[p].dispPending = false → u.entry[p] = s.entry[p]) ∧
        (s.entry[p].sess = none → s.entry[p].dispPending = true → u.entry[p] =
          { s.entry[p] with wanted := { line1 := s.profile.closedText, line2 := s.profile.closedText } })) ∧
      ∀ p : Pos,
        (s.card[p].state ∉ [.present, .reading, .read] → u.card[p] = s.card[p]) ∧
        ∀ (e : EntryId) (a : Addr), s.card[p].state ∈ [.present, .reading, .read] → readerServes s p e a →
          ((u.card[p].state = .ejecting ∧ u.card[p].cause = .unattended ∧ u.card[p].moveTimer = some 5000 ∧
              ∃ q ∈ u.lines[s.dir[e].line].control, u.card[p].current = some (.eject, q.record) ∧ q.dest = a ∧
                q.target = some e ∧ q.owner = .card p) ∨
            (u.card[p].state = .fault ∧ u.card[p].cause = .poolFull ∧ u.card[p].moveTimer = none ∧
              u.card[p].current = none)) ∧
            u.card[p].mark = true ∧ u.card[p].readTimer = none ∧ u.card[p].holds = Vector.replicate 3 none)) ∧
  ∀ (s v : State) (p : Pos) (e : EntryId) (a : Addr) (x : Offer), readerServes s p e a →
    offerControl s s.dir[e].line .cardCommand a (some e) (.card p) [2, 0] = (v, x) →
    (∀ r : RecId, x = .carried r → ownCommand s p .eject .ejecting .unattended =
      atCard { v with pool := holdsDropped v p .ejecting } p
        (entered v s.card[p] .ejecting .unattended (some (.eject, r)) 0)) ∧
    (x = .refused → ownCommand s p .eject .ejecting .unattended =
      atCard { v with pool := holdsDropped v p .fault } p (entered v s.card[p] .fault .poolFull none 0))

/-! ## The profile and its store (chapter 10) -/

/-- R24, R184 to R188, R202: PROFILE_SET writes a value into its item, brought within its range (CLAMPED), the lost limit kept above the
silence limit, and replies what was taken, nothing else changed; PROFILE_GET replies an item, or the whole profile; each failed
check refuses, in the order of R186. (Empty bodies and the index byte of a reply by logs 17 and 18.) -/
def Obligations.ProfileItemsAreKept : Prop :=
  (∀ (s : State) (i : SlotId) (it : Item) (x : Byte) (pl : Place) (v : List Byte), asks s i 0x30 (it.code :: x :: v) →
    v.length = it.size → namesPlace it x pl →
    (∀ l : LineId, pl = .line l → s.lines[l].state ≠ .stopped →
      exec .profileSet s = .next (settleLink (replied s i .wrongState []))) ∧
    ((∀ l : LineId, pl = .line l → s.lines[l].state = .stopped) →
      (¬ suits it v → exec .profileSet s = .next (settleLink (replied s i .badParameter []))) ∧
      (suits it v → profileSound s.profile → ∃ w : Profile, itemWritten s.profile w it pl v ∧
        (lostRaised s.profile it v → exec .profileSet s = .next (settleLink (replied { s with profile := w } i .clamped
          (itemBytesAt w it pl ++ itemBytesAt w .lostLimit .whole)))) ∧
        (¬ lostRaised s.profile it v → it.range ≠ none → bytesTaken s.profile it v ≠ v →
          exec .profileSet s = .next (settleLink (replied { s with profile := w } i .clamped (itemBytesAt w it pl)))) ∧
        (¬ lostRaised s.profile it v → it.range = none ∨ bytesTaken s.profile it v = v →
          exec .profileSet s = .next (settleLink (replied { s with profile := w } i .ok (itemBytesAt w it pl))))))) ∧
  (∀ (s : State) (i : SlotId) (body : List Byte), asks s i 0x30 body →
    (body = [] → exec .profileSet s = .next (settleLink (replied s i .badLength []))) ∧
    (∀ (c : Byte) (rest : List Byte), body = c :: rest →
      (c = 0 ∨ 0x17 < c.toNat → exec .profileSet s = .next (settleLink (replied s i .badParameter []))) ∧
      ∀ it : Item, c = it.code →
        (rest.length ≠ 1 + it.size → exec .profileSet s = .next (settleLink (replied s i .badLength []))) ∧
        ∀ (x : Byte) (v : List Byte), rest = x :: v → v.length = it.size → (∀ pl : Place, ¬ namesPlace it x pl) →
          exec .profileSet s = .next (settleLink (replied s i .badParameter [])))) ∧
  (∀ (s : State) (i : SlotId), asks s i 0x31 [] → exec .profileGet s = .next (settleLink (replied s i .ok
    (allItems.flatMap fun it => it.places.flatMap fun pl => itemBytes s.profile it pl)))) ∧
  (∀ (s : State) (i : SlotId) (it : Item) (x : Byte), asks s i 0x31 [it.code, x] →
    (∀ pl : Place, namesPlace it x pl →
      exec .profileGet s = .next (settleLink (replied s i .ok (itemBytesAt s.profile it pl)))) ∧
    ((∀ pl : Place, ¬ namesPlace it x pl) → exec .profileGet s = .next (settleLink (replied s i .badParameter [])))) ∧
  (∀ (s : State) (i : SlotId) (c x : Byte), asks s i 0x31 [c, x] → c = 0 ∨ 0x17 < c.toNat →
    exec .profileGet s = .next (settleLink (replied s i .badParameter []))) ∧
  ∀ (s : State) (i : SlotId) (body : List Byte), asks s i 0x31 body → body.length = 1 ∨ 2 < body.length →
    exec .profileGet s = .next (settleLink (replied s i .badLength []))

/-- R189 to R194: a commit snapshots the working profile, makes the store INCOMPLETE and writes the marker, the eight blocks and the end
marker in turn, each verified, or written once more at its limit; the end makes the store COMPLETE, a second failure leaves it;
COMMIT_DONE tells. A late verify, or limit, of a write that has ended has no effect. PROFILE_LOAD takes the stored profile of a
COMPLETE store. A running commit is STORE_BUSY. (Blocks by log 23; that a write is named by its number, log 42.) -/
def Obligations.StoreKeepsTheProfile : Prop :=
  (∀ (s : State) (i : SlotId), asks s i 0x32 [] →
    (∀ c : Commit, s.store.commit = some c → exec .profileCommit s = .next (settleLink (replied s i .storeBusy []))) ∧
    (s.store.commit = none →
      (∀ x : Fin 9, refusedAt s.profile s.pool 0 1 .part x →
        exec .profileCommit s = .next (settleLink (replied { s with pool := counted s.pool x } i .poolFull []))) ∧
      (admissible s.profile s.pool 0 1 .part → ∃ (r : RecId) (p : Pool),
        granted s.pool p r (promised s .commitDone s.link.slots[i].tag) ∧
        exec .profileCommit s = .next (settleLink (replied
          { s with
            pool := p
            store :=
              { s.store with
                state := .incomplete
                commit := some
                  { snapshot := s.profile, limit := s.profile.writeLimit, unit := 0, attempt := 1, rewrites := 0, promise := r
                    acceptedAt := s.time.mono, write := s.store.begun + 1 }
                begun := s.store.begun + 1 } } i .ok []))))) ∧
  (∀ (s : State) (i : SlotId), asks s i 0x33 [] →
    (∀ c : Commit, s.store.commit = some c → exec .profileLoad s = .next (settleLink (replied s i .storeBusy []))) ∧
    (s.store.commit = none → s.store.state ≠ .complete →
      exec .profileLoad s = .next (settleLink (replied s i .wrongState []))) ∧
    (s.store.commit = none → s.store.state = .complete → exec .profileLoad s = .next (settleLink (replied
      { s with profile := s.store.blocks[(0 : Fin 8)], hits := Vector.replicate 16 0 } i .ok [])))) ∧
  (∀ (s : State) (i : SlotId) (body : List Byte), body ≠ [] →
    (asks s i 0x32 body → exec .profileCommit s = .next (settleLink (replied s i .badLength []))) ∧
    (asks s i 0x33 body → exec .profileLoad s = .next (settleLink (replied s i .badLength [])))) ∧
  (∀ (s : State) (c : Commit), s.running = true → s.store.commit = some c →
    (c.unit = 0 → exec (.verifyPasses c.write) s = .next (settleLink
      { s with store :=
        { s.store with
          commit := some { c with unit := 1, attempt := 1, write := s.store.begun + 1 }, begun := s.store.begun + 1 } })) ∧
    (∀ (k : Fin 8) (u : Fin 10), c.unit.val = k.val + 1 → u.val = k.val + 2 →
      exec (.verifyPasses c.write) s = .next (settleLink
        { s with store :=
          { s.store with
            blocks := s.store.blocks.set k c.snapshot
            commit := some { c with unit := u, attempt := 1, write := s.store.begun + 1 }, begun := s.store.begun + 1 } })) ∧
    (c.unit = 9 → exec (.verifyPasses c.write) s = .next (settleLink
      { completePromise s c.promise .commitDone 0 none
          ([0, 0, byteOf c.rewrites] ++ leBytes 2 (min 65535 (elapsed s.time.mono c.acceptedAt)) ++ [2]) with
        store := { s.store with state := .complete, commit := none } })) ∧
    (c.attempt = 1 → exec (.writeLimitReached c.write) s = .next (settleLink
      { s with store :=
        { s.store with
          commit := some { c with attempt := 2, rewrites := c.rewrites + 1, write := s.store.begun + 1 }
          begun := s.store.begun + 1 } })) ∧
    (2 ≤ c.attempt → exec (.writeLimitReached c.write) s = .next (settleLink
      { completePromise s c.promise .commitDone 0 none
          ([1, byteOf c.unit.val, byteOf c.rewrites] ++ leBytes 2 (min 65535 (elapsed s.time.mono c.acceptedAt))
            ++ [s.store.state.code]) with
        store := { s.store with commit := none } }))) ∧
  (∀ (s : State) (w : Nat), (∀ c : Commit, s.store.commit = some c → c.write ≠ w) →
    exec (.verifyPasses w) s = .next s ∧ exec (.writeLimitReached w) s = .next s) ∧
  ∀ (s t : State) (c : Commit), s.running = true → s.store.commit = some c → commitSound s.store c →
    exec (.verifyPasses c.write) s = .next t ∨ exec (.writeLimitReached c.write) s = .next t →
    exec (.verifyPasses c.write) t = .next t ∧ exec (.writeLimitReached c.write) t = .next t

/-! ## What every step keeps -/

/-- R1, R4, R8, R14, R15, R21: over every step, from any state: the chunk store keeps its canonical form; each of the 256 chunks stays in
exactly one place, the free list or one record, a FREE record having none; and reference counts, counters and the lowest F stay
within their limits. -/
def Obligations.PoolStaysSound : Prop :=
  ∀ s t : State, step s = .next t →
    (memorySound s.pool → memorySound t.pool) ∧ (chunksSound s.pool → chunksSound t.pool) ∧
      (poolCountsSound s.pool → poolCountsSound t.pool)

/-- R70 to R72, R115 to R124, R131 to R133, R136, R137: over every step, from any state: no two directory entries hold one identity, one
address of a line or one slot; sessions keep their value within their field and one timer running; and each card context's timers,
holds, result and current command are those of its state. -/
def Obligations.UnitsAndContextsStaySound : Prop :=
  ∀ s t : State, step s = .next t →
    (directorySound s → directorySound t) ∧
      ((∀ p : Pos, entryCtxSound s.entry[p]) → ∀ p : Pos, entryCtxSound t.entry[p]) ∧
      ((∀ p : Pos, cardSound s.card[p]) → ∀ p : Pos, cardSound t.card[p])

/-- R43, R44, R47, R59, R169, R173, R177, R184, R189, R195: over every step, from any state: nothing stands on a STOPPED line; ack lists
and counters keep their limits; the taking order lists the busy slots; the part runs exactly while RESET is released and is else in
its reset state; the profile keeps its ranges and a COMPLETE store one whole profile. -/
def Obligations.LinesLinkAndStoreStaySound : Prop :=
  ∀ s t : State, step s = .next t →
    ((∀ l : LineId, lineSound s.lines[l]) → ∀ l : LineId, lineSound t.lines[l]) ∧
      (linkSound s.link → linkSound t.link) ∧ (resetSound s → resetSound t) ∧
      (profileSound s.profile → storeSound s.store → profileSound t.profile ∧ storeSound t.store)

/-- The state after a reset, RESET still held (log 4), is sound in every respect, so that the three statements above hold along every
run from it. (The values that no rule states, and the default screen list where R91 is silent, are logs 26, 34 and 39.) -/
def Obligations.ResetIsSound : Prop :=
  memorySound State.reset.pool ∧ chunksSound State.reset.pool ∧ poolCountsSound State.reset.pool ∧
    directorySound State.reset ∧ (∀ p : Pos, entryCtxSound State.reset.entry[p]) ∧ (∀ p : Pos, cardSound State.reset.card[p]) ∧
    (∀ l : LineId, lineSound State.reset.lines[l]) ∧ linkSound State.reset.link ∧ resetSound State.reset ∧
    profileSound State.reset.profile ∧ storeSound State.reset.store
end

