-- ==== Sys2Proof/Laws/Memory.lean ====
section
/-! SUPPORT. The chunk store: a write is read back, leaves every other address alone, and keeps the canonical form. -/

namespace Sys2Proof.Machine

/-- Every address of the list is above a bound. -/
def addrsAbove (a : Nat) (m : List Host.Cell) : Prop := ∀ c ∈ m, a < c.1

theorem memWf_cons {c : Host.Cell} {m : List Host.Cell} :
    memWf (c :: m) = true ↔ c.2 ≠ unlistedByte ∧ addrsAbove c.1 m ∧ memWf m = true := by
  induction m generalizing c with
  | nil => simp [memWf, addrsAbove]
  | cons d m ih =>
    simp only [memWf, Bool.and_eq_true, bne_iff_ne, ne_eq, decide_eq_true_eq]
    constructor
    · rintro ⟨⟨h1, h2⟩, h3⟩
      refine ⟨h1, ?_, h3⟩
      intro x hx
      rcases List.mem_cons.1 hx with rfl | hx
      · exact h2
      · exact lt_trans h2 ((ih.1 h3).2.1 x hx)
    · rintro ⟨h1, h2, h3⟩
      exact ⟨⟨h1, h2 d (by simp)⟩, h3⟩

theorem memRead_above {m : List Host.Cell} {a : Nat} (h : addrsAbove a m) : memRead m a = unlistedByte := by
  induction m with
  | nil => rfl
  | cons c m ih =>
    have hc : a < c.1 := h c (by simp)
    rw [memRead, if_neg (by omega)]
    exact ih fun x hx => h x (by simp [hx])

theorem memWrite_above {m : List Host.Cell} {a b : Nat} {v : Byte} (h : addrsAbove b m) (hab : b < a) :
    addrsAbove b (memWrite m a v) := by
  induction m with
  | nil =>
    rw [memWrite]
    split
    · exact h
    · intro c hc
      obtain rfl := List.mem_singleton.1 hc
      exact hab
  | cons d m ih =>
    have hm : addrsAbove b m := fun x hx => h x (by simp [hx])
    have hd : b < d.1 := h d (by simp)
    rw [memWrite]
    split_ifs
    · exact h
    · intro x hx
      rcases List.mem_cons.1 hx with rfl | hx
      · exact hab
      · exact h x hx
    · exact hm
    · intro x hx
      rcases List.mem_cons.1 hx with rfl | hx
      · exact hab
      · exact hm x hx
    · intro x hx
      rcases List.mem_cons.1 hx with rfl | hx
      · exact hd
      · exact ih hm x hx

/-- A write keeps the canonical form. -/
theorem memWrite_wf {m : List Host.Cell} {a : Nat} {v : Byte} (h : memWf m = true) : memWf (memWrite m a v) = true := by
  induction m with
  | nil => rw [memWrite]; split <;> simp_all [memWf]
  | cons c m ih =>
    obtain ⟨h1, h2, h3⟩ := memWf_cons.1 h
    rw [memWrite]
    split_ifs with h4 h5 h6 h7
    · exact h
    · exact memWf_cons.2 ⟨h5, fun x hx => by
        rcases List.mem_cons.1 hx with rfl | hx
        · exact h4
        · exact lt_trans h4 (h2 x hx), h⟩
    · exact h3
    · exact memWf_cons.2 ⟨h7, by rw [h6]; exact h2, h3⟩
    · exact memWf_cons.2 ⟨h1, memWrite_above h2 (by omega), ih h3⟩

theorem memRead_cons (c : Host.Cell) (m : List Host.Cell) (a : Nat) :
    memRead (c :: m) a = if c.1 = a then c.2 else memRead m a := rfl

/-- What every address reads after a write. -/
theorem memRead_write {m : List Host.Cell} {a b : Nat} {v : Byte} (h : memWf m = true) :
    memRead (memWrite m a v) b = if b = a then v else memRead m b := by
  induction m with
  | nil =>
    by_cases hv : v = unlistedByte
    · simp [memWrite, hv, memRead]
    · simp [memWrite, hv, memRead, eq_comm]
  | cons c m ih =>
    obtain ⟨-, h2, h3⟩ := memWf_cons.1 h
    by_cases h4 : a < c.1
    · have hu : b = a → memRead (c :: m) b = unlistedByte := by
        rintro rfl
        exact memRead_above fun x hx => by
          rcases List.mem_cons.1 hx with rfl | hx
          · exact h4
          · exact lt_trans h4 (h2 x hx)
      rw [memWrite, if_pos h4]
      by_cases hv : v = unlistedByte
      · rw [if_pos hv]
        by_cases hb : b = a
        · rw [if_pos hb, hu hb, hv]
        · rw [if_neg hb]
      · rw [if_neg hv, memRead_cons]
        simp only [eq_comm]
    · rw [memWrite, if_neg h4]
      by_cases h6 : a = c.1
      · rw [if_pos h6]
        have hu : b = a → memRead m b = unlistedByte := by
          rintro rfl
          exact memRead_above (by rw [h6]; exact h2)
        by_cases hv : v = unlistedByte
        · rw [if_pos hv]
          by_cases hb : b = a
          · rw [if_pos hb, hu hb, hv]
          · rw [if_neg hb, memRead_cons, if_neg (by omega)]
        · rw [if_neg hv, memRead_cons]
          by_cases hb : b = a
          · rw [if_pos hb, if_pos hb.symm]
          · rw [if_neg hb, if_neg (Ne.symm hb), memRead_cons, if_neg (by omega)]
      · rw [if_neg h6, memRead_cons, memRead_cons, ih h3]
        by_cases hb : b = a
        · rw [if_pos hb, if_pos hb, if_neg (by omega)]
        · rw [if_neg hb, if_neg hb]

/-- Writing a body keeps the canonical form. -/
theorem memWriteBody_wf {bs : List Byte} {m : List Host.Cell} {ch : List Nat} {i : Nat} (h : memWf m = true) :
    memWf (memWriteBody m ch i bs) = true := by
  induction bs generalizing m i with
  | nil => exact h
  | cons b bs ih => exact ih (memWrite_wf h)

/-- An address that is not one of the body's is left alone. -/
theorem memRead_writeBody {bs : List Byte} {m : List Host.Cell} {ch : List Nat} {i a : Nat} (h : memWf m = true)
    (ha : ∀ j, i ≤ j → j < i + bs.length → bodyAddr ch j ≠ a) : memRead (memWriteBody m ch i bs) a = memRead m a := by
  induction bs generalizing m i with
  | nil => rfl
  | cons b bs ih =>
    rw [memWriteBody, ih (memWrite_wf h) (fun j h1 h2 => ha j (by omega) (by simp; omega)), memRead_write h,
      if_neg (Ne.symm (ha i (le_refl i) (by simp)))]

/-- The reset memory has the canonical form. -/
theorem memWf_reset : memWf State.reset.pool.mem = true := rfl

end Sys2Proof.Machine
end

