-- ==== Sys2Proof/Laws/State.lean ====
section
/-! SUPPORT. One lemma per field per named update of State: what the update leaves, and what it does to its own field. -/

namespace Sys2Proof.Machine

/-! ## State.modLine -/

@[simp] theorem State.modLine_pending (s : State) (l : LineId) (f : Line → Line) : (s.modLine l f).pending = s.pending := rfl
@[simp] theorem State.modLine_oracle (s : State) (l : LineId) (f : Line → Line) : (s.modLine l f).oracle = s.oracle := rfl
@[simp] theorem State.modLine_running (s : State) (l : LineId) (f : Line → Line) : (s.modLine l f).running = s.running := rfl
@[simp] theorem State.modLine_resetPin (s : State) (l : LineId) (f : Line → Line) : (s.modLine l f).resetPin = s.resetPin := rfl
@[simp] theorem State.modLine_pausePin (s : State) (l : LineId) (f : Line → Line) : (s.modLine l f).pausePin = s.pausePin := rfl
@[simp] theorem State.modLine_straps (s : State) (l : LineId) (f : Line → Line) : (s.modLine l f).straps = s.straps := rfl
@[simp] theorem State.modLine_resetCause (s : State) (l : LineId) (f : Line → Line) : (s.modLine l f).resetCause = s.resetCause := rfl
@[simp] theorem State.modLine_profileOutcome (s : State) (l : LineId) (f : Line → Line) : (s.modLine l f).profileOutcome = s.profileOutcome := rfl
@[simp] theorem State.modLine_linkRate (s : State) (l : LineId) (f : Line → Line) : (s.modLine l f).linkRate = s.linkRate := rfl
@[simp] theorem State.modLine_time (s : State) (l : LineId) (f : Line → Line) : (s.modLine l f).time = s.time := rfl
@[simp] theorem State.modLine_pool (s : State) (l : LineId) (f : Line → Line) : (s.modLine l f).pool = s.pool := rfl
@[simp] theorem State.modLine_lines (s : State) (l : LineId) (f : Line → Line) : (s.modLine l f).lines = s.lines.set l (f s.lines[l]) := rfl
@[simp] theorem State.modLine_dir (s : State) (l : LineId) (f : Line → Line) : (s.modLine l f).dir = s.dir := rfl
@[simp] theorem State.modLine_w0 (s : State) (l : LineId) (f : Line → Line) : (s.modLine l f).w0 = s.w0 := rfl
@[simp] theorem State.modLine_w1 (s : State) (l : LineId) (f : Line → Line) : (s.modLine l f).w1 = s.w1 := rfl
@[simp] theorem State.modLine_w2 (s : State) (l : LineId) (f : Line → Line) : (s.modLine l f).w2 = s.w2 := rfl
@[simp] theorem State.modLine_fanouts (s : State) (l : LineId) (f : Line → Line) : (s.modLine l f).fanouts = s.fanouts := rfl
@[simp] theorem State.modLine_hits (s : State) (l : LineId) (f : Line → Line) : (s.modLine l f).hits = s.hits := rfl
@[simp] theorem State.modLine_entry (s : State) (l : LineId) (f : Line → Line) : (s.modLine l f).entry = s.entry := rfl
@[simp] theorem State.modLine_card (s : State) (l : LineId) (f : Line → Line) : (s.modLine l f).card = s.card := rfl
@[simp] theorem State.modLine_link (s : State) (l : LineId) (f : Line → Line) : (s.modLine l f).link = s.link := rfl
@[simp] theorem State.modLine_profile (s : State) (l : LineId) (f : Line → Line) : (s.modLine l f).profile = s.profile := rfl
@[simp] theorem State.modLine_store (s : State) (l : LineId) (f : Line → Line) : (s.modLine l f).store = s.store := rfl

/-! ## State.modDir -/

@[simp] theorem State.modDir_pending (s : State) (e : EntryId) (f : DirEntry → DirEntry) : (s.modDir e f).pending = s.pending := rfl
@[simp] theorem State.modDir_oracle (s : State) (e : EntryId) (f : DirEntry → DirEntry) : (s.modDir e f).oracle = s.oracle := rfl
@[simp] theorem State.modDir_running (s : State) (e : EntryId) (f : DirEntry → DirEntry) : (s.modDir e f).running = s.running := rfl
@[simp] theorem State.modDir_resetPin (s : State) (e : EntryId) (f : DirEntry → DirEntry) : (s.modDir e f).resetPin = s.resetPin := rfl
@[simp] theorem State.modDir_pausePin (s : State) (e : EntryId) (f : DirEntry → DirEntry) : (s.modDir e f).pausePin = s.pausePin := rfl
@[simp] theorem State.modDir_straps (s : State) (e : EntryId) (f : DirEntry → DirEntry) : (s.modDir e f).straps = s.straps := rfl
@[simp] theorem State.modDir_resetCause (s : State) (e : EntryId) (f : DirEntry → DirEntry) : (s.modDir e f).resetCause = s.resetCause := rfl
@[simp] theorem State.modDir_profileOutcome (s : State) (e : EntryId) (f : DirEntry → DirEntry) : (s.modDir e f).profileOutcome = s.profileOutcome := rfl
@[simp] theorem State.modDir_linkRate (s : State) (e : EntryId) (f : DirEntry → DirEntry) : (s.modDir e f).linkRate = s.linkRate := rfl
@[simp] theorem State.modDir_time (s : State) (e : EntryId) (f : DirEntry → DirEntry) : (s.modDir e f).time = s.time := rfl
@[simp] theorem State.modDir_pool (s : State) (e : EntryId) (f : DirEntry → DirEntry) : (s.modDir e f).pool = s.pool := rfl
@[simp] theorem State.modDir_lines (s : State) (e : EntryId) (f : DirEntry → DirEntry) : (s.modDir e f).lines = s.lines := rfl
@[simp] theorem State.modDir_dir (s : State) (e : EntryId) (f : DirEntry → DirEntry) : (s.modDir e f).dir = s.dir.set e (f s.dir[e]) := rfl
@[simp] theorem State.modDir_w0 (s : State) (e : EntryId) (f : DirEntry → DirEntry) : (s.modDir e f).w0 = s.w0 := rfl
@[simp] theorem State.modDir_w1 (s : State) (e : EntryId) (f : DirEntry → DirEntry) : (s.modDir e f).w1 = s.w1 := rfl
@[simp] theorem State.modDir_w2 (s : State) (e : EntryId) (f : DirEntry → DirEntry) : (s.modDir e f).w2 = s.w2 := rfl
@[simp] theorem State.modDir_fanouts (s : State) (e : EntryId) (f : DirEntry → DirEntry) : (s.modDir e f).fanouts = s.fanouts := rfl
@[simp] theorem State.modDir_hits (s : State) (e : EntryId) (f : DirEntry → DirEntry) : (s.modDir e f).hits = s.hits := rfl
@[simp] theorem State.modDir_entry (s : State) (e : EntryId) (f : DirEntry → DirEntry) : (s.modDir e f).entry = s.entry := rfl
@[simp] theorem State.modDir_card (s : State) (e : EntryId) (f : DirEntry → DirEntry) : (s.modDir e f).card = s.card := rfl
@[simp] theorem State.modDir_link (s : State) (e : EntryId) (f : DirEntry → DirEntry) : (s.modDir e f).link = s.link := rfl
@[simp] theorem State.modDir_profile (s : State) (e : EntryId) (f : DirEntry → DirEntry) : (s.modDir e f).profile = s.profile := rfl
@[simp] theorem State.modDir_store (s : State) (e : EntryId) (f : DirEntry → DirEntry) : (s.modDir e f).store = s.store := rfl

/-! ## State.modEntry -/

@[simp] theorem State.modEntry_pending (s : State) (p : Pos) (f : EntryCtx → EntryCtx) : (s.modEntry p f).pending = s.pending := rfl
@[simp] theorem State.modEntry_oracle (s : State) (p : Pos) (f : EntryCtx → EntryCtx) : (s.modEntry p f).oracle = s.oracle := rfl
@[simp] theorem State.modEntry_running (s : State) (p : Pos) (f : EntryCtx → EntryCtx) : (s.modEntry p f).running = s.running := rfl
@[simp] theorem State.modEntry_resetPin (s : State) (p : Pos) (f : EntryCtx → EntryCtx) : (s.modEntry p f).resetPin = s.resetPin := rfl
@[simp] theorem State.modEntry_pausePin (s : State) (p : Pos) (f : EntryCtx → EntryCtx) : (s.modEntry p f).pausePin = s.pausePin := rfl
@[simp] theorem State.modEntry_straps (s : State) (p : Pos) (f : EntryCtx → EntryCtx) : (s.modEntry p f).straps = s.straps := rfl
@[simp] theorem State.modEntry_resetCause (s : State) (p : Pos) (f : EntryCtx → EntryCtx) : (s.modEntry p f).resetCause = s.resetCause := rfl
@[simp] theorem State.modEntry_profileOutcome (s : State) (p : Pos) (f : EntryCtx → EntryCtx) : (s.modEntry p f).profileOutcome = s.profileOutcome := rfl
@[simp] theorem State.modEntry_linkRate (s : State) (p : Pos) (f : EntryCtx → EntryCtx) : (s.modEntry p f).linkRate = s.linkRate := rfl
@[simp] theorem State.modEntry_time (s : State) (p : Pos) (f : EntryCtx → EntryCtx) : (s.modEntry p f).time = s.time := rfl
@[simp] theorem State.modEntry_pool (s : State) (p : Pos) (f : EntryCtx → EntryCtx) : (s.modEntry p f).pool = s.pool := rfl
@[simp] theorem State.modEntry_lines (s : State) (p : Pos) (f : EntryCtx → EntryCtx) : (s.modEntry p f).lines = s.lines := rfl
@[simp] theorem State.modEntry_dir (s : State) (p : Pos) (f : EntryCtx → EntryCtx) : (s.modEntry p f).dir = s.dir := rfl
@[simp] theorem State.modEntry_w0 (s : State) (p : Pos) (f : EntryCtx → EntryCtx) : (s.modEntry p f).w0 = s.w0 := rfl
@[simp] theorem State.modEntry_w1 (s : State) (p : Pos) (f : EntryCtx → EntryCtx) : (s.modEntry p f).w1 = s.w1 := rfl
@[simp] theorem State.modEntry_w2 (s : State) (p : Pos) (f : EntryCtx → EntryCtx) : (s.modEntry p f).w2 = s.w2 := rfl
@[simp] theorem State.modEntry_fanouts (s : State) (p : Pos) (f : EntryCtx → EntryCtx) : (s.modEntry p f).fanouts = s.fanouts := rfl
@[simp] theorem State.modEntry_hits (s : State) (p : Pos) (f : EntryCtx → EntryCtx) : (s.modEntry p f).hits = s.hits := rfl
@[simp] theorem State.modEntry_entry (s : State) (p : Pos) (f : EntryCtx → EntryCtx) : (s.modEntry p f).entry = s.entry.set p (f s.entry[p]) := rfl
@[simp] theorem State.modEntry_card (s : State) (p : Pos) (f : EntryCtx → EntryCtx) : (s.modEntry p f).card = s.card := rfl
@[simp] theorem State.modEntry_link (s : State) (p : Pos) (f : EntryCtx → EntryCtx) : (s.modEntry p f).link = s.link := rfl
@[simp] theorem State.modEntry_profile (s : State) (p : Pos) (f : EntryCtx → EntryCtx) : (s.modEntry p f).profile = s.profile := rfl
@[simp] theorem State.modEntry_store (s : State) (p : Pos) (f : EntryCtx → EntryCtx) : (s.modEntry p f).store = s.store := rfl

/-! ## State.modCard -/

@[simp] theorem State.modCard_pending (s : State) (p : Pos) (f : CardCtx → CardCtx) : (s.modCard p f).pending = s.pending := rfl
@[simp] theorem State.modCard_oracle (s : State) (p : Pos) (f : CardCtx → CardCtx) : (s.modCard p f).oracle = s.oracle := rfl
@[simp] theorem State.modCard_running (s : State) (p : Pos) (f : CardCtx → CardCtx) : (s.modCard p f).running = s.running := rfl
@[simp] theorem State.modCard_resetPin (s : State) (p : Pos) (f : CardCtx → CardCtx) : (s.modCard p f).resetPin = s.resetPin := rfl
@[simp] theorem State.modCard_pausePin (s : State) (p : Pos) (f : CardCtx → CardCtx) : (s.modCard p f).pausePin = s.pausePin := rfl
@[simp] theorem State.modCard_straps (s : State) (p : Pos) (f : CardCtx → CardCtx) : (s.modCard p f).straps = s.straps := rfl
@[simp] theorem State.modCard_resetCause (s : State) (p : Pos) (f : CardCtx → CardCtx) : (s.modCard p f).resetCause = s.resetCause := rfl
@[simp] theorem State.modCard_profileOutcome (s : State) (p : Pos) (f : CardCtx → CardCtx) : (s.modCard p f).profileOutcome = s.profileOutcome := rfl
@[simp] theorem State.modCard_linkRate (s : State) (p : Pos) (f : CardCtx → CardCtx) : (s.modCard p f).linkRate = s.linkRate := rfl
@[simp] theorem State.modCard_time (s : State) (p : Pos) (f : CardCtx → CardCtx) : (s.modCard p f).time = s.time := rfl
@[simp] theorem State.modCard_pool (s : State) (p : Pos) (f : CardCtx → CardCtx) : (s.modCard p f).pool = s.pool := rfl
@[simp] theorem State.modCard_lines (s : State) (p : Pos) (f : CardCtx → CardCtx) : (s.modCard p f).lines = s.lines := rfl
@[simp] theorem State.modCard_dir (s : State) (p : Pos) (f : CardCtx → CardCtx) : (s.modCard p f).dir = s.dir := rfl
@[simp] theorem State.modCard_w0 (s : State) (p : Pos) (f : CardCtx → CardCtx) : (s.modCard p f).w0 = s.w0 := rfl
@[simp] theorem State.modCard_w1 (s : State) (p : Pos) (f : CardCtx → CardCtx) : (s.modCard p f).w1 = s.w1 := rfl
@[simp] theorem State.modCard_w2 (s : State) (p : Pos) (f : CardCtx → CardCtx) : (s.modCard p f).w2 = s.w2 := rfl
@[simp] theorem State.modCard_fanouts (s : State) (p : Pos) (f : CardCtx → CardCtx) : (s.modCard p f).fanouts = s.fanouts := rfl
@[simp] theorem State.modCard_hits (s : State) (p : Pos) (f : CardCtx → CardCtx) : (s.modCard p f).hits = s.hits := rfl
@[simp] theorem State.modCard_entry (s : State) (p : Pos) (f : CardCtx → CardCtx) : (s.modCard p f).entry = s.entry := rfl
@[simp] theorem State.modCard_card (s : State) (p : Pos) (f : CardCtx → CardCtx) : (s.modCard p f).card = s.card.set p (f s.card[p]) := rfl
@[simp] theorem State.modCard_link (s : State) (p : Pos) (f : CardCtx → CardCtx) : (s.modCard p f).link = s.link := rfl
@[simp] theorem State.modCard_profile (s : State) (p : Pos) (f : CardCtx → CardCtx) : (s.modCard p f).profile = s.profile := rfl
@[simp] theorem State.modCard_store (s : State) (p : Pos) (f : CardCtx → CardCtx) : (s.modCard p f).store = s.store := rfl

/-! ## State.modLink -/

@[simp] theorem State.modLink_pending (s : State) (f : Link → Link) : (s.modLink f).pending = s.pending := rfl
@[simp] theorem State.modLink_oracle (s : State) (f : Link → Link) : (s.modLink f).oracle = s.oracle := rfl
@[simp] theorem State.modLink_running (s : State) (f : Link → Link) : (s.modLink f).running = s.running := rfl
@[simp] theorem State.modLink_resetPin (s : State) (f : Link → Link) : (s.modLink f).resetPin = s.resetPin := rfl
@[simp] theorem State.modLink_pausePin (s : State) (f : Link → Link) : (s.modLink f).pausePin = s.pausePin := rfl
@[simp] theorem State.modLink_straps (s : State) (f : Link → Link) : (s.modLink f).straps = s.straps := rfl
@[simp] theorem State.modLink_resetCause (s : State) (f : Link → Link) : (s.modLink f).resetCause = s.resetCause := rfl
@[simp] theorem State.modLink_profileOutcome (s : State) (f : Link → Link) : (s.modLink f).profileOutcome = s.profileOutcome := rfl
@[simp] theorem State.modLink_linkRate (s : State) (f : Link → Link) : (s.modLink f).linkRate = s.linkRate := rfl
@[simp] theorem State.modLink_time (s : State) (f : Link → Link) : (s.modLink f).time = s.time := rfl
@[simp] theorem State.modLink_pool (s : State) (f : Link → Link) : (s.modLink f).pool = s.pool := rfl
@[simp] theorem State.modLink_lines (s : State) (f : Link → Link) : (s.modLink f).lines = s.lines := rfl
@[simp] theorem State.modLink_dir (s : State) (f : Link → Link) : (s.modLink f).dir = s.dir := rfl
@[simp] theorem State.modLink_w0 (s : State) (f : Link → Link) : (s.modLink f).w0 = s.w0 := rfl
@[simp] theorem State.modLink_w1 (s : State) (f : Link → Link) : (s.modLink f).w1 = s.w1 := rfl
@[simp] theorem State.modLink_w2 (s : State) (f : Link → Link) : (s.modLink f).w2 = s.w2 := rfl
@[simp] theorem State.modLink_fanouts (s : State) (f : Link → Link) : (s.modLink f).fanouts = s.fanouts := rfl
@[simp] theorem State.modLink_hits (s : State) (f : Link → Link) : (s.modLink f).hits = s.hits := rfl
@[simp] theorem State.modLink_entry (s : State) (f : Link → Link) : (s.modLink f).entry = s.entry := rfl
@[simp] theorem State.modLink_card (s : State) (f : Link → Link) : (s.modLink f).card = s.card := rfl
@[simp] theorem State.modLink_link (s : State) (f : Link → Link) : (s.modLink f).link = f s.link := rfl
@[simp] theorem State.modLink_profile (s : State) (f : Link → Link) : (s.modLink f).profile = s.profile := rfl
@[simp] theorem State.modLink_store (s : State) (f : Link → Link) : (s.modLink f).store = s.store := rfl

/-! ## State.modPool -/

@[simp] theorem State.modPool_pending (s : State) (f : Pool → Pool) : (s.modPool f).pending = s.pending := rfl
@[simp] theorem State.modPool_oracle (s : State) (f : Pool → Pool) : (s.modPool f).oracle = s.oracle := rfl
@[simp] theorem State.modPool_running (s : State) (f : Pool → Pool) : (s.modPool f).running = s.running := rfl
@[simp] theorem State.modPool_resetPin (s : State) (f : Pool → Pool) : (s.modPool f).resetPin = s.resetPin := rfl
@[simp] theorem State.modPool_pausePin (s : State) (f : Pool → Pool) : (s.modPool f).pausePin = s.pausePin := rfl
@[simp] theorem State.modPool_straps (s : State) (f : Pool → Pool) : (s.modPool f).straps = s.straps := rfl
@[simp] theorem State.modPool_resetCause (s : State) (f : Pool → Pool) : (s.modPool f).resetCause = s.resetCause := rfl
@[simp] theorem State.modPool_profileOutcome (s : State) (f : Pool → Pool) : (s.modPool f).profileOutcome = s.profileOutcome := rfl
@[simp] theorem State.modPool_linkRate (s : State) (f : Pool → Pool) : (s.modPool f).linkRate = s.linkRate := rfl
@[simp] theorem State.modPool_time (s : State) (f : Pool → Pool) : (s.modPool f).time = s.time := rfl
@[simp] theorem State.modPool_pool (s : State) (f : Pool → Pool) : (s.modPool f).pool = f s.pool := rfl
@[simp] theorem State.modPool_lines (s : State) (f : Pool → Pool) : (s.modPool f).lines = s.lines := rfl
@[simp] theorem State.modPool_dir (s : State) (f : Pool → Pool) : (s.modPool f).dir = s.dir := rfl
@[simp] theorem State.modPool_w0 (s : State) (f : Pool → Pool) : (s.modPool f).w0 = s.w0 := rfl
@[simp] theorem State.modPool_w1 (s : State) (f : Pool → Pool) : (s.modPool f).w1 = s.w1 := rfl
@[simp] theorem State.modPool_w2 (s : State) (f : Pool → Pool) : (s.modPool f).w2 = s.w2 := rfl
@[simp] theorem State.modPool_fanouts (s : State) (f : Pool → Pool) : (s.modPool f).fanouts = s.fanouts := rfl
@[simp] theorem State.modPool_hits (s : State) (f : Pool → Pool) : (s.modPool f).hits = s.hits := rfl
@[simp] theorem State.modPool_entry (s : State) (f : Pool → Pool) : (s.modPool f).entry = s.entry := rfl
@[simp] theorem State.modPool_card (s : State) (f : Pool → Pool) : (s.modPool f).card = s.card := rfl
@[simp] theorem State.modPool_link (s : State) (f : Pool → Pool) : (s.modPool f).link = s.link := rfl
@[simp] theorem State.modPool_profile (s : State) (f : Pool → Pool) : (s.modPool f).profile = s.profile := rfl
@[simp] theorem State.modPool_store (s : State) (f : Pool → Pool) : (s.modPool f).store = s.store := rfl

/-! ## State.modSlot -/

@[simp] theorem State.modSlot_pending (s : State) (k : SlotId) (f : Slot → Slot) : (s.modSlot k f).pending = s.pending := rfl
@[simp] theorem State.modSlot_oracle (s : State) (k : SlotId) (f : Slot → Slot) : (s.modSlot k f).oracle = s.oracle := rfl
@[simp] theorem State.modSlot_running (s : State) (k : SlotId) (f : Slot → Slot) : (s.modSlot k f).running = s.running := rfl
@[simp] theorem State.modSlot_resetPin (s : State) (k : SlotId) (f : Slot → Slot) : (s.modSlot k f).resetPin = s.resetPin := rfl
@[simp] theorem State.modSlot_pausePin (s : State) (k : SlotId) (f : Slot → Slot) : (s.modSlot k f).pausePin = s.pausePin := rfl
@[simp] theorem State.modSlot_straps (s : State) (k : SlotId) (f : Slot → Slot) : (s.modSlot k f).straps = s.straps := rfl
@[simp] theorem State.modSlot_resetCause (s : State) (k : SlotId) (f : Slot → Slot) : (s.modSlot k f).resetCause = s.resetCause := rfl
@[simp] theorem State.modSlot_profileOutcome (s : State) (k : SlotId) (f : Slot → Slot) : (s.modSlot k f).profileOutcome = s.profileOutcome := rfl
@[simp] theorem State.modSlot_linkRate (s : State) (k : SlotId) (f : Slot → Slot) : (s.modSlot k f).linkRate = s.linkRate := rfl
@[simp] theorem State.modSlot_time (s : State) (k : SlotId) (f : Slot → Slot) : (s.modSlot k f).time = s.time := rfl
@[simp] theorem State.modSlot_pool (s : State) (k : SlotId) (f : Slot → Slot) : (s.modSlot k f).pool = s.pool := rfl
@[simp] theorem State.modSlot_lines (s : State) (k : SlotId) (f : Slot → Slot) : (s.modSlot k f).lines = s.lines := rfl
@[simp] theorem State.modSlot_dir (s : State) (k : SlotId) (f : Slot → Slot) : (s.modSlot k f).dir = s.dir := rfl
@[simp] theorem State.modSlot_w0 (s : State) (k : SlotId) (f : Slot → Slot) : (s.modSlot k f).w0 = s.w0 := rfl
@[simp] theorem State.modSlot_w1 (s : State) (k : SlotId) (f : Slot → Slot) : (s.modSlot k f).w1 = s.w1 := rfl
@[simp] theorem State.modSlot_w2 (s : State) (k : SlotId) (f : Slot → Slot) : (s.modSlot k f).w2 = s.w2 := rfl
@[simp] theorem State.modSlot_fanouts (s : State) (k : SlotId) (f : Slot → Slot) : (s.modSlot k f).fanouts = s.fanouts := rfl
@[simp] theorem State.modSlot_hits (s : State) (k : SlotId) (f : Slot → Slot) : (s.modSlot k f).hits = s.hits := rfl
@[simp] theorem State.modSlot_entry (s : State) (k : SlotId) (f : Slot → Slot) : (s.modSlot k f).entry = s.entry := rfl
@[simp] theorem State.modSlot_card (s : State) (k : SlotId) (f : Slot → Slot) : (s.modSlot k f).card = s.card := rfl
@[simp] theorem State.modSlot_link (s : State) (k : SlotId) (f : Slot → Slot) : (s.modSlot k f).link = { s.link with slots := s.link.slots.set k (f s.link.slots[k]) } := rfl
@[simp] theorem State.modSlot_profile (s : State) (k : SlotId) (f : Slot → Slot) : (s.modSlot k f).profile = s.profile := rfl
@[simp] theorem State.modSlot_store (s : State) (k : SlotId) (f : Slot → Slot) : (s.modSlot k f).store = s.store := rfl

/-! ## State.pushW -/

@[simp] theorem State.pushW_pending (s : State) (q : Cls) (n : Notice) : (s.pushW q n).pending = s.pending := by
  unfold State.pushW; split <;> rfl
@[simp] theorem State.pushW_oracle (s : State) (q : Cls) (n : Notice) : (s.pushW q n).oracle = s.oracle := by
  unfold State.pushW; split <;> rfl
@[simp] theorem State.pushW_running (s : State) (q : Cls) (n : Notice) : (s.pushW q n).running = s.running := by
  unfold State.pushW; split <;> rfl
@[simp] theorem State.pushW_resetPin (s : State) (q : Cls) (n : Notice) : (s.pushW q n).resetPin = s.resetPin := by
  unfold State.pushW; split <;> rfl
@[simp] theorem State.pushW_pausePin (s : State) (q : Cls) (n : Notice) : (s.pushW q n).pausePin = s.pausePin := by
  unfold State.pushW; split <;> rfl
@[simp] theorem State.pushW_straps (s : State) (q : Cls) (n : Notice) : (s.pushW q n).straps = s.straps := by
  unfold State.pushW; split <;> rfl
@[simp] theorem State.pushW_resetCause (s : State) (q : Cls) (n : Notice) : (s.pushW q n).resetCause = s.resetCause := by
  unfold State.pushW; split <;> rfl
@[simp] theorem State.pushW_profileOutcome (s : State) (q : Cls) (n : Notice) : (s.pushW q n).profileOutcome = s.profileOutcome := by
  unfold State.pushW; split <;> rfl
@[simp] theorem State.pushW_linkRate (s : State) (q : Cls) (n : Notice) : (s.pushW q n).linkRate = s.linkRate := by
  unfold State.pushW; split <;> rfl
@[simp] theorem State.pushW_time (s : State) (q : Cls) (n : Notice) : (s.pushW q n).time = s.time := by
  unfold State.pushW; split <;> rfl
@[simp] theorem State.pushW_pool (s : State) (q : Cls) (n : Notice) : (s.pushW q n).pool = s.pool := by
  unfold State.pushW; split <;> rfl
@[simp] theorem State.pushW_lines (s : State) (q : Cls) (n : Notice) : (s.pushW q n).lines = s.lines := by
  unfold State.pushW; split <;> rfl
@[simp] theorem State.pushW_dir (s : State) (q : Cls) (n : Notice) : (s.pushW q n).dir = s.dir := by
  unfold State.pushW; split <;> rfl
@[simp] theorem State.pushW_fanouts (s : State) (q : Cls) (n : Notice) : (s.pushW q n).fanouts = s.fanouts := by
  unfold State.pushW; split <;> rfl
@[simp] theorem State.pushW_hits (s : State) (q : Cls) (n : Notice) : (s.pushW q n).hits = s.hits := by
  unfold State.pushW; split <;> rfl
@[simp] theorem State.pushW_entry (s : State) (q : Cls) (n : Notice) : (s.pushW q n).entry = s.entry := by
  unfold State.pushW; split <;> rfl
@[simp] theorem State.pushW_card (s : State) (q : Cls) (n : Notice) : (s.pushW q n).card = s.card := by
  unfold State.pushW; split <;> rfl
@[simp] theorem State.pushW_link (s : State) (q : Cls) (n : Notice) : (s.pushW q n).link = s.link := by
  unfold State.pushW; split <;> rfl
@[simp] theorem State.pushW_profile (s : State) (q : Cls) (n : Notice) : (s.pushW q n).profile = s.profile := by
  unfold State.pushW; split <;> rfl
@[simp] theorem State.pushW_store (s : State) (q : Cls) (n : Notice) : (s.pushW q n).store = s.store := by
  unfold State.pushW; split <;> rfl
@[simp] theorem State.pushW_w0 (s : State) (q : Cls) (n : Notice) :
    (s.pushW q n).w0 = if q = 0 then s.w0 ++ [n] else s.w0 := by
  match q with
  | 0 => rfl
  | 1 => rfl
  | 2 => rfl
@[simp] theorem State.pushW_w1 (s : State) (q : Cls) (n : Notice) :
    (s.pushW q n).w1 = if q = 1 then s.w1 ++ [n] else s.w1 := by
  match q with
  | 0 => rfl
  | 1 => rfl
  | 2 => rfl
@[simp] theorem State.pushW_w2 (s : State) (q : Cls) (n : Notice) :
    (s.pushW q n).w2 = if q = 2 then s.w2 ++ [n] else s.w2 := by
  match q with
  | 0 => rfl
  | 1 => rfl
  | 2 => rfl

/-! ## One item of a vector -/

theorem State.modLine_get (s : State) (l l' : LineId) (f : Line → Line) :
    (s.modLine l f).lines[l'] = if l = l' then f s.lines[l'] else s.lines[l'] := by
  rw [State.modLine_lines]
  by_cases h : l = l'
  · subst h; simp
  · simp [h, Fin.val_ne_of_ne h]

theorem State.modDir_get (s : State) (e e' : EntryId) (f : DirEntry → DirEntry) :
    (s.modDir e f).dir[e'] = if e = e' then f s.dir[e'] else s.dir[e'] := by
  rw [State.modDir_dir]
  by_cases h : e = e'
  · subst h; simp
  · simp [h, Fin.val_ne_of_ne h]

theorem State.modEntry_get (s : State) (p p' : Pos) (f : EntryCtx → EntryCtx) :
    (s.modEntry p f).entry[p'] = if p = p' then f s.entry[p'] else s.entry[p'] := by
  rw [State.modEntry_entry]
  by_cases h : p = p'
  · subst h; simp
  · simp [h, Fin.val_ne_of_ne h]

theorem State.modCard_get (s : State) (p p' : Pos) (f : CardCtx → CardCtx) :
    (s.modCard p f).card[p'] = if p = p' then f s.card[p'] else s.card[p'] := by
  rw [State.modCard_card]
  by_cases h : p = p'
  · subst h; simp
  · simp [h, Fin.val_ne_of_ne h]

theorem Pool.modRec_get (p : Pool) (r r' : RecId) (f : Rec → Rec) :
    (p.modRec r f).recs[r'] = if r = r' then f p.recs[r'] else p.recs[r'] := by
  unfold Pool.modRec
  by_cases h : r = r'
  · subst h; simp
  · simp [h, Fin.val_ne_of_ne h]

@[simp] theorem Pool.modRec_free (p : Pool) (r : RecId) (f : Rec → Rec) : (p.modRec r f).free = p.free := rfl
@[simp] theorem Pool.modRec_mem (p : Pool) (r : RecId) (f : Rec → Rec) : (p.modRec r f).mem = p.mem := rfl
@[simp] theorem Pool.modRec_refusals (p : Pool) (r : RecId) (f : Rec → Rec) : (p.modRec r f).refusals = p.refusals := rfl
@[simp] theorem Pool.modRec_refLimit (p : Pool) (r : RecId) (f : Rec → Rec) : (p.modRec r f).refLimit = p.refLimit := rfl
@[simp] theorem Pool.modRec_lowF (p : Pool) (r : RecId) (f : Rec → Rec) : (p.modRec r f).lowF = p.lowF := rfl
@[simp] theorem Pool.modRec_lowG (p : Pool) (r : RecId) (f : Rec → Rec) : (p.modRec r f).lowG = p.lowG := rfl

/-! ## Line.headerBegun, Rx.afterFalseStart -/

@[simp] theorem Line.headerBegun_none (ln : Line) : ln.headerBegun none = ln := rfl

/-- A drain that finds a header in progress changes the reception and the idle mark at most. -/
theorem Line.headerBegun_frame (ln : Line) (h : Option Ms) :
    ln.headerBegun h = { ln with rx := (ln.headerBegun h).rx, idle := (ln.headerBegun h).idle } := by
  unfold Line.headerBegun
  split <;> rfl

@[simp] theorem Rx.afterFalseStart_hunting : Rx.hunting.afterFalseStart = .hunting := rfl
@[simp] theorem Rx.afterFalseStart_completing (a : Ms) (d : Bool) : (Rx.completing a d).afterFalseStart = .hunting := rfl
@[simp] theorem Rx.afterFalseStart_inFrame (f : RxFrame) : (Rx.inFrame f).afterFalseStart = .inFrame f := rfl

/-! ## startEdge -/

@[simp] theorem Rx.afterStartEdge_hunting (a : Ms) (d : Bool) : Rx.hunting.afterStartEdge a d = .completing a d := rfl
@[simp] theorem Rx.afterStartEdge_completing (a b : Ms) (d e : Bool) : (Rx.completing b e).afterStartEdge a d = .completing b e := rfl
@[simp] theorem Rx.afterStartEdge_inFrame (a : Ms) (d : Bool) (f : RxFrame) : (Rx.inFrame f).afterStartEdge a d = .inFrame f := rfl
@[simp] theorem Rx.afterStartEdge_abandoned (a : Ms) (d : Bool) : Rx.abandoned.afterStartEdge a d = .abandoned := rfl

/-- A start edge changes the reception and the idle mark of its line at most, and nothing else. -/
theorem startEdge_frame (s : State) (l : LineId) :
    startEdge s l = { s with
      lines := s.lines.set l { s.lines[l] with idle := false, rx := s.lines[l].rx.afterStartEdge s.now (beganInDrain s l) } } := rfl

/-! ## beginWrite -/

@[simp] theorem beginWrite_state (st : Store) (c : Commit) : (beginWrite st c).state = st.state := rfl
@[simp] theorem beginWrite_blocks (st : Store) (c : Commit) : (beginWrite st c).blocks = st.blocks := rfl
@[simp] theorem beginWrite_begun (st : Store) (c : Commit) : (beginWrite st c).begun = st.begun + 1 := rfl
@[simp] theorem beginWrite_commit (st : Store) (c : Commit) :
    (beginWrite st c).commit = some { c with write := st.begun + 1 } := rfl

end Sys2Proof.Machine
end

