-- ==== Sys2Proof/Laws/Pool.lean ====
section
/-! SUPPORT. The Frame Pool: what an admission, a reference and a release do, and the inversion of every change of the pool into
its elementary changes. -/

namespace Sys2Proof.Machine

/-! ## Admission (R7 to R9) -/

theorem Pool.lowestFree_free {p : Pool} {r : RecId} (h : p.lowestFree = some r) : p.recs[r].state = .free := by
  have := List.find?_some h
  simpa using this

/-- R7: an admission that passes the tests finds its chunks and a FREE record. -/
theorem failedTest_none {prof : Profile} {p : Pool} {c : Cls} {n : Nat} {o : Origin} (h : failedTest prof p c n o = none) :
    n ≤ p.free.length ∧ 1 ≤ p.recsFree ∧ quotaTest prof p o n = true := by
  unfold failedTest at h
  split_ifs at h with h1 h2 h3
  simp only [Bool.not_eq_true', Bool.not_eq_false] at h1 h2 h3
  refine ⟨?_, ?_, h3⟩
  · unfold chunkTest Pool.chunksFree at h1
    split at h1 <;> simp only [decide_eq_true_eq] at h1 <;> omega
  · unfold recordTest at h2
    split at h2 <;> simp only [decide_eq_true_eq] at h2 <;> omega

/-- A FREE record is found whenever one is left. -/
theorem Pool.lowestFree_isSome {p : Pool} (h : 1 ≤ p.recsFree) : ∃ r, p.lowestFree = some r := by
  unfold Pool.recsFree at h
  obtain ⟨x, hx, hf⟩ := List.countP_pos_iff.1 (by omega : 0 < p.recs.toList.countP fun r => r.state == .free)
  obtain ⟨i, hi, rfl⟩ := List.getElem_of_mem hx
  have hi' : i < 64 := by simpa using hi
  cases hl : p.lowestFree with
  | some r => exact ⟨r, rfl⟩
  | none =>
    have := List.find?_eq_none.1 hl ⟨i, hi'⟩ (List.mem_finRange _)
    simp_all

/-- R7 to R9: an admission is refused with its counter raised, or granted from the lowest FREE record. -/
theorem admit_cases (s : State) (a : Admission) :
    (∃ t, failedTest s.profile s.pool a.cls a.need a.origin = some t ∧
        admitRec s a = (s.modPool fun p => p.countRefusal t a.cls, none)) ∨
      ∃ r, failedTest s.profile s.pool a.cls a.need a.origin = none ∧ s.pool.lowestFree = some r ∧
        admitRec s a = (s.modPool fun p => p.grant r a, some r) := by
  unfold admitRec
  cases h : failedTest s.profile s.pool a.cls a.need a.origin with
  | some t => exact .inl ⟨t, rfl, rfl⟩
  | none =>
    obtain ⟨r, hr⟩ := Pool.lowestFree_isSome (failedTest_none h).2.1
    exact .inr ⟨r, rfl, hr, by rw [hr]⟩

/-- R15: a reference is refused at count 20, or added. -/
theorem addRef_cases (s : State) (r : RecId) :
    (Config.maxRefs ≤ s.pool.recs[r].refs ∧
        addRef s r = (s.modPool fun p => { p with refLimit := satInc Config.count16 p.refLimit }, false)) ∨
      (s.pool.recs[r].refs < Config.maxRefs ∧
        addRef s r = (s.modPool fun p => p.modRec r fun x => { x with refs := x.refs + 1 }, true)) := by
  unfold addRef
  split
  · exact .inl ⟨‹_›, rfl⟩
  · exact .inr ⟨by omega, rfl⟩

/-- R14: a reference given up lowers the count, or releases the record. -/
theorem Pool.dropRef_cases (p : Pool) (r : RecId) :
    (p.recs[r].refs ≤ 1 ∧ p.dropRef r = p.release r) ∨
      (2 ≤ p.recs[r].refs ∧ p.dropRef r = p.modRec r fun x => { x with refs := x.refs - 1 }) := by
  unfold Pool.dropRef
  split
  · exact .inl ⟨‹_›, rfl⟩
  · exact .inr ⟨by omega, rfl⟩

/-! ## Elementary changes -/

/-- One elementary change of the pool. -/
inductive PoolStep : Pool → Pool → Prop
  | refusal (p : Pool) (t : AdmissionTest) (c : Cls) : PoolStep p (p.countRefusal t c)
  | grant (p : Pool) (r : RecId) (a : Admission) (hr : p.recs[r].state = .free) (hn : a.need ≤ p.free.length)
      (ha : a.state ≠ .free) : PoolStep p (p.grant r a)
  | drop (p : Pool) (r : RecId) : PoolStep p (p.dropRef r)
  | add (p : Pool) (r : RecId) (h : p.recs[r].refs < Config.maxRefs) :
      PoolStep p (p.modRec r fun x => { x with refs := x.refs + 1 })
  | limit (p : Pool) : PoolStep p { p with refLimit := satInc Config.count16 p.refLimit }
  | body (p : Pool) (r : RecId) (bytes : List Byte) : PoolStep p (p.setBody r bytes)
  | append (p : Pool) (r : RecId) (bytes : List Byte) : PoolStep p (p.appendBody r bytes)
  | store (p : Pool) (r : RecId) (t : Ms) : PoolStep p (p.modRec r fun x => { x with state := .stored, arrival := t })
  | stored (p : Pool) (r : RecId) : PoolStep p (p.modRec r fun x => { x with state := .stored })
  | filling (p : Pool) (r : RecId) : PoolStep p (p.modRec r fun x => { x with state := .filling })
  | spread (p : Pool) (r : RecId) (n : Nat) (h : n ≤ Config.maxRefs) : PoolStep p (p.modRec r fun x => { x with refs := n })
  | clear (p : Pool) : PoolStep p p.clearCounts

/-- A run of elementary changes. -/
abbrev PoolPath : Pool → Pool → Prop := Relation.ReflTransGen PoolStep

theorem PoolPath.step {p q : Pool} (h : PoolStep p q) : PoolPath p q := Relation.ReflTransGen.single h

theorem admit_path (s : State) (a : Admission) (ha : a.state ≠ .free) : PoolPath s.pool (admitRec s a).1.pool := by
  rcases admit_cases s a with ⟨t, -, h⟩ | ⟨r, hf, hr, h⟩ <;> rw [h]
  · exact .step (.refusal _ _ _)
  · exact .step (.grant _ _ _ (Pool.lowestFree_free hr) (failedTest_none hf).1 ha)

theorem addRef_path (s : State) (r : RecId) : PoolPath s.pool (addRef s r).1.pool := by
  rcases addRef_cases s r with ⟨-, h⟩ | ⟨hr, h⟩ <;> rw [h]
  · exact .step (.limit _)
  · exact .step (.add _ _ hr)

end Sys2Proof.Machine
end

