-- ==== Sys2Proof/Laws/Calm.lean ====
section
/-! SUPPORT. What the operations of the line, entry, card and Dispatch blocks leave alone: `Quiet` for every such operation, and
`Calm` for those that also leave the directory alone but for the outbound sequence bits (R63). -/

namespace Sys2Proof.Machine

/-- The pins, the time, the link, the profile and the store stand as they stood; the pool has changed by elementary changes. -/
structure Quiet (s t : State) : Prop where
  pending : t.pending = s.pending
  oracle : t.oracle = s.oracle
  running : t.running = s.running
  resetPin : t.resetPin = s.resetPin
  pausePin : t.pausePin = s.pausePin
  straps : t.straps = s.straps
  resetCause : t.resetCause = s.resetCause
  profileOutcome : t.profileOutcome = s.profileOutcome
  linkRate : t.linkRate = s.linkRate
  time : t.time = s.time
  link : t.link = s.link
  profile : t.profile = s.profile
  store : t.store = s.store
  pool : PoolPath s.pool t.pool

/-- Besides, the hit counts stand, and each directory entry but for its outbound bit. -/
structure Calm (s t : State) : Prop extends Quiet s t where
  hits : t.hits = s.hits
  dir : ∀ e : EntryId, t.dir[e] = { s.dir[e] with outBit := t.dir[e].outBit }

theorem Quiet.refl (s : State) : Quiet s s :=
  ⟨rfl, rfl, rfl, rfl, rfl, rfl, rfl, rfl, rfl, rfl, rfl, rfl, rfl, .refl⟩

theorem Quiet.trans {s t u : State} (h : Quiet s t) (k : Quiet t u) : Quiet s u :=
  ⟨k.pending.trans h.pending, k.oracle.trans h.oracle, k.running.trans h.running, k.resetPin.trans h.resetPin,
   k.pausePin.trans h.pausePin, k.straps.trans h.straps, k.resetCause.trans h.resetCause,
   k.profileOutcome.trans h.profileOutcome, k.linkRate.trans h.linkRate, k.time.trans h.time, k.link.trans h.link,
   k.profile.trans h.profile, k.store.trans h.store, h.pool.trans k.pool⟩

theorem Calm.refl (s : State) : Calm s s := ⟨Quiet.refl s, rfl, fun _ => rfl⟩

theorem Calm.trans {s t u : State} (h : Calm s t) (k : Calm t u) : Calm s u :=
  ⟨h.toQuiet.trans k.toQuiet, k.hits.trans h.hits, fun e => by
    have h1 := h.dir e
    have h2 := k.dir e
    rw [h1] at h2
    exact h2⟩

theorem Quiet.foldl {α : Type} {f : State → α → State} (h : ∀ t x, Quiet t (f t x)) (l : List α) (s : State) :
    Quiet s (l.foldl f s) := by
  induction l generalizing s with
  | nil => exact .refl s
  | cons x l ih => exact (h s x).trans (ih _)

theorem Calm.foldl {α : Type} {f : State → α → State} (h : ∀ t x, Calm t (f t x)) (l : List α) (s : State) :
    Calm s (l.foldl f s) := by
  induction l generalizing s with
  | nil => exact .refl s
  | cons x l ih => exact (h s x).trans (ih _)

theorem Calm.ite {s t u : State} {c : Prop} [Decidable c] (h : Calm s t) (k : Calm s u) : Calm s (if c then t else u) := by
  split <;> assumption

theorem Quiet.ite {s t u : State} {c : Prop} [Decidable c] (h : Quiet s t) (k : Quiet s u) : Quiet s (if c then t else u) := by
  split <;> assumption

/-! ## Named updates -/

theorem calm_modLine (s : State) (l : LineId) (f : Line → Line) : Calm s (s.modLine l f) :=
  ⟨⟨rfl, rfl, rfl, rfl, rfl, rfl, rfl, rfl, rfl, rfl, rfl, rfl, rfl, .refl⟩, rfl, fun _ => rfl⟩

theorem calm_modEntry (s : State) (p : Pos) (f : EntryCtx → EntryCtx) : Calm s (s.modEntry p f) :=
  ⟨⟨rfl, rfl, rfl, rfl, rfl, rfl, rfl, rfl, rfl, rfl, rfl, rfl, rfl, .refl⟩, rfl, fun _ => rfl⟩

theorem calm_modCard (s : State) (p : Pos) (f : CardCtx → CardCtx) : Calm s (s.modCard p f) :=
  ⟨⟨rfl, rfl, rfl, rfl, rfl, rfl, rfl, rfl, rfl, rfl, rfl, rfl, rfl, .refl⟩, rfl, fun _ => rfl⟩

theorem calm_pushW (s : State) (q : Cls) (n : Notice) : Calm s (s.pushW q n) :=
  ⟨⟨by simp, by simp, by simp, by simp, by simp, by simp, by simp, by simp, by simp, by simp, by simp, by simp, by simp,
    by rw [State.pushW_pool]⟩, by simp, fun _ => by simp⟩

theorem calm_fanouts (s : State) (f : List Fanout) : Calm s { s with fanouts := f } :=
  ⟨⟨rfl, rfl, rfl, rfl, rfl, rfl, rfl, rfl, rfl, rfl, rfl, rfl, rfl, .refl⟩, rfl, fun _ => rfl⟩

theorem calm_modPool {s : State} {f : Pool → Pool} (h : PoolPath s.pool (f s.pool)) : Calm s (s.modPool f) :=
  ⟨⟨rfl, rfl, rfl, rfl, rfl, rfl, rfl, rfl, rfl, rfl, rfl, rfl, rfl, h⟩, rfl, fun _ => rfl⟩

theorem quiet_modDir (s : State) (e : EntryId) (f : DirEntry → DirEntry) : Quiet s (s.modDir e f) :=
  ⟨rfl, rfl, rfl, rfl, rfl, rfl, rfl, rfl, rfl, rfl, rfl, rfl, rfl, .refl⟩

theorem quiet_hits (s : State) (h : Vector Nat 16) : Quiet s { s with hits := h } :=
  ⟨rfl, rfl, rfl, rfl, rfl, rfl, rfl, rfl, rfl, rfl, rfl, rfl, rfl, .refl⟩

theorem calm_countLine (s : State) (l : LineId) (f : LineCounters → LineCounters) : Calm s (countLine s l f) :=
  calm_modLine s l _

theorem calm_setLineMark (s : State) (l : LineId) : Calm s (setLineMark s l) := calm_modLine s l _

theorem quiet_setDirMark (s : State) (e : EntryId) : Quiet s (setDirMark s e) := quiet_modDir s e _

/-! ## The pool's operations -/

theorem calm_admit (s : State) (a : Admission) (ha : a.state ≠ .free) : Calm s (admitRec s a).1 := by
  have hp := admit_path s a ha
  rcases admit_cases s a with ⟨t, -, h⟩ | ⟨r, -, -, h⟩ <;> rw [h] at hp ⊢ <;> dsimp only at hp ⊢ <;> exact calm_modPool hp

theorem calm_dropRef (s : State) (r : RecId) : Calm s (dropRef s r) := calm_modPool (.step (.drop _ _))

theorem calm_addRef (s : State) (r : RecId) : Calm s (addRef s r).1 := by
  have hp := addRef_path s r
  rcases addRef_cases s r with ⟨-, h⟩ | ⟨-, h⟩ <;> rw [h] at hp ⊢ <;> dsimp only at hp ⊢ <;> exact calm_modPool hp

theorem calm_setBody (s : State) (r : RecId) (b : List Byte) : Calm s (s.modPool fun p => p.setBody r b) :=
  calm_modPool (.step (.body _ _ _))

theorem calm_admitBuilt (s : State) (c : Cls) (o : Origin) (k : RecKind) (u : Urgency) (b : List Byte) :
    Calm s (admitBuilt s c o k u b).1 := by
  unfold admitBuilt
  have h := calm_admit s { cls := c, need := chunkNeed b.length, origin := o, kind := k, urg := u, arrival := s.now,
                           state := .stored, promise := none } (by simp)
  split <;> rename_i heq <;> rw [heq] at h <;> dsimp only at h ⊢
  · exact h
  · exact h.trans (calm_setBody _ _ _)

theorem calm_reserve (s : State) (k : NoticeKind) (tag : Byte) : Calm s (reserve s k tag).1 := calm_admit s _ (by simp)

theorem calm_storeNow (s : State) (r : RecId) : Calm s (storeNow s r) := calm_modPool (.step (.store _ _ _))

theorem calm_completePromise (s : State) (r : RecId) (k : NoticeKind) (q : Cls) (pos : Option Pos) (b : List Byte) :
    Calm s (completePromise s r k q pos b) :=
  ((calm_setBody s r b).trans (calm_storeNow _ r)).trans (calm_pushW _ _ _)

/-! ## Offers -/

theorem calm_offerControl (s : State) (l : LineId) (k : FrameKind) (dest : Addr) (t : Option EntryId) (o : Owner)
    (b : List Byte) : Calm s (offerControl s l k dest t o b).1 := by
  unfold offerControl
  split
  · exact .refl s
  · have h := calm_admitBuilt s (classOfUrgency (partUrgency k)) .part (.frame k) (partUrgency k) b
    split <;> rename_i heq <;> rw [heq] at h <;> dsimp only at h ⊢
    · exact h
    · exact h.trans (calm_modLine _ _ _)

theorem calm_offerDisplay (s : State) (l : LineId) (dest : Addr) (e : EntryId) (p : Pos) (d : DisplayLines) (t : Tone) :
    Calm s (offerDisplay s l dest e p d t).1 := by
  unfold offerDisplay
  split
  · exact .refl s
  · split
    · exact calm_setBody _ _ _
    · exact calm_offerControl _ _ _ _ _ _ _

theorem calm_offerGrant (s : State) (e : EntryId) : Calm s (offerGrant s e) := calm_offerControl _ _ _ _ _ _ _

theorem calm_offerRefuse (s : State) (l : LineId) (i : Identity) (b : Byte) : Calm s (offerRefuse s l i b) :=
  calm_offerControl _ _ _ _ _ _ _

theorem calm_offerGeneralWho (s : State) (l : LineId) : Calm s (offerGeneralWho s l) := calm_offerControl _ _ _ _ _ _ _

theorem calm_offerStrayWho (s : State) (l : LineId) (a : Addr) : Calm s (offerStrayWho s l a) := by
  unfold offerStrayWho
  refine .ite (.refl s) ?_
  have h := calm_offerControl s l .who a none .directory []
  split <;> rename_i heq <;> rw [heq] at h <;> dsimp only at h ⊢
  · exact h.trans (calm_modLine _ _ _)
  · exact h

theorem calm_keyNotice (s : State) (p : Pos) (e : EntryId) (codes : List Byte) : Calm s (keyNotice s p e codes) := by
  unfold keyNotice
  have h := calm_admitBuilt s 1 .part (.notice .key) 0 codes
  split <;> rename_i heq <;> rw [heq] at h <;> dsimp only at h ⊢
  · exact h
  · exact h.trans (calm_pushW _ _ _)

/-! ## The Entry Engine -/

theorem calm_setDisplayPending (s : State) (p : Pos) (t : Tone) : Calm s (setDisplayPending s p t) := calm_modEntry _ _ _

theorem calm_clearDisplayPending (s : State) (p : Pos) : Calm s (clearDisplayPending s p) := calm_modEntry _ _ _

theorem calm_displayUpdate (s : State) (p : Pos) (d : DisplayLines) (t : Tone) : Calm s (displayUpdate s p d t) := by
  unfold displayUpdate
  simp only
  split
  · exact ((calm_modEntry _ _ _).trans (calm_clearDisplayPending _ _)).trans (calm_modEntry _ _ _)
  · rename_i e l a _
    have h := (calm_modEntry s p fun c => { c with wanted := d }).trans
      (calm_offerDisplay _ l a e p d (strongerTone t (s.modEntry p fun c => { c with wanted := d }).entry[p].pendTone))
    split <;> rename_i heq <;> rw [heq] at h <;> dsimp only at h ⊢
    · exact h.trans (calm_clearDisplayPending _ _)
    · exact h.trans (calm_setDisplayPending _ _ _)

theorem calm_displayOutcome (s : State) (p : Pos) (o : FrameOutcome) : Calm s (displayOutcome s p o) := by
  unfold displayOutcome
  split <;> first | exact calm_setDisplayPending _ _ _ | exact .refl s

theorem calm_displayRetry (s : State) (p : Pos) : Calm s (displayRetry s p) := by
  unfold displayRetry
  simp only
  split
  · exact calm_modEntry _ _ _
  · split
    · exact (calm_modEntry _ _ _).trans (calm_modEntry _ _ _)
    · exact (calm_modEntry _ _ _).trans (calm_displayUpdate _ _ _ _)

theorem calm_endSession (s : State) (p : Pos) (ss : Session) (o : EntryOutcome) (c : Cause) (t : Tone) :
    Calm s (endSession s p ss o c t) := by
  unfold endSession
  simp only
  have h := ((calm_completePromise s ss.result .entryResult 0 (some p) (entryResultBody p ss o c)).trans
    (calm_modEntry _ p fun x => { x with sess := none })).trans (calm_displayUpdate _ p (closingLines
      ((completePromise s ss.result .entryResult 0 (some p) (entryResultBody p ss o c)).modEntry p
        fun x => { x with sess := none }) c) t)
  split
  · exact h.trans (calm_modEntry _ _ _)
  · exact h

theorem calm_abortSession (s : State) (p : Pos) (c : Cause) : Calm s (abortSession s p c) := by
  unfold abortSession
  split
  · exact .refl s
  · exact calm_endSession _ _ _ _ _ _

theorem calm_pinRemainder (s : State) (p : Pos) (e : EntryId) (codes : List Byte) : Calm s (pinRemainder s p e codes) := by
  induction codes generalizing s with
  | nil => exact .refl s
  | cons c cs ih =>
    unfold pinRemainder
    exact Calm.trans (.ite (calm_keyNotice _ _ _ _) (.refl s)) (ih _)

theorem calm_frameRemainder (s : State) (p : Pos) (e : EntryId) (w : Bool) (codes : List Byte) :
    Calm s (frameRemainder s p e w codes) := by
  unfold frameRemainder
  split
  · exact calm_pinRemainder _ _ _ _
  · exact .ite (.refl s) (calm_keyNotice _ _ _ _)

theorem calm_takeKeys (p : Pos) (e : EntryId) (codes : List Byte) (taken buzz : Bool) (s : State) :
    Calm s (takeKeys p e codes taken buzz s) := by
  induction codes generalizing taken buzz s with
  | nil =>
    unfold takeKeys
    split
    · exact .ite (calm_displayUpdate _ _ _ _) (.refl s)
    · exact .refl s
  | cons c cs ih =>
    unfold takeKeys
    split
    · exact .refl s
    · split
      · exact (calm_keyNotice _ _ _ _).trans (ih _ _ _)
      · exact ih _ _ _
      · split
        · exact (calm_modEntry _ _ _).trans (ih _ _ _)
        · exact (calm_modEntry _ _ _).trans (ih _ _ _)
        · exact (calm_endSession _ _ _ _ _ _).trans (calm_frameRemainder _ _ _ _ _)

theorem calm_guardKeys (s : State) (p : Pos) (e : EntryId) (codes : List Byte) : Calm s (guardKeys s p e codes) := by
  unfold guardKeys
  simp only
  have h : Calm s (if (codes.filter fun b => !guarded b).isEmpty || !s.time.attended then s
      else keyNotice s p e (codes.filter fun b => !guarded b)) := .ite (.refl s) (calm_keyNotice _ _ _ _)
  exact .ite (h.trans (calm_displayUpdate _ _ _ _)) h

/-! ## The Card Engine -/

theorem calm_releaseHolds (s : State) (p : Pos) : Calm s (releaseHolds s p) :=
  (calm_modCard _ _ _).trans (Calm.foldl (fun t r => calm_dropRef t r) _ _)

theorem calm_cardEnter (s : State) (p : Pos) (st : CardState) (c : Cause) (cur : Option (CardCommand × RecId)) (n : Nat) :
    Calm s (cardEnter s p st c cur n) := by
  unfold cardEnter
  exact Calm.trans (.ite (.refl s) (calm_releaseHolds s p)) (calm_modCard _ _ _)

theorem calm_cardTo (s : State) (p : Pos) (st : CardState) (c : Cause) : Calm s (cardTo s p st c) := calm_cardEnter _ _ _ _ _ _

theorem calm_offerCommand (s : State) (p : Pos) (cmd : CardCommand) (m : BitVec 3) : Calm s (offerCommand s p cmd m).1 := by
  unfold offerCommand
  split
  · exact .refl s
  · exact calm_offerControl _ _ _ _ _ _ _

theorem calm_readEnd (s : State) (p : Pos) (o : ReadOutcome) (c : Cause) (b : Byte) : Calm s (readEnd s p o c b) := by
  unfold readEnd
  split
  · exact .refl s
  · exact (calm_completePromise _ _ _ _ _ _).trans (calm_modCard _ _ _)

theorem calm_startRead (s : State) (p : Pos) (pr cmd : RecId) (m : BitVec 3) (tag : Byte) (sec : Nat) (c : Cause) :
    Calm s (startRead s p pr cmd m tag sec c) :=
  ((calm_releaseHolds s p).trans (calm_modCard _ _ _)).trans (calm_cardEnter _ _ _ _ _ _)

theorem calm_cardOutcome (s : State) (p : Pos) (r : RecId) (o : FrameOutcome) : Calm s (cardOutcome s p r o) := by
  unfold cardOutcome
  split
  · exact .refl s
  · split
    · exact .refl s
    · split <;>
        first
        | exact .refl s
        | exact (calm_readEnd _ _ _ _ _).trans (calm_cardTo _ _ _ _)
        | exact calm_cardTo _ _ _ _

theorem calm_ownCommand (s : State) (p : Pos) (cmd : CardCommand) (st : CardState) (c : Cause) :
    Calm s (ownCommand s p cmd st c) := by
  unfold ownCommand
  have h := calm_offerCommand s p cmd 0
  split <;> rename_i heq <;> rw [heq] at h <;> dsimp only at h ⊢
  · exact h.trans (calm_cardEnter _ _ _ _ _ _)
  · exact h.trans (calm_cardTo _ _ _ _)
  · exact h.trans (calm_cardTo _ _ _ _)

theorem calm_readOnInsert (s : State) (p : Pos) : Calm s (readOnInsert s p) := by
  unfold readOnInsert
  have h := calm_reserve s .readDone 0
  split <;> rename_i heq <;> rw [heq] at h <;> dsimp only at h ⊢
  · exact h.trans (calm_cardTo _ _ _ _)
  · rename_i s1 pr
    have k := h.trans (calm_offerCommand s1 p .read 7)
    split <;> rename_i heq2 <;> rw [heq2] at k <;> dsimp only at k ⊢
    · exact k.trans (calm_startRead _ _ _ _ _ _ _ _)
    · exact (k.trans (calm_dropRef _ _)).trans (calm_cardTo _ _ _ _)

theorem calm_cardMove (s : State) (p : Pos) (m : Movement) : Calm s (cardMove s p m) := by
  have gone : ∀ c, Calm s (cardGone s p c) := fun c => by
    unfold cardGone
    simp only
    exact .ite (.refl s) (Calm.trans (.ite (calm_readEnd _ _ _ _ _) (.refl s)) (calm_cardTo _ _ _ _))
  unfold cardMove
  split
  · unfold cardInserted
    simp only
    have h : Calm s (if s.card[p].state = .reading then readEnd s p .withdrawn .cardInserted 0 else s) :=
      .ite (calm_readEnd _ _ _ _ _) (.refl s)
    exact .ite (h.trans (calm_ownCommand _ _ _ _ _)) (.ite (h.trans (calm_readOnInsert _ _)) (h.trans (calm_cardTo _ _ _ _)))
  · exact gone _
  · exact gone _
  · exact .ite (calm_cardTo _ _ _ _) (.refl s)
  · exact Calm.trans (.ite (calm_readEnd _ _ _ _ _) (.refl s)) (calm_cardTo _ _ _ _)

theorem calm_cardMoveFrame (s : State) (p : Pos) (r : RecId) : Calm s (cardMoveFrame s p r) := by
  unfold cardMoveFrame
  refine Calm.trans ?_ (calm_dropRef _ _)
  split
  · split
    · exact calm_cardMove _ _ _
    · exact .refl s
  · exact .refl s

theorem calm_trackNotice (s : State) (p : Pos) (e : EntryId) (r : RecId) (b : Bool) : Calm s (trackNotice s p e r b) := by
  unfold trackNotice
  have h := calm_addRef s r
  split <;> rename_i heq <;> rw [heq] at h <;> dsimp only at h ⊢
  · exact h
  · exact h.trans (calm_pushW _ _ _)

theorem calm_trackFrame (s : State) (p : Pos) (e : EntryId) (r : RecId) : Calm s (trackFrame s p e r) := by
  unfold trackFrame
  split
  · exact calm_dropRef _ _
  · simp only
    split
    · rename_i i st _ _
      have h := (calm_modCard s p fun c => { c with holds := c.holds.set i (some (st, r)) }).trans
        (calm_trackNotice _ p e r false)
      exact .ite (h.trans ((calm_readEnd _ _ _ _ _).trans (calm_cardTo _ _ _ _))) h
    · exact calm_dropRef _ _

theorem calm_cardStatusReport (s : State) (p : Pos) (b : Bool) : Calm s (cardStatusReport s p b) := by
  unfold cardStatusReport
  exact .ite (.refl s) (.ite (calm_cardTo _ _ _ _) (.ite (calm_cardTo _ _ _ _) (calm_ownCommand _ _ _ _ _)))

theorem calm_cardServiceEnd (s : State) (p : Pos) (c : Cause) : Calm s (cardServiceEnd s p c) := by
  unfold cardServiceEnd
  simp only
  exact .ite (.refl s) (Calm.trans (.ite (calm_readEnd _ _ _ _ _) (.refl s)) (calm_cardTo _ _ _ _))

theorem calm_cardLineStopped (s : State) (p : Pos) : Calm s (cardLineStopped s p) :=
  Calm.trans (.ite (calm_readEnd _ _ _ _ _) (.refl s)) (calm_cardTo _ _ _ _)

theorem calm_cardUnattended (s : State) (p : Pos) : Calm s (cardUnattended s p) := by
  unfold cardUnattended
  split
  · exact calm_ownCommand _ _ _ _ _
  · exact calm_ownCommand _ _ _ _ _
  · exact (calm_readEnd _ _ _ _ _).trans (calm_ownCommand _ _ _ _ _)
  · exact .refl s

/-! ## Outcomes -/

theorem calm_completeSendDone (s : State) (f : Fanout) : Calm s (completeSendDone s f) := by
  unfold completeSendDone
  exact ((calm_storeNow _ _).trans (calm_fanouts _ _)).trans (calm_pushW _ _ _)

theorem calm_copyOutcome (s : State) (r : RecId) (e : EntryId) (o : FrameOutcome) : Calm s (copyOutcome s r e o) := by
  unfold copyOutcome
  split
  · exact .refl s
  · split
    · exact .refl s
    · rename_i t _
      simp only
      have h : Calm s (s.modPool fun p =>
          (p.appendBody r (identityBytes t.identity ++ [o.code])).modRec r fun x => { x with state := .filling }) :=
        calm_modPool (Relation.ReflTransGen.trans (PoolPath.step (.append _ _ _)) (PoolPath.step (.filling _ _)))
      exact .ite ((h.trans (calm_fanouts _ _)).trans (calm_completeSendDone _ _)) (h.trans (calm_fanouts _ _))

theorem calm_toggleOut (s : State) (t : Option EntryId) : Calm s (toggleOut s t) := by
  unfold toggleOut
  split
  · exact .refl s
  · rename_i e
    refine ⟨quiet_modDir _ _ _, rfl, fun e' => ?_⟩
    rw [State.modDir_get]
    split <;> rfl

theorem calm_leaveQueue (s : State) (l : LineId) (q : QEntry) : Calm s (leaveQueue s l q) := by
  unfold leaveQueue
  exact .ite (calm_modLine _ _ _) ((calm_modLine _ _ _).trans (calm_dropRef _ _))

theorem calm_tellOwner (s : State) (q : QEntry) (o : FrameOutcome) : Calm s (tellOwner s q o) := by
  unfold tellOwner
  split
  · exact .refl s
  · exact .refl s
  · exact calm_displayOutcome _ _ _
  · exact calm_cardOutcome _ _ _ _
  · split
    · exact .refl s
    · exact calm_copyOutcome _ _ _ _

theorem calm_endEntry (s : State) (l : LineId) (q : QEntry) (o : FrameOutcome) : Calm s (endEntry s l q o) :=
  Calm.trans ((calm_leaveQueue s l q).trans (.ite (calm_toggleOut _ _) (.refl _))) (calm_tellOwner _ _ _)

theorem calm_endEntries (s : State) (l : LineId) (qs : List QEntry) (o : FrameOutcome) : Calm s (endEntries s l qs o) :=
  Calm.foldl (fun t q => calm_endEntry t l q o) _ _

/-! ## What the Directory asks of the engines -/

theorem calm_endUnitSessions (s : State) (k : UnitKind) (pos : Option Pos) (c : Cause) : Calm s (endUnitSessions s k pos c) := by
  unfold endUnitSessions
  split
  · exact .refl s
  · split
    · exact calm_abortSession _ _ _
    · exact calm_cardServiceEnd _ _ _

end Sys2Proof.Machine
end

