-- ==== Sys2Proof/Laws/Quiet.lean ====
section
/-! SUPPORT. The operations of the Unit Directory, of Dispatch and of the Line Engine leave the pins, the time, the link, the
profile and the store alone, and change the pool by elementary changes (`Quiet`). -/

namespace Sys2Proof.Machine

/-! ## Unit Directory -/

theorem quiet_releaseAddress (s : State) (e : EntryId) : Quiet s (releaseAddress s e) := by
  unfold releaseAddress
  exact ((quiet_modDir s e _).trans (calm_endEntries _ _ _ _).toQuiet).trans (quiet_modDir _ _ _)

theorem quiet_grantAddress (s : State) (e : EntryId) (l : LineId) (a : Addr) : Quiet s (grantAddress s e l a) := by
  unfold grantAddress
  exact ((quiet_modDir s e _).trans (calm_offerGrant _ _).toQuiet).trans (quiet_modDir _ _ _)

theorem quiet_unbindEntry (s : State) (e : EntryId) : Quiet s (unbindEntry s e) := quiet_modDir _ _ _

theorem quiet_bindEntry (s : State) (e : EntryId) (p : Pos) (b : Bool) : Quiet s (bindEntry s e p b) := quiet_modDir _ _ _

theorem quiet_pinCheck (s : State) (e : EntryId) : Quiet s (pinCheck s e) := by
  unfold pinCheck
  split
  · exact .refl s
  · split
    · exact quiet_bindEntry _ _ _ _
    · exact .ite (.refl s) ((((quiet_unbindEntry _ _).trans (quiet_setDirMark _ _)).trans
        (calm_endUnitSessions _ _ _ _).toQuiet).trans (quiet_bindEntry _ _ _ _))

theorem quiet_helloNew (s : State) (l : LineId) (i : Identity) (k : UnitKind) : Quiet s (helloNew s l i k) := by
  unfold helloNew
  split
  · exact (calm_offerRefuse _ _ _ _).toQuiet
  · split
    · exact (calm_offerRefuse _ _ _ _).toQuiet
    · exact (((quiet_modDir _ _ _).trans (quiet_grantAddress _ _ _ _)).trans (quiet_pinCheck _ _)).trans
        (quiet_setDirMark _ _)

theorem quiet_helloKind (s : State) (e : EntryId) (k : UnitKind) : Quiet s (helloKind s e k) := by
  unfold helloKind
  exact Quiet.trans (.ite (((quiet_unbindEntry _ _).trans (quiet_setDirMark _ _)).trans (calm_endUnitSessions _ _ _ _).toQuiet)
    (.refl s)) (quiet_modDir _ _ _)

theorem quiet_helloRestart (s : State) (e : EntryId) : Quiet s (helloRestart s e) := by
  unfold helloRestart
  simp only
  split
  · exact (calm_offerRefuse _ _ _ _).toQuiet
  · exact ((Quiet.ite (quiet_releaseAddress _ _) (.refl s)).trans (quiet_grantAddress _ _ _ _)).trans
      ((calm_endUnitSessions _ _ _ _).toQuiet.trans (quiet_setDirMark _ _))

theorem quiet_helloMove (s : State) (e : EntryId) (l : LineId) (a : Addr) : Quiet s (helloMove s e l a) := by
  unfold helloMove
  exact ((Quiet.ite (quiet_releaseAddress _ _) (.refl s)).trans (quiet_grantAddress _ _ _ _)).trans
    ((calm_endUnitSessions _ _ _ _).toQuiet.trans (quiet_setDirMark _ _))

theorem quiet_helloValid (s : State) (l : LineId) (i : Identity) (k : UnitKind) : Quiet s (helloValid s l i k) := by
  unfold helloValid
  split
  · exact quiet_helloNew _ _ _ _
  · split
    · split
      · exact (calm_offerRefuse _ _ _ _).toQuiet
      · exact (quiet_helloKind _ _ _).trans (quiet_helloMove _ _ _ _)
    · exact .ite ((quiet_helloKind _ _ _).trans (calm_offerGrant _ _).toQuiet)
        ((quiet_helloKind _ _ _).trans (quiet_helloRestart _ _))

theorem quiet_armSupervision (s : State) (e : EntryId) : Quiet s (armSupervision s e) :=
  .ite (.refl s) (quiet_modDir _ _ _)

theorem quiet_heardEntry (s : State) (e : EntryId) : Quiet s (heardEntry s e) := by
  unfold heardEntry
  simp only
  refine Quiet.trans ?_ (quiet_armSupervision _ _)
  split
  · exact ((quiet_modDir _ _ _).trans (quiet_modDir _ _ _)).trans (quiet_setDirMark _ _)
  · exact ((quiet_modDir _ _ _).trans (quiet_modDir _ _ _)).trans (quiet_setDirMark _ _)
  · exact quiet_modDir _ _ _

theorem quiet_heard (s : State) (l : LineId) (a : Addr) : Quiet s (heard s l a) := by
  unfold heard
  split
  · exact .refl s
  · exact quiet_heardEntry _ _

theorem quiet_statusCondition (s : State) (l : LineId) (e : EntryId) (k : UnitKind) (c : Condition) :
    Quiet s (statusCondition s l e k c) :=
  .ite (calm_countLine _ _ _).toQuiet (.ite (.refl s) ((quiet_modDir _ _ _).trans (quiet_setDirMark _ _)))

theorem quiet_strayFrame (s : State) (l : LineId) (a : Addr) : Quiet s (strayFrame s l a) :=
  ((calm_countLine _ _ _).trans (calm_offerStrayWho _ _ _)).toQuiet

theorem quiet_grantFails (s : State) (e : EntryId) : Quiet s (grantFails s e) := by
  unfold grantFails
  exact ((quiet_releaseAddress s e).trans (.ite (quiet_modDir _ _ _) ((quiet_unbindEntry _ _).trans (quiet_modDir _ _ _)))).trans
    (quiet_setDirMark _ _)

theorem quiet_grantExpires (s : State) (e : EntryId) : Quiet s (grantExpires s e) := by
  unfold grantExpires
  simp only
  split
  · exact (((quiet_modDir _ _ _).trans (quiet_modDir _ _ _)).trans (calm_offerGrant _ _).toQuiet).trans (quiet_modDir _ _ _)
  · exact (quiet_modDir _ _ _).trans (quiet_grantFails _ _)

theorem quiet_entryLost (s : State) (e : EntryId) : Quiet s (entryLost s e) := by
  unfold entryLost
  exact (((quiet_modDir _ _ _).trans (quiet_releaseAddress _ _)).trans (calm_endUnitSessions _ _ _ _).toQuiet).trans
    (quiet_setDirMark _ _)

theorem quiet_suspendEntry (s : State) (l : LineId) (e : EntryId) : Quiet s (suspendEntry s l e) := by
  unfold suspendEntry
  simp only
  split
  · exact .ite (quiet_modDir _ _ _) ((quiet_modDir _ _ _).trans (quiet_setDirMark _ _))
  · exact .refl s

theorem calm_releaseReception (s : State) (l : LineId) : Calm s (releaseReception s l) := by
  unfold releaseReception
  split
  · split
    · exact calm_dropRef _ _
    · exact .refl s
  · exact .refl s

theorem calm_dropReception (s : State) (l : LineId) : Calm s (dropReception s l) :=
  (calm_releaseReception _ _).trans (calm_modLine _ _ _)

theorem calm_cutTransmission (s : State) (l : LineId) : Calm s (cutTransmission s l) := by
  unfold cutTransmission
  refine Calm.trans ?_ (calm_modLine _ _ _)
  split
  · exact calm_dropRef _ _
  · exact .refl s

theorem quiet_enterStopped (s : State) (l : LineId) : Quiet s (enterStopped s l) := by
  unfold enterStopped
  simp only
  refine Quiet.trans ?_ (calm_setLineMark _ _).toQuiet
  refine Quiet.trans ?_ (Quiet.foldl (fun t p => .ite (calm_cardLineStopped t p).toQuiet (.refl t)) _ _)
  refine Quiet.trans ?_ (Quiet.foldl (fun t p => .ite (calm_abortSession t p _).toQuiet (.refl t)) _ _)
  refine Quiet.trans ?_ (Quiet.foldl (fun t e => quiet_suspendEntry t l e) _ _)
  exact ((((calm_cutTransmission s l).trans (calm_dropReception _ _)).trans (calm_modLine _ _ _)).trans
    ((calm_endEntries _ _ _ _).trans (calm_modLine _ _ _))).toQuiet

/-! ## Dispatch -/

theorem quiet_countHit (s : State) (m : Option EntryId) : Quiet s (countHit s m) := by
  unfold countHit
  split
  · exact .refl s
  · exact quiet_hits _ _

theorem calm_witnessCopy (s : State) (q : Cls) (r : RecId) (e : EntryId) (k : FrameKind) : Calm s (witnessCopy s q r e k) := by
  unfold witnessCopy
  have h := calm_addRef s r
  split <;> rename_i heq <;> rw [heq] at h <;> dsimp only at h ⊢
  · exact h
  · exact h.trans (calm_pushW _ _ _)

theorem calm_keyFrame (s : State) (p : Pos) (r : RecId) (e : EntryId) (v : Disposal) : Calm s (keyFrame s p r e v) := by
  unfold keyFrame
  split
  · simp only
    exact Calm.trans (Calm.trans (.ite (calm_witnessCopy _ _ _ _ _) (.refl s)) (calm_takeKeys _ _ _ _ _ _))
      (calm_dropRef _ _)
  · exact .ite ((calm_guardKeys _ _ _ _).trans (calm_dropRef _ _)) (.ite (calm_dropRef _ _) (calm_pushW _ _ _))

theorem calm_classify (s : State) (r : RecId) (e : EntryId) (k : FrameKind) (v : Disposal) : Calm s (classify s r e k v) := by
  unfold classify
  split
  · exact calm_pushW _ _ _
  · refine .ite (calm_keyFrame _ _ _ _ _) ?_
    have h : Calm s (if v.witness then witnessCopy s 1 r e k else s) := .ite (calm_witnessCopy _ _ _ _ _) (.refl s)
    exact .ite (h.trans (calm_trackFrame _ _ _ _)) (h.trans (calm_cardMoveFrame _ _ _))

theorem quiet_handOver (s : State) (r : RecId) (e : EntryId) (l : LineId) (k : FrameKind) : Quiet s (handOver s r e l k) := by
  unfold handOver
  simp only
  have h := (quiet_countHit s (sourceMatch s e l)).trans (quiet_countHit _ (kindMatch s (screenKindOf k)))
  exact .ite (h.trans (calm_dropRef _ _).toQuiet) (h.trans (calm_classify _ _ _ _ _).toQuiet)

/-! ## Line Engine -/

theorem calm_offerAck (s : State) (l : LineId) (a : PendingAck) : Calm s (offerAck s l a) := calm_modLine _ _ _

theorem calm_setRx (s : State) (l : LineId) (rx : Rx) : Calm s (setRx s l rx) := calm_modLine _ _ _

theorem quiet_ackFrame (s : State) (l : LineId) (a : Addr) (b : Bool) (body : List Byte) : Quiet s (ackFrame s l a b body) := by
  unfold ackFrame
  refine Quiet.trans ?_ (quiet_heard _ _ _)
  split
  · exact (calm_countLine _ _ _).toQuiet
  · refine .ite (calm_countLine _ _ _).toQuiet ?_
    split
    · exact .ite (calm_endEntry _ _ _ _).toQuiet (.ite (calm_endEntry _ _ _ _).toQuiet (calm_countLine _ _ _).toQuiet)
    · exact (calm_countLine _ _ _).toQuiet

theorem quiet_helloFrame (s : State) (l : LineId) (a : Addr) (body : List Byte) : Quiet s (helloFrame s l a body) := by
  unfold helloFrame
  refine .ite (calm_countLine _ _ _).toQuiet ?_
  split
  · exact (calm_countLine _ _ _).toQuiet
  · exact .ite (quiet_helloValid _ _ _ _) (calm_countLine _ _ _).toQuiet

theorem quiet_statusFrame (s : State) (l : LineId) (a : Addr) (body : List Byte) : Quiet s (statusFrame s l a body) := by
  unfold statusFrame
  split
  · exact (calm_countLine _ _ _).toQuiet
  · split
    · exact quiet_strayFrame _ _ _
    · simp only
      have h := fun k c e => (quiet_heardEntry s e).trans (quiet_statusCondition _ l e k c)
      split
      · exact (h _ _ _).trans (calm_cardStatusReport _ _ _).toQuiet
      · exact h _ _ _

theorem quiet_eventFrame (s : State) (l : LineId) (a : Addr) (b : Bool) (k : FrameKind) (e : EntryId) (r : Option RecId) :
    Quiet s (eventFrame s l a b k e r) := by
  unfold eventFrame
  simp only
  have hd : ∀ t : State, Calm t (match r with
      | none => t
      | some r => dropRef t r) := fun t => by
    split
    · exact .refl t
    · exact calm_dropRef _ _
  have h := quiet_heard s l a
  refine .ite ((h.trans (hd _).toQuiet).trans (quiet_strayFrame _ _ _)) (.ite ((h.trans (hd _).toQuiet).trans
    (calm_offerAck _ _ _).toQuiet) ?_)
  split
  · exact h.trans ((calm_offerAck _ _ _).trans (calm_countLine _ _ _)).toQuiet
  · exact ((h.trans (calm_modPool (.step (.stored _ _))).toQuiet).trans (quiet_modDir _ _ _)).trans
      ((calm_offerAck _ _ _).toQuiet.trans (quiet_handOver _ _ _ _ _))

theorem calm_placeBody (s : State) (l : LineId) (f : RxFrame) (n : Nat) : Calm s (placeBody s l f n).1 := by
  unfold placeBody
  split
  · exact .refl s
  · split
    · exact .refl s
    · split
      · exact .refl s
      · exact .refl s
      · split
        · exact .refl s
        · rename_i k _ _ _ _ _
          split
          · exact .refl s
          · rename_i e _
            have h := calm_admit s (frameAdmission f k e l n) (by simp [frameAdmission])
            split <;> rename_i heq <;> rw [heq] at h <;> exact h

theorem calm_takeLength (s : State) (l : LineId) (f : RxFrame) (n : Nat) : Calm s (takeLength s l f n) := by
  unfold takeLength
  exact .ite ((calm_countLine _ _ _).trans (calm_setRx _ _ _)) ((calm_placeBody s l f n).trans (calm_setRx _ _ _))

theorem calm_takeBody (s : State) (l : LineId) (f : RxFrame) (b : Byte) (n : Nat) : Calm s (takeBody s l f b n) := by
  unfold takeBody
  refine Calm.trans ?_ (calm_setRx _ _ _)
  split
  · exact calm_modPool (.step (.append _ _ _))
  · exact .refl s

theorem quiet_settleGood (s : State) (l : LineId) (f : RxFrame) : Quiet s (settleGood s l f) := by
  unfold settleGood
  refine .ite (calm_countLine _ _ _).toQuiet ?_
  split
  · exact (calm_countLine _ _ _).toQuiet
  · exact quiet_ackFrame _ _ _ _ _
  · refine .ite (.refl s) ?_
    split
    · exact quiet_helloFrame _ _ _ _
    · exact quiet_statusFrame _ _ _ _
    · exact quiet_strayFrame _ _ _
    · exact quiet_eventFrame _ _ _ _ _ _ _
    · exact quiet_eventFrame _ _ _ _ _ _ _
    · exact .refl s

theorem quiet_takeCheck (s : State) (l : LineId) (f : RxFrame) : Quiet s (takeCheck s l f) := by
  unfold takeCheck
  have h : Calm s (if f.sum ≠ 0 then countLine s l LineCounters.addCheck else s) := .ite (calm_countLine _ _ _) (.refl s)
  exact .ite (h.trans (calm_dropReception _ _)).toQuiet ((h.trans (calm_setRx _ _ _)).toQuiet.trans (quiet_settleGood _ _ _))

theorem calm_startFrame (s : State) (l : LineId) (b : Byte) (bad : Bool) (t : Ms) (d : Bool) :
    Calm s (startFrame s l b bad t d) := calm_setRx _ _ _

theorem quiet_assemble (s : State) (l : LineId) (t : Ms) (b : Byte) (bad : Bool) : Quiet s (assemble s l t b bad) := by
  unfold assemble
  split
  · exact (calm_startFrame _ _ _ _ _ _).toQuiet
  · exact (calm_startFrame _ _ _ _ _ _).toQuiet
  · exact .refl s
  · simp only
    split
    · exact (calm_setRx _ _ _).toQuiet
    · exact (calm_takeLength _ _ _ _).toQuiet
    · exact (calm_takeBody _ _ _ _ _).toQuiet
    · exact quiet_takeCheck _ _ _

theorem calm_abandonFrame (s : State) (l : LineId) : Calm s (abandonFrame s l) := by
  unfold abandonFrame
  split
  · exact .refl s
  · exact calm_dropReception _ _

theorem calm_falseStarts (s : State) (l : LineId) : Calm s (falseStarts s l) := (calm_modLine _ _ _).trans (calm_countLine _ _ _)

theorem quiet_receiveChar (s : State) (l : LineId) (t : Ms) (c : RawChar) : Quiet s (receiveChar s l t c) := by
  unfold receiveChar
  refine .ite (calm_falseStarts s l).toQuiet ?_
  have h0 := calm_modLine s l fun ln => { ln with idle := false }
  have h1 := fun (b : Bool) t u => Calm.ite (c := b = true) (calm_countLine t l u) (.refl t)
  refine Quiet.trans ((h0.trans (h1 (charNoisy c) _ LineCounters.addNoisy)).trans
    (h1 (charParityError c) _ LineCounters.addParity)).toQuiet ?_
  exact .ite ((calm_countLine _ _ _).trans (calm_abandonFrame _ _)).toQuiet (quiet_assemble _ _ _ _ _)

theorem calm_lineChoose (s : State) (l : LineId) : Calm s (lineChoose s l) := by
  unfold lineChoose
  refine .ite (.refl s) ?_
  split
  · exact calm_modLine _ _ _
  · exact calm_modLine _ _ _
  · split
    · unfold beginEntry
      exact calm_modLine _ _ _
    · exact .refl s
  · exact .refl s

theorem calm_entrySent (s : State) (l : LineId) (q : QEntry) : Calm s (entrySent s l q) :=
  .ite (calm_modLine _ _ _) (calm_endEntry _ _ _ _)

theorem calm_transmissionDone (s : State) (l : LineId) : Calm s (transmissionDone s l) := by
  unfold transmissionDone
  split
  · exact .refl s
  · simp only
    split
    · exact (calm_modLine _ _ _).trans (calm_modLine _ _ _)
    · exact (calm_modLine _ _ _).trans (calm_dropRef _ _)
    · split
      · exact calm_modLine _ _ _
      · exact (calm_modLine _ _ _).trans (calm_entrySent _ _ _)

theorem calm_countAttempt (s : State) (l : LineId) (q : QEntry) (f : QEntry → QEntry) : Calm s (countAttempt s l q f) :=
  .ite (calm_endEntry _ _ _ _) (calm_modLine _ _ _)

theorem calm_bitErrorAt (s : State) (l : LineId) : Calm s (bitErrorAt s l) := by
  unfold bitErrorAt
  simp only
  have h := (calm_cutTransmission s l).trans (calm_countLine _ l LineCounters.addBitError)
  split
  · exact h
  · exact h.trans (calm_countAttempt _ _ _ _)

theorem calm_arbitrationLost (s : State) (l : LineId) (t : Tx) : Calm s (arbitrationLost s l t) :=
  (((calm_cutTransmission s l).trans (calm_dropReception _ _)).trans (calm_countLine _ _ _)).trans (calm_setRx _ _ _)

theorem calm_ackExpires (s : State) (l : LineId) (q : QEntry) : Calm s (ackExpires s l q) := by
  unfold ackExpires
  split
  · exact calm_endEntry _ _ _ _
  · exact calm_endEntry _ _ _ _
  · exact calm_countAttempt _ _ _ _

theorem quiet_drainLine (s : State) (l : LineId) : Quiet s (drainLine s l) := .ite (quiet_enterStopped _ _) (.refl s)

theorem quiet_settleLines (s : State) : Quiet s (settleLines s) :=
  (Quiet.foldl (fun t l => quiet_drainLine t l) _ _).trans (Quiet.foldl (fun t l => (calm_lineChoose t l).toQuiet) _ _)

/-! ## Starting a line, UNIT_SEND, CARD_RESEND -/

theorem quiet_startLine (s : State) (l : LineId) : Quiet s (startLine s l) :=
  ((calm_modLine _ _ _).trans (calm_offerGeneralWho _ _)).toQuiet.trans
    (Quiet.foldl (fun t _ => .ite (quiet_modDir t _ _) (.refl t)) _ _)

theorem calm_placeCopy (sd b : RecId) (s : State) (t : Target) : Calm s (placeCopy sd b s t) :=
  .ite (calm_copyOutcome _ _ _ _) (calm_modLine _ _ _)

theorem calm_resendTracks (s : State) (p : Pos) : Calm s (resendTracks s p) := by
  unfold resendTracks
  refine Calm.foldl (fun t r => ?_) _ _
  split
  · exact calm_trackNotice _ _ _ _ _
  · exact .refl t

end Sys2Proof.Machine
end

