-- ==== Sys2Proof/Laws/Link.lean ====
section
/-! SUPPORT. What the link transmitter, the receiver, the handling of a request and a reset can do; and the inversion of a
command's change of the pool. -/

namespace Sys2Proof.Machine

/-! ## The link transmitter's choice (R106) -/

/-- The end of an event at the link: nothing, or one reply, state notice or notice is begun. -/
theorem settleLink_cases (s : State) :
    settleLink s = s ∨
      (s.link.tx = none ∧ s.pausePin = false ∧
        ((∃ i, oldestReply s.link = some i ∧ settleLink s = sendReply s i) ∨
          (oldestReply s.link = none ∧ ∃ m, firstMark s = some m ∧ settleLink s = sendMark s m) ∨
          (oldestReply s.link = none ∧ firstMark s = none ∧ ∃ q, noticeChoice s = some q ∧ settleLink s = sendNotice s q))) := by
  unfold settleLink
  split
  · exact .inl rfl
  · rename_i h
    simp only [Bool.or_eq_true, not_or, Bool.not_eq_true, Option.isSome_eq_false_iff, Option.isNone_iff_eq_none] at h
    split
    · exact .inr ⟨h.1, h.2, .inl ⟨_, by assumption, rfl⟩⟩
    · split
      · exact .inr ⟨h.1, h.2, .inr (.inl ⟨by assumption, _, by assumption, rfl⟩)⟩
      · split
        · exact .inr ⟨h.1, h.2, .inr (.inr ⟨by assumption, by assumption, _, by assumption, rfl⟩)⟩
        · exact .inl rfl

/-- The transmitter changes marks, the workstation queues and the link only. -/
structure Sends (s t : State) : Prop where
  pending : t.pending = s.pending
  oracle : t.oracle = s.oracle
  running : t.running = s.running
  resetPin : t.resetPin = s.resetPin
  pausePin : t.pausePin = s.pausePin
  straps : t.straps = s.straps
  resetCause : t.resetCause = s.resetCause
  profileOutcome : t.profileOutcome = s.profileOutcome
  linkRate : t.linkRate = s.linkRate
  pool : t.pool = s.pool
  fanouts : t.fanouts = s.fanouts
  hits : t.hits = s.hits
  entry : t.entry = s.entry
  profile : t.profile = s.profile
  store : t.store = s.store
  time : t.time = { s.time with mark := t.time.mark }
  dir : ∀ e : EntryId, t.dir[e] = { s.dir[e] with mark := t.dir[e].mark }
  lines : ∀ l : LineId, t.lines[l] = { s.lines[l] with mark := t.lines[l].mark }
  card : ∀ p : Pos, t.card[p] = { s.card[p] with mark := t.card[p].mark }

theorem Sends.refl (s : State) : Sends s s :=
  ⟨rfl, rfl, rfl, rfl, rfl, rfl, rfl, rfl, rfl, rfl, rfl, rfl, rfl, rfl, rfl, rfl, fun _ => rfl, fun _ => rfl, fun _ => rfl⟩

theorem sends_modLink (s : State) (f : Link → Link) : Sends s (s.modLink f) :=
  ⟨rfl, rfl, rfl, rfl, rfl, rfl, rfl, rfl, rfl, rfl, rfl, rfl, rfl, rfl, rfl, rfl, fun _ => rfl, fun _ => rfl, fun _ => rfl⟩

theorem Sends.trans {s t u : State} (h : Sends s t) (k : Sends t u) : Sends s u :=
  ⟨k.pending.trans h.pending, k.oracle.trans h.oracle, k.running.trans h.running, k.resetPin.trans h.resetPin,
   k.pausePin.trans h.pausePin, k.straps.trans h.straps, k.resetCause.trans h.resetCause,
   k.profileOutcome.trans h.profileOutcome, k.linkRate.trans h.linkRate, k.pool.trans h.pool, k.fanouts.trans h.fanouts,
   k.hits.trans h.hits, k.entry.trans h.entry, k.profile.trans h.profile, k.store.trans h.store,
   by rw [k.time, h.time], fun e => by rw [k.dir e, h.dir e], fun l => by rw [k.lines l, h.lines l],
   fun p => by rw [k.card p, h.card p]⟩

theorem sends_clearMark (s : State) (m : MarkItem) : Sends s (clearMark s m) := by
  cases m with
  | unit e =>
    refine ⟨rfl, rfl, rfl, rfl, rfl, rfl, rfl, rfl, rfl, rfl, rfl, rfl, rfl, rfl, rfl, rfl, fun e' => ?_, fun _ => rfl,
      fun _ => rfl⟩
    unfold clearMark
    simp only [State.modDir_get]
    split <;> rfl
  | line l =>
    refine ⟨rfl, rfl, rfl, rfl, rfl, rfl, rfl, rfl, rfl, rfl, rfl, rfl, rfl, rfl, rfl, rfl, fun _ => rfl, fun l' => ?_,
      fun _ => rfl⟩
    unfold clearMark
    simp only [State.modLine_get]
    split <;> rfl
  | card p =>
    refine ⟨rfl, rfl, rfl, rfl, rfl, rfl, rfl, rfl, rfl, rfl, rfl, rfl, rfl, rfl, rfl, rfl, fun _ => rfl, fun _ => rfl,
      fun p' => ?_⟩
    unfold clearMark
    simp only [State.modCard_get]
    split <;> rfl
  | attendance =>
    exact ⟨rfl, rfl, rfl, rfl, rfl, rfl, rfl, rfl, rfl, rfl, rfl, rfl, rfl, rfl, rfl, rfl, fun _ => rfl, fun _ => rfl,
      fun _ => rfl⟩

theorem sends_dropHead (s : State) (q : Cls) : Sends s (dropHead s q) := by
  unfold dropHead
  split <;>
    exact ⟨rfl, rfl, rfl, rfl, rfl, rfl, rfl, rfl, rfl, rfl, rfl, rfl, rfl, rfl, rfl, rfl, fun _ => rfl, fun _ => rfl,
      fun _ => rfl⟩

theorem sends_sendReply (s : State) (i : SlotId) : Sends s (sendReply s i) := sends_modLink _ _

theorem sends_sendMark (s : State) (m : MarkItem) : Sends s (sendMark s m) :=
  (sends_clearMark s m).trans (sends_modLink _ _)

theorem sends_sendNotice (s : State) (q : Cls) : Sends s (sendNotice s q) := by
  unfold sendNotice
  split
  · exact .refl s
  · exact (sends_dropHead s q).trans (sends_modLink _ _)

theorem sends_settleLink (s : State) : Sends s (settleLink s) := by
  rcases settleLink_cases s with h | ⟨-, -, ⟨i, -, h⟩ | ⟨-, m, -, h⟩ | ⟨-, -, q, -, h⟩⟩ <;> rw [h]
  · exact .refl s
  · exact sends_sendReply s i
  · exact sends_sendMark s m
  · exact sends_sendNotice s q

/-! ## The handling of a request (R175) -/

/-- A handling does nothing, or handles the request in turn by its rule and finishes its reply. -/
theorem handle_cases (s : State) (sel : Slot → Bool) (rule : State → Slot → State × Answer) (fin : State → State) :
    handle s sel rule fin = s ∨
      ∃ i, currentSlot s = some i ∧ sel s.link.slots[i] = true ∧
        handle s sel rule fin = fin (finishReply (rule s s.link.slots[i]).1 i (rule s s.link.slots[i]).2) := by
  unfold handle
  split
  · exact .inl rfl
  · split
    · exact .inr ⟨_, by assumption, by assumption, rfl⟩
    · exact .inl rfl

/-- The handling of the request in turn. -/
theorem handle_eq {s : State} {sel : Slot → Bool} {rule : State → Slot → State × Answer} {fin : State → State} {i : SlotId}
    (hi : currentSlot s = some i) (hs : sel s.link.slots[i] = true) :
    handle s sel rule fin = fin (finishReply (rule s s.link.slots[i]).1 i (rule s s.link.slots[i]).2) := by
  unfold handle
  rw [hi]
  exact if_pos hs

/-! ## Pools: what each part of a command can do to them -/

/-- The pool changed by elementary changes. -/
abbrev poolMoves (s t : State) : Prop := PoolPath s.pool t.pool

theorem settleLink_pool (s : State) : (settleLink s).pool = s.pool := (sends_settleLink s).pool

theorem poolMoves_settle (s : State) : poolMoves s (settle s) := by
  unfold settle poolMoves
  rw [settleLink_pool]
  exact (quiet_settleLines s).pool

theorem finishReply_pool (s : State) (i : SlotId) (a : Answer) : (finishReply s i a).pool = s.pool := rfl

/-- A handling moves the pool as its rule does. -/
theorem poolMoves_handle {s : State} {sel : Slot → Bool} {rule : State → Slot → State × Answer} {fin : State → State}
    (hr : ∀ sl, poolMoves s (rule s sl).1) (hf : ∀ t, poolMoves t (fin t)) : poolMoves s (handle s sel rule fin) := by
  rcases handle_cases s sel rule fin with h | ⟨i, -, -, h⟩ <;> rw [h]
  exact Relation.ReflTransGen.trans (hr s.link.slots[i]) (hf (finishReply _ _ _))

theorem poolMoves_settleLink (s : State) : poolMoves s (settleLink s) := by
  unfold poolMoves
  rw [settleLink_pool]

theorem quiet_bindUnit (s : State) (e : EntryId) (p : Pos) : Quiet s (bindUnit s e p) := by
  unfold bindUnit
  exact ((Quiet.ite ((quiet_unbindEntry _ _).trans (calm_endUnitSessions _ _ _ _).toQuiet) (.refl s)).trans
    (quiet_bindEntry _ _ _ _)).trans (quiet_setDirMark _ _)

theorem quiet_unitForgetRule (s : State) (e : EntryId) : Quiet s (unitForgetRule s e).1 := by
  unfold unitForgetRule
  exact (((Quiet.ite (quiet_releaseAddress _ _) (.refl s)).trans (Quiet.ite
    ((calm_endUnitSessions _ _ _ _).toQuiet.trans (quiet_unbindEntry _ _)) (.refl _))).trans (quiet_modDir _ _ _)).trans
    (quiet_setDirMark _ _)

theorem quiet_unitUnbindRule (s : State) (e : EntryId) : Quiet s (unitUnbindRule s e).1 := by
  unfold unitUnbindRule
  split
  · exact .refl s
  · exact ((quiet_unbindEntry _ _).trans (calm_endUnitSessions _ _ _ _).toQuiet).trans (quiet_setDirMark _ _)

theorem quiet_unitBindRule (s : State) (sl : Slot) : Quiet s (unitBindRule s sl).1 := by
  unfold unitBindRule
  split_ifs
  · exact .refl s
  · split
    · exact .refl s
    · split
      · exact .refl s
      · split
        · split_ifs <;> exact .refl s
        · exact quiet_bindUnit _ _ _

theorem quiet_identityBody {rule : State → EntryId → State × Answer} {s : State} (h : ∀ e, Quiet s (rule s e).1) (sl : Slot) :
    Quiet s (identityBody rule s sl).1 := by
  unfold identityBody
  split_ifs
  · exact .refl s
  · split
    · exact .refl s
    · exact h _

theorem quiet_positionBody {rule : State → Pos → Slot → State × Answer} {s : State} (h : ∀ p sl, Quiet s (rule s p sl).1)
    (sl : Slot) : Quiet s (positionBody rule s sl).1 := by
  unfold positionBody
  split_ifs
  · exact .refl s
  · split
    · exact .refl s
    · exact h _ _

theorem quiet_lineStartRule (s : State) (sl : Slot) : Quiet s (lineStartRule s sl).1 := by
  unfold lineStartRule
  split
  · split
    · exact .refl s
    · split_ifs
      · exact .refl s
      · exact (quiet_startLine _ _).trans (calm_setLineMark _ _).toQuiet
  · exact .refl s

theorem quiet_lineStopRule (h : Option Ms) (s : State) (sl : Slot) : Quiet s (lineStopRule h s sl).1 := by
  unfold lineStopRule
  split
  · split
    · exact .refl s
    · split_ifs
      · unfold drainState
        split
        · exact ((calm_modLine _ _ _).trans (calm_setLineMark _ _)).toQuiet
        · exact ((calm_modLine _ _ _).trans (calm_setLineMark _ _)).toQuiet
        · exact .refl s
      · unfold forceState
        split
        · exact .refl s
        · exact quiet_enterStopped _ _
      · exact .refl s
  · exact .refl s

theorem quiet_lineStatusRule (s : State) (sl : Slot) : Quiet s (lineStatusRule s sl).1 := by
  unfold lineStatusRule
  split
  · split
    · exact .refl s
    · split_ifs
      · exact .refl s
      · exact (calm_countLine s _ fun _ => zeroCounters).toQuiet
      · exact .refl s
  · exact .refl s

theorem quiet_poolStatusRule (s : State) (sl : Slot) : Quiet s (poolStatusRule s sl).1 := by
  unfold poolStatusRule
  split
  · split_ifs
    · exact .refl s
    · exact (calm_modPool (.step (.clear _))).toQuiet
    · exact .refl s
  · exact .refl s

theorem slotsNamed_length (m r : Byte) : (slotsNamed m r).length ≤ 16 := by
  unfold slotsNamed allPos
  simp only [List.flatMap_cons, List.flatMap_nil, List.append_nil, List.length_append]
  have h : ∀ p : Pos, (if m.getLsbD p.val = true then
      (if r.getLsbD 0 = true then [(UnitKind.reader, p)] else []) ++ (if r.getLsbD 1 = true then [(UnitKind.keypad, p)] else [])
      else []).length ≤ 2 := fun p => by split_ifs <;> simp
  have h0 := h 0; have h1 := h 1; have h2 := h 2; have h3 := h 3
  have h4 := h 4; have h5 := h 5; have h6 := h 6; have h7 := h 7
  omega

theorem resolveTargets_length (s : State) (m r : Byte) (i : Identity) : (resolveTargets s m r i).length ≤ 16 := by
  unfold resolveTargets
  split_ifs
  · exact (List.length_filter_le _ _).trans ((List.length_filterMap_le _ _).trans (slotsNamed_length m r))
  · split
    · simp
    · split_ifs <;> simp

theorem calm_spreadBody (s : State) (b : RecId) {n : Nat} (h : n ≤ Config.maxRefs) : Calm s (spreadBody s b n) := by
  unfold spreadBody
  split_ifs
  · exact calm_dropRef _ _
  · exact calm_modPool (.step (.spread _ _ _ h))

theorem calm_fanOut (s : State) (sd b : RecId) (tag : Byte) (ts : List EntryId) (h : ts.length ≤ 16) :
    Calm s (fanOut s sd b tag ts) := by
  unfold fanOut
  refine Calm.trans ((calm_fanouts s _).trans (calm_spreadBody _ b ?_)) (Calm.foldl (fun t x => calm_placeCopy sd b t x) _ _)
  refine (List.length_filter_le _ _).trans ?_
  rw [List.length_map]
  exact h.trans (by decide)

theorem quiet_unitSendRule (s : State) (sl : Slot) : Quiet s (unitSendRule s sl).1 := by
  unfold unitSendRule
  simp only
  split
  · exact .refl s
  · split
    · exact .refl s
    · rename_i u c _
      split
      · exact .refl s
      · have hl := resolveTargets_length s (byteAt sl.body 0) (byteAt sl.body 1) (identityAt sl.body 2)
        split
        · exact .refl s
        · rename_i t ts heq
          rw [heq] at hl
          unfold sendTo
          have h := calm_reserve s .sendDone sl.tag
          split <;> rename_i h1 <;> rw [h1] at h <;> dsimp only at h ⊢
          · exact h.toQuiet
          · rename_i s1 sd
            have k := h.trans (calm_admit s1 (sendAdmission s1 sl.tag u c (sl.body.drop 10).length) (by simp [sendAdmission]))
            split <;> rename_i h2 <;> rw [h2] at k <;> dsimp only at k ⊢
            · exact (k.trans (calm_dropRef _ _)).toQuiet
            · exact (k.trans ((calm_setBody _ _ _).trans (calm_fanOut _ _ _ _ _ hl))).toQuiet

theorem calm_openSession (s : State) (p : Pos) (ss : Session) : Calm s (openSession s p ss) :=
  (calm_modEntry _ _ _).trans (calm_displayUpdate _ _ _ _)

theorem quiet_entryOpenRule (s : State) (sl : Slot) : Quiet s (entryOpenRule s sl).1 := by
  unfold entryOpenRule
  simp only
  split
  · exact .refl s
  · split
    · exact .refl s
    · split
      · exact .refl s
      · split
        · exact .refl s
        · split
          · exact .refl s
          · split
            · exact .refl s
            · split
              · exact .refl s
              · have h := calm_reserve s .entryResult sl.tag
                split <;> rename_i h1 <;> rw [h1] at h <;> dsimp only at h ⊢
                · exact h.toQuiet
                · exact (h.trans (calm_openSession _ _ _)).toQuiet

theorem quiet_entryCancelRule (s : State) (p : Pos) (sl : Slot) : Quiet s (entryCancelRule s p sl).1 := by
  unfold entryCancelRule
  split_ifs
  · exact .refl s
  · exact (calm_abortSession _ _ _).toQuiet

theorem quiet_readFor (s : State) (p : Pos) (m : BitVec 3) (n : Nat) (tag : Byte) : Quiet s (readFor s p m n tag).1 := by
  unfold readFor
  have h := calm_reserve s .readDone tag
  simp only
  split <;> rename_i h1 <;> rw [h1] at h <;> dsimp only at h ⊢
  · exact h.toQuiet
  · rename_i s1 pr
    have k := h.trans (calm_offerCommand s1 p .read m)
    split <;> rename_i h2 <;> rw [h2] at k <;> dsimp only at k ⊢
    · exact (k.trans (calm_startRead _ _ _ _ _ _ _ _)).toQuiet
    · exact (k.trans (calm_dropRef _ _)).toQuiet

theorem quiet_cardReadRule (s : State) (sl : Slot) : Quiet s (cardReadRule s sl).1 := by
  unfold cardReadRule
  split
  · split
    · exact .refl s
    · split_ifs
      · exact .refl s
      · exact .refl s
      · exact quiet_readFor _ _ _ _ _
  · exact .refl s

theorem quiet_cardResendRule (s : State) (p : Pos) (sl : Slot) : Quiet s (cardResendRule s p sl).1 := by
  unfold cardResendRule
  split
  · exact .refl s
  · split
    · exact (calm_modPool (s := s) (f := fun pl => { pl with refLimit := satInc Config.count16 pl.refLimit })
        (.step (.limit _))).toQuiet
    · have h := calm_reserve s .readDone sl.tag
      split <;> rename_i h1 <;> rw [h1] at h <;> dsimp only at h ⊢
      · exact h.toQuiet
      · dsimp only [done]
        exact (h.trans ((calm_resendTracks _ _).trans (calm_completePromise _ _ _ _ _ _))).toQuiet

theorem quiet_commandFor (s : State) (p : Pos) (cmd : CardCommand) (st : CardState) : Quiet s (commandFor s p cmd st).1 := by
  unfold commandFor
  have h := calm_offerCommand s p cmd 0
  split <;> rename_i h1 <;> rw [h1] at h <;> dsimp only at h ⊢
  · unfold moveCard
    exact (h.trans (Calm.trans (.ite (calm_readEnd _ _ _ _ _) (.refl _)) (calm_cardEnter _ _ _ _ _ _))).toQuiet
  · exact h.toQuiet

theorem quiet_cardEjectRule (s : State) (p : Pos) (sl : Slot) : Quiet s (cardEjectRule s p sl).1 := by
  unfold cardEjectRule
  split_ifs
  · exact .refl s
  · exact quiet_commandFor _ _ _ _

theorem quiet_cardRetainRule (s : State) (p : Pos) (sl : Slot) : Quiet s (cardRetainRule s p sl).1 := by
  unfold cardRetainRule
  split_ifs
  · exact .refl s
  · exact quiet_commandFor _ _ _ _

/-! ## The receiver -/

/-- What the settling of received bytes leaves alone: all but the link and the time. -/
theorem scan_frame (bs : List Byte) (k : Nat) (s : State) :
    scan bs k s = { s with link := (scan bs k s).link, time := (scan bs k s).time } := by
  have hs : ∀ (t : State) (inner : List Byte),
      settleInner t inner = { t with link := (settleInner t inner).link, time := (settleInner t inner).time } := by
    intro t inner
    unfold settleInner settleRecord judgeRecord armAttendance setAttendance takeRequest countDropped State.modLink
    simp only
    split_ifs <;> (try split) <;> rfl
  induction bs generalizing k s with
  | nil => rfl
  | cons b bs ih =>
    cases k with
    | succ k => exact ih k s
    | zero =>
      unfold scan
      split_ifs
      · split
        · rfl
        · rw [ih]
          rfl
        · rw [ih, hs]
      · exact ih 0 s

theorem receiveByte_pool (s : State) (b : Byte) : (receiveByte s b).pool = s.pool := by
  unfold receiveByte
  rw [scan_frame]
  rfl

@[simp] theorem markSeen_link (s : State) : (markSeen s).link = { s.link with awaitMark := false } := rfl

/-- The receiver takes the byte of a character that it sees at mark, whatever it waited for before. -/
theorem linkSees_of_marked {s : State} {c : LinkChar} (h : s.linkOn = true) (hc : c.marked = true) : s.linkSees c = true := by
  simp [State.linkSees, h, hc]

theorem receiveChar10_pool (s : State) (c : LinkChar) : (receiveChar10 s c).pool = s.pool := receiveByte_pool _ _

theorem framingEnds_pool (s : State) : (framingEnds s).pool = s.pool := by
  unfold framingEnds abandonRecord
  split <;> rfl

/-- Bytes that are skipped have no effect. -/
theorem scan_skip (bs : List Byte) (n : Nat) (s : State) : scan bs n s = scan (bs.drop n) 0 s := by
  induction bs generalizing n with
  | nil => cases n <;> rfl
  | cons b bs ih =>
    cases n with
    | zero => rfl
    | succ n => exact ih n

/-- R169: in HUNTING a byte other than the lead is passed over. -/
theorem scan_noLead (before bs : List Byte) (s : State) (h : (0xC3 : Byte) ∉ before) :
    scan (before ++ bs) 0 s = scan bs 0 s := by
  induction before with
  | nil => rfl
  | cons b before ih =>
    simp only [List.mem_cons, not_or] at h
    rw [List.cons_append, scan, if_neg (Ne.symm h.1), ih h.2]

/-- R169: `stillOpen`, `damagedBy` and a sum of 0 say what the judgement of stored bytes is. -/
theorem judge_stillOpen {inner : List Byte} (h : stillOpen inner) : judge inner = .incomplete := by
  match inner, h with
  | [], _ | [_], _ | [_, _], _ => rfl
  | _ :: _ :: n :: body, ⟨hn, hb⟩ =>
    simp only [judge]
    rw [if_neg (by change ¬ 250 < _; omega), if_pos (by omega)]

theorem judge_damagedBy {inner : List Byte} {b : Byte} (h : damagedBy inner b) (rest : List Byte) :
    judge (inner ++ b :: rest) = .damaged := by
  unfold damagedBy at h
  split at h
  · exact if_pos h
  · obtain ⟨h1, h2, h3⟩ := h
    rename_i x y n body
    simp only [List.cons_append, judge]
    rw [if_neg (by change ¬ 250 < _; omega), if_neg (by simp; omega), if_neg]
    convert h3 using 2
    simp [List.take_append, ← h2, List.take_of_length_le]
  · exact h.elim

theorem judge_wellFormed {t g n k : Byte} {body : List Byte} (hn : body.length = n.toNat ∧ n.toNat ≤ 250)
    (hk : byteSum (t :: g :: n :: body ++ [k]) = 0) (rest : List Byte) :
    judge (t :: g :: n :: (body ++ k :: rest)) = .wellFormed (body.length + 4) := by
  simp only [judge]
  rw [if_neg (by change ¬ 250 < _; omega), if_neg (by simp; omega), if_pos, hn.1]
  convert hk using 1
  simp [List.take_append, ← hn.1, List.take_of_length_le]


/-- R172, R173: `Settled` says what the settling of a well-formed record does. -/
theorem settleInner_settled {t g n k : Byte} {body rest : List Byte} {s u : State} (hn : body.length = n.toNat)
    (h : Settled s t g body u) : settleInner s (t :: g :: n :: (body ++ k :: rest)) = u := by
  have e : settleInner s (t :: g :: n :: (body ++ k :: rest)) = settleRecord s t g body := by
    simp [settleInner, byteAt, bytesAt, ← hn]
  rw [e]
  have ha : armAttendance (if s.time.attended then s else setAttendance s true) = { s with time := afterRecord s } := by
    cases ht : s.time.attended <;> simp [armAttendance, setAttendance, afterRecord, armSec, State.now, ht]
  simp only [settleRecord, ha, judgeRecord]
  cases h with
  | taken i ht hr hi hlow =>
    have hf : freeSlotOf s.link = some i := by
      fin_cases i <;> simp_all [freeSlotOf, allSlots, Fin.forall_fin_succ]
    simp [requestType, ht, hr, hf, takeRequest, withRequest, State.modLink]
  | dropped h =>
    have hf : (∀ i : SlotId, s.link.slots[i].state ≠ .free) → freeSlotOf s.link = none := by
      intro h'
      simpa [freeSlotOf] using fun i _ => h' i
    rcases h with h | h | h | h
    · simp [requestType, h, countDropped, State.modLink, satInc, Config.count8]
    · simp [requestType, show ¬ t.toNat ≤ 63 by omega, countDropped, State.modLink, satInc, Config.count8]
    · simp [h, countDropped, State.modLink, satInc, Config.count8]
    · simp only [hf h]
      simp [countDropped, State.modLink, satInc, Config.count8]

/-- What `Rescanned` says of stored bytes is what the receiver does with them. -/
theorem scan_of_rescanned {bs : List Byte} {s s' : State} (h : Rescanned bs s s') : scan bs 0 s = s' := by
  induction h with
  | hunting bytes s h => simpa [scan] using scan_noLead bytes [] s h
  | opened before rest s h ho =>
    rw [scan_noLead _ _ _ h, scan, if_pos rfl, judge_stillOpen ho]
    rfl
  | damaged before inner rest b s s' h hd hs ih =>
    rw [scan_noLead _ _ _ h, scan, if_pos rfl, judge_damagedBy hd]
    exact ih
  | settled before body rest t g n k s u s' h hn hk hu hs ih =>
    have hd : (t :: g :: n :: (body ++ k :: rest)).drop (body.length + 4) = rest := by simp [List.drop_append]
    rw [scan_noLead _ _ _ h, scan, if_pos rfl, judge_wellFormed hn hk, settleInner_settled hn.1 hu]
    exact (scan_skip _ _ _).trans (by rw [hd, ih])

/-! ## Reset and start-up -/

theorem poolMoves_startUp (s : State) : poolMoves s (startUp s) := by
  have ho : ∀ t, (openLink t).pool = t.pool := fun t => rfl
  have hl : ∀ t, Quiet t (startLines t) := fun t =>
    Quiet.foldl (fun t l => .ite (quiet_startLine t l) (.refl t)) _ _
  unfold startUp poolMoves
  have h := (calm_reserve (startProfile s) .start 0).pool
  split <;> rename_i h1 <;> rw [h1] at h <;> dsimp only at h ⊢
  · rw [ho]
    exact Relation.ReflTransGen.trans h (hl _).pool
  · refine Relation.ReflTransGen.trans ?_ (calm_completePromise _ _ _ _ _ _).pool
    rw [ho]
    exact Relation.ReflTransGen.trans h (hl _).pool

theorem poolMoves_restartNow (s : State) : PoolPath (resetPool s.pool.mem) (restartNow s).pool := by
  unfold restartNow
  rw [settleLink_pool]
  exact poolMoves_startUp (doReset s .restart)

end Sys2Proof.Machine
end

