-- ==== Sys2Proof/WellFormed.lean ====
section
/-! DEFINITION. Well-formed commands: operands that the event named by the row can have. Every finite operand (a line, an entry,
a position, a record, a byte) is in range by its type. -/

namespace Sys2Proof

open Sys2Proof.Machine

/-- A framing error is judged in a character whose start bit is dominant and whose stop bit is dominant (R28, R30). -/
def framingErrorOk (c : RawChar) : Bool := !charFalseStart c && charFramingError c

/-- A character handed to frame assembly: start bit dominant, stop bit recessive (R27, R28, R30). -/
def characterOk (c : RawChar) : Bool := !charFalseStart c && !charFramingError c

/-- R58, R60: an acknowledgement is awaited from an address from 1 to 14. -/
def unitAddress (a : Addr) : Bool := a != 0 && a != 15

/-- R167: a link character of LINK_BYTE_RECEIVED brings a byte or is a false start. -/
def linkByteOk (c : LinkChar) : Bool := linkFalseStart c || linkGood c

/-- The operands of the command suit its event. -/
def Instr.wf : Instr → Bool
  | .characterReceived _ _ raw .stopBit => characterOk raw
  | .falseStart _ start => bitValue start
  | .framingError _ raw => framingErrorOk raw
  | .lengthCharacter _ raw => characterOk raw
  | .unitEventDataFrame _ raw => characterOk raw
  | .hello _ raw => characterOk raw
  | .unitStatus _ raw => characterOk raw
  | .unitAck _ raw => characterOk raw
  | .lostArbitration _ bit => decide (bit ≤ 10)
  | .bitError _ chr bit => decide (chr ≤ 123) && decide (bit ≤ 10)
  | .ackTimeout _ dest => unitAddress dest
  | .recordReceived c => linkGood c
  | .recordDamaged c => linkGood c
  | .linkFramingError c => linkFramingBad c
  | .linkByteReceived c => linkByteOk c
  | .characterReceived _ _ _ .startEdge | .powerOn _ _ | .resetAsserted | .resetReleased _ | .pauseAsserted | .pauseReleased
  | .linkGapExpiry | .linkRecordSent | .unknownRequest | .identify | .deviceStatus | .restart | .timeSet
  | .timeGet | .lineStart | .lineStopDrain _ | .lineStopForce | .lineStatus | .poolStatus | .unitList | .unitInfo | .unitBind
  | .unitUnbind | .unitForget | .screenSet | .screenGet | .unitSend | .entryOpen | .entryCancel | .entryStatus | .cardRead
  | .cardResend | .cardEject | .cardRetain | .cardStatus | .profileSet | .profileGet | .profileCommit | .profileLoad
  | .verifyPasses _ | .writeLimitReached _ | .oversizeAbandonEnd _ | .characterGapExpiry _ | .lineIdle _ | .lineStuck _
  | .frameTransmitted _ | .queueLimitExpiry _ _ _ | .grantTimerExpiry _ | .silenceTimerExpiry _ | .lostTimerExpiry _
  | .firstKeyTimeout _ | .interKeyTimeout _ | .pinGuardExpiry _ | .displayRetryExpiry _ | .readTimerExpiry _
  | .takeTimerExpiry _ | .movementTimerExpiry _ | .attendanceTimerExpiry => true

end Sys2Proof
end

