-- ==== Sys2Proof/Laws/PerInstr.lean ====
section
/-! SUPPORT. A family of statements about every command as syntax: a well-formed command that carries a character carries one whose
start bit is dominant (R28), so that it is no false start. -/

namespace Sys2Proof.Laws.WellFormed

open Sys2Proof.Machine

/-- The character that a command carries. -/
def rawOf : Instr → Option RawChar
  | .characterReceived _ _ raw .stopBit => some raw
  | .framingError _ raw => some raw
  | .lengthCharacter _ raw => some raw
  | .unitEventDataFrame _ raw => some raw
  | .hello _ raw => some raw
  | .unitStatus _ raw => some raw
  | .unitAck _ raw => some raw
  | .characterReceived _ _ _ .startEdge => none
  | .powerOn _ _ | .resetAsserted | .resetReleased _ | .pauseAsserted | .pauseReleased | .recordReceived _
  | .recordDamaged _ | .linkFramingError _ | .linkGapExpiry | .linkRecordSent | .unknownRequest | .identify
  | .deviceStatus | .restart | .timeSet | .timeGet | .lineStart | .lineStopDrain _ | .lineStopForce | .lineStatus
  | .poolStatus | .unitList | .unitInfo | .unitBind | .unitUnbind | .unitForget | .screenSet | .screenGet | .unitSend
  | .entryOpen | .entryCancel | .entryStatus | .cardRead | .cardResend | .cardEject | .cardRetain | .cardStatus
  | .profileSet | .profileGet | .profileCommit | .profileLoad | .verifyPasses _ | .writeLimitReached _ | .falseStart _ _
  | .oversizeAbandonEnd _ | .characterGapExpiry _ | .lineIdle _ | .lineStuck _ | .lostArbitration _ _ | .bitError _ _ _
  | .frameTransmitted _ | .ackTimeout _ _ | .queueLimitExpiry _ _ _ | .grantTimerExpiry _ | .silenceTimerExpiry _
  | .lostTimerExpiry _ | .firstKeyTimeout _ | .interKeyTimeout _ | .pinGuardExpiry _ | .displayRetryExpiry _
  | .readTimerExpiry _ | .takeTimerExpiry _ | .movementTimerExpiry _ | .attendanceTimerExpiry | .linkByteReceived _ => none

/-- A well-formed command's character has a dominant start bit. -/
def Statement (i : Instr) : Prop := i.wf = true → ∀ c, rawOf i = some c → bitValue c.start = false

theorem of_characterOk {c d : RawChar} (h : characterOk c = true) (hd : some c = some d) : bitValue d.start = false := by
  cases hd
  unfold characterOk charFalseStart at h
  simp only [Bool.and_eq_true, Bool.not_eq_true'] at h
  exact h.1

theorem powerOn (resetHeld : Bool) (straps : Straps) : Statement (.powerOn resetHeld straps) := fun _ _ hd => nomatch hd
theorem resetAsserted : Statement (.resetAsserted) := fun _ _ hd => nomatch hd
theorem resetReleased (straps : Straps) : Statement (.resetReleased straps) := fun _ _ hd => nomatch hd
theorem pauseAsserted : Statement (.pauseAsserted) := fun _ _ hd => nomatch hd
theorem pauseReleased : Statement (.pauseReleased) := fun _ _ hd => nomatch hd
theorem recordReceived (c : LinkChar) : Statement (.recordReceived c) := fun _ _ hd => nomatch hd
theorem recordDamaged (c : LinkChar) : Statement (.recordDamaged c) := fun _ _ hd => nomatch hd
theorem linkFramingError (c : LinkChar) : Statement (.linkFramingError c) := fun _ _ hd => nomatch hd
theorem linkGapExpiry : Statement (.linkGapExpiry) := fun _ _ hd => nomatch hd
theorem linkRecordSent : Statement (.linkRecordSent) := fun _ _ hd => nomatch hd
theorem unknownRequest : Statement (.unknownRequest) := fun _ _ hd => nomatch hd
theorem identify : Statement (.identify) := fun _ _ hd => nomatch hd
theorem deviceStatus : Statement (.deviceStatus) := fun _ _ hd => nomatch hd
theorem restart : Statement (.restart) := fun _ _ hd => nomatch hd
theorem timeSet : Statement (.timeSet) := fun _ _ hd => nomatch hd
theorem timeGet : Statement (.timeGet) := fun _ _ hd => nomatch hd
theorem lineStart : Statement (.lineStart) := fun _ _ hd => nomatch hd
theorem lineStopDrain (header : Option Ms) : Statement (.lineStopDrain header) := fun _ _ hd => nomatch hd
theorem lineStopForce : Statement (.lineStopForce) := fun _ _ hd => nomatch hd
theorem lineStatus : Statement (.lineStatus) := fun _ _ hd => nomatch hd
theorem poolStatus : Statement (.poolStatus) := fun _ _ hd => nomatch hd
theorem unitList : Statement (.unitList) := fun _ _ hd => nomatch hd
theorem unitInfo : Statement (.unitInfo) := fun _ _ hd => nomatch hd
theorem unitBind : Statement (.unitBind) := fun _ _ hd => nomatch hd
theorem unitUnbind : Statement (.unitUnbind) := fun _ _ hd => nomatch hd
theorem unitForget : Statement (.unitForget) := fun _ _ hd => nomatch hd
theorem screenSet : Statement (.screenSet) := fun _ _ hd => nomatch hd
theorem screenGet : Statement (.screenGet) := fun _ _ hd => nomatch hd
theorem unitSend : Statement (.unitSend) := fun _ _ hd => nomatch hd
theorem entryOpen : Statement (.entryOpen) := fun _ _ hd => nomatch hd
theorem entryCancel : Statement (.entryCancel) := fun _ _ hd => nomatch hd
theorem entryStatus : Statement (.entryStatus) := fun _ _ hd => nomatch hd
theorem cardRead : Statement (.cardRead) := fun _ _ hd => nomatch hd
theorem cardResend : Statement (.cardResend) := fun _ _ hd => nomatch hd
theorem cardEject : Statement (.cardEject) := fun _ _ hd => nomatch hd
theorem cardRetain : Statement (.cardRetain) := fun _ _ hd => nomatch hd
theorem cardStatus : Statement (.cardStatus) := fun _ _ hd => nomatch hd
theorem profileSet : Statement (.profileSet) := fun _ _ hd => nomatch hd
theorem profileGet : Statement (.profileGet) := fun _ _ hd => nomatch hd
theorem profileCommit : Statement (.profileCommit) := fun _ _ hd => nomatch hd
theorem profileLoad : Statement (.profileLoad) := fun _ _ hd => nomatch hd
theorem verifyPasses (write : Nat) : Statement (.verifyPasses write) := fun _ _ hd => nomatch hd
theorem writeLimitReached (write : Nat) : Statement (.writeLimitReached write) := fun _ _ hd => nomatch hd
theorem characterReceived (line : LineId) (edge : Ms) (raw : RawChar) (moment : CharMoment) :
    Statement (.characterReceived line edge raw moment) := by
  cases moment with
  | startEdge => exact fun _ _ hd => nomatch hd
  | stopBit => exact fun h _ hd => of_characterOk h hd
theorem falseStart (line : LineId) (start : Bit3) : Statement (.falseStart line start) := fun _ _ hd => nomatch hd
theorem framingError (line : LineId) (raw : RawChar) : Statement (.framingError line raw) := by
  intro h d hd
  cases hd
  unfold Instr.wf framingErrorOk charFalseStart at h
  simp only [Bool.and_eq_true, Bool.not_eq_true'] at h
  exact h.1
theorem lengthCharacter (line : LineId) (raw : RawChar) : Statement (.lengthCharacter line raw) := fun h _ hd => of_characterOk h hd
theorem oversizeAbandonEnd (line : LineId) : Statement (.oversizeAbandonEnd line) := fun _ _ hd => nomatch hd
theorem characterGapExpiry (line : LineId) : Statement (.characterGapExpiry line) := fun _ _ hd => nomatch hd
theorem unitEventDataFrame (line : LineId) (raw : RawChar) : Statement (.unitEventDataFrame line raw) := fun h _ hd => of_characterOk h hd
theorem hello (line : LineId) (raw : RawChar) : Statement (.hello line raw) := fun h _ hd => of_characterOk h hd
theorem unitStatus (line : LineId) (raw : RawChar) : Statement (.unitStatus line raw) := fun h _ hd => of_characterOk h hd
theorem unitAck (line : LineId) (raw : RawChar) : Statement (.unitAck line raw) := fun h _ hd => of_characterOk h hd
theorem lineIdle (line : LineId) : Statement (.lineIdle line) := fun _ _ hd => nomatch hd
theorem lineStuck (line : LineId) : Statement (.lineStuck line) := fun _ _ hd => nomatch hd
theorem lostArbitration (line : LineId) (bit : Nat) : Statement (.lostArbitration line bit) := fun _ _ hd => nomatch hd
theorem bitError (line : LineId) (chr : Nat) (bit : Nat) : Statement (.bitError line chr bit) := fun _ _ hd => nomatch hd
theorem frameTransmitted (line : LineId) : Statement (.frameTransmitted line) := fun _ _ hd => nomatch hd
theorem ackTimeout (line : LineId) (dest : Addr) : Statement (.ackTimeout line dest) := fun _ _ hd => nomatch hd
theorem queueLimitExpiry (line : LineId) (record : RecId) (dest : Addr) : Statement (.queueLimitExpiry line record dest) := fun _ _ hd => nomatch hd
theorem grantTimerExpiry (e : EntryId) : Statement (.grantTimerExpiry e) := fun _ _ hd => nomatch hd
theorem silenceTimerExpiry (e : EntryId) : Statement (.silenceTimerExpiry e) := fun _ _ hd => nomatch hd
theorem lostTimerExpiry (e : EntryId) : Statement (.lostTimerExpiry e) := fun _ _ hd => nomatch hd
theorem firstKeyTimeout (p : Pos) : Statement (.firstKeyTimeout p) := fun _ _ hd => nomatch hd
theorem interKeyTimeout (p : Pos) : Statement (.interKeyTimeout p) := fun _ _ hd => nomatch hd
theorem pinGuardExpiry (p : Pos) : Statement (.pinGuardExpiry p) := fun _ _ hd => nomatch hd
theorem displayRetryExpiry (p : Pos) : Statement (.displayRetryExpiry p) := fun _ _ hd => nomatch hd
theorem readTimerExpiry (p : Pos) : Statement (.readTimerExpiry p) := fun _ _ hd => nomatch hd
theorem takeTimerExpiry (p : Pos) : Statement (.takeTimerExpiry p) := fun _ _ hd => nomatch hd
theorem movementTimerExpiry (p : Pos) : Statement (.movementTimerExpiry p) := fun _ _ hd => nomatch hd
theorem attendanceTimerExpiry : Statement (.attendanceTimerExpiry) := fun _ _ hd => nomatch hd
theorem linkByteReceived (c : LinkChar) : Statement (.linkByteReceived c) := fun _ _ hd => nomatch hd

end Sys2Proof.Laws.WellFormed
end

