-- ==== Sys2Proof/Laws/Step.lean ====
section
/-! SUPPORT. Whatever a command does to the pool is a run of elementary changes, from the pool as it stands or from the pool of a
reset. -/

namespace Sys2Proof.Machine

/-- The pool after a command: moved from where it stood, or from its reset state. -/
def PoolAfter (s t : State) : Prop := PoolPath s.pool t.pool ∨ PoolPath (resetPool s.pool.mem) t.pool

theorem poolAfter_ite {s t u : State} {c : Prop} [Decidable c] (h : c → PoolAfter s t) (k : ¬c → PoolAfter s u) :
    PoolAfter s (if c then t else u) := by
  split
  · exact h ‹_›
  · exact k ‹_›

theorem poolAfter_refl (s : State) : PoolAfter s s := .inl .refl

/-- An event of a running part that ends with the choices of lines and link. -/
theorem poolAfter_settle {s t : State} {c : Prop} [Decidable c] (h : poolMoves s t) :
    PoolAfter s (if c then settle t else s) :=
  poolAfter_ite (fun _ => .inl (Relation.ReflTransGen.trans h (poolMoves_settle t))) fun _ => poolAfter_refl s

theorem poolMoves_refl (s : State) : poolMoves s s := Relation.ReflTransGen.refl

/-- A handling that answers from the state and leaves it. -/
theorem poolMoves_empty {rule : State → State × Answer} {s : State} (h : poolMoves s (rule s).1) (sl : Slot) :
    poolMoves s (emptyBody rule s sl).1 := by
  unfold emptyBody
  split_ifs
  · exact h
  · exact poolMoves_refl s

theorem poolMoves_position {rule : State → Pos → Slot → State × Answer} {s : State} (h : ∀ p sl, poolMoves s (rule s p sl).1)
    (sl : Slot) : poolMoves s (positionBody rule s sl).1 := by
  unfold positionBody
  split_ifs
  · exact poolMoves_refl s
  · split
    · exact poolMoves_refl s
    · exact h _ _

theorem poolMoves_identity {rule : State → EntryId → State × Answer} {s : State} (h : ∀ e, poolMoves s (rule s e).1)
    (sl : Slot) : poolMoves s (identityBody rule s sl).1 := by
  unfold identityBody
  split_ifs
  · exact poolMoves_refl s
  · split
    · exact poolMoves_refl s
    · exact h _

/-- A rule that only reads the state, or writes the profile, the link or the time, leaves the pool. -/
theorem poolMoves_of_eq {s t : State} (h : t.pool = s.pool) : poolMoves s t := by
  unfold poolMoves
  rw [h]

/-- The link transmitter's choice after a change that left the pool. -/
theorem poolMoves_link {s t : State} (h : t.pool = s.pool) : PoolPath s.pool (settleLink t).pool := by
  rw [settleLink_pool, h]

theorem poolMoves_begin {t : State} {p : Pool} (h : t.pool = p) : PoolPath p (beginStartUp t).pool := by
  unfold beginStartUp
  rw [settleLink_pool, ← h]
  exact poolMoves_startUp t

theorem timeSetRule_pool (s : State) (sl : Slot) : (timeSetRule s sl).1.pool = s.pool := by
  unfold timeSetRule
  split_ifs <;> rfl

theorem screenSetRule_pool (s : State) (sl : Slot) : (screenSetRule s sl).1.pool = s.pool := by
  unfold screenSetRule
  split_ifs
  · rfl
  · split <;> rfl

theorem screenGetRule_pool (s : State) (sl : Slot) : (screenGetRule s sl).1.pool = s.pool := by
  unfold screenGetRule
  split
  · rfl
  · split <;> rfl
  · rfl

theorem profileSetRule_pool (s : State) (sl : Slot) : (profileSetRule s sl).1.pool = s.pool := by
  unfold profileSetRule
  split
  · rfl
  · split
    · rfl
    · split_ifs
      · rfl
      · split
        · rfl
        · split_ifs
          · rfl
          · split <;> rfl

theorem profileGetRule_pool (s : State) (sl : Slot) : (profileGetRule s sl).1.pool = s.pool := by
  unfold profileGetRule
  split
  · rfl
  · split
    · rfl
    · split <;> rfl
  · rfl

theorem profileLoadRule_pool (s : State) : (profileLoadRule s).1.pool = s.pool := by
  unfold profileLoadRule
  split_ifs <;> rfl

theorem poolMoves_profileCommitRule (s : State) (sl : Slot) : poolMoves s (profileCommitRule s sl).1 := by
  unfold profileCommitRule
  split_ifs
  · exact poolMoves_refl s
  · have h := (calm_reserve s .commitDone sl.tag).pool
    split <;> rename_i h1 <;> rw [h1] at h <;> exact h

theorem poolMoves_commitEnds (s : State) (c : Commit) (b : Bool) : poolMoves s (commitEnds s c b) :=
  (calm_completePromise _ _ _ _ _ _).pool

theorem poolMoves_writeVerified (s : State) (c : Commit) : poolMoves s (writeVerified s c) := by
  unfold writeVerified
  simp only
  split_ifs
  · exact poolMoves_refl s
  · exact poolMoves_commitEnds { s with store := { writeBlock s.store c with state := .complete } } c false

theorem poolMoves_writeFailed (s : State) (c : Commit) : poolMoves s (writeFailed s c) := by
  unfold writeFailed
  split_ifs
  · exact poolMoves_refl s
  · exact poolMoves_commitEnds s c true

/-- What an event of a store write can do: nothing, or its rule on the write in progress, which its number names. -/
theorem writeEvent_cases (s : State) (w : Nat) (rule : State → Commit → State) :
    writeEvent s w rule = s ∨
      ∃ c, s.store.commit = some c ∧ s.running = true ∧ c.write = w ∧ writeEvent s w rule = settleLink (rule s c) := by
  unfold writeEvent
  split
  · rename_i c hc
    split_ifs with h
    · simp only [Bool.and_eq_true, beq_iff_eq] at h
      exact .inr ⟨c, hc, h.1, h.2.symm, rfl⟩
    · exact .inl rfl
  · exact .inl rfl

theorem poolMoves_writeEvent (s : State) (w : Nat) {rule : State → Commit → State} (h : ∀ c, poolMoves s (rule s c)) :
    poolMoves s (writeEvent s w rule) := by
  rcases writeEvent_cases s w rule with e | ⟨c, -, -, -, e⟩ <;> rw [e]
  exact Relation.ReflTransGen.trans (h c) (poolMoves_settleLink _)

theorem poolMoves_becomeIdle (s : State) (l : LineId) : poolMoves s (becomeIdle s l) := by
  unfold becomeIdle
  split
  · exact poolMoves_refl s
  · exact (quiet_enterStopped _ _).pool
  · exact ((calm_modLine s l _).trans (calm_setLineMark _ _)).pool
  · exact (calm_modLine s l _).pool

theorem poolMoves_becomeStuck (s : State) (l : LineId) : poolMoves s (becomeStuck s l) := by
  unfold becomeStuck
  refine Quiet.pool (Calm.toQuiet (Calm.trans ?_ (calm_setLineMark _ _)))
  refine Calm.trans ?_ (calm_modLine _ _ _)
  exact Calm.trans (.ite (calm_bitErrorAt s l) (.refl s)) ((calm_dropReception _ _).trans (calm_countLine _ _ _))

theorem poolMoves_sessionTimesOut (s : State) (p : Pos) (c : Cause) : poolMoves s (sessionTimesOut s p c) := by
  unfold sessionTimesOut
  split
  · exact poolMoves_refl s
  · exact (calm_endSession _ _ _ _ _ _).pool

theorem poolMoves_becomeUnattended (s : State) : poolMoves s (becomeUnattended s) := by
  unfold becomeUnattended
  simp only
  refine Relation.ReflTransGen.trans (b := (setAttendance s false).pool) (poolMoves_of_eq rfl) (Quiet.pool (Calm.toQuiet ?_))
  refine Calm.trans ?_ (Calm.foldl (fun t l => ?_) _ _)
  · refine Calm.trans ?_ (Calm.foldl (fun t p => calm_cardUnattended t p) _ _)
    refine Calm.trans ?_ (Calm.foldl (fun t p => .ite (calm_modEntry _ _ _) (.refl t)) _ _)
    exact Calm.foldl (fun t p => calm_abortSession t p _) _ _
  · exact .ite (calm_offerControl _ _ _ _ _ _ _) (.refl t)

theorem poolMoves_attendanceExpires (s : State) : poolMoves s (attendanceExpires s) := by
  unfold attendanceExpires
  simp only
  split_ifs
  · exact poolMoves_refl s
  · exact poolMoves_becomeUnattended { s with time := { s.time with timer := none } }

theorem poolAfter_recordSent (s : State) (t : LinkTx) : PoolAfter s (recordSent s t) := by
  unfold recordSent
  simp only
  split
  · exact .inl (poolMoves_link rfl)
  · exact .inl (Relation.ReflTransGen.trans (calm_dropRef (s.modLink fun k => { k with tx := none }) _).pool
      (poolMoves_settleLink _))
  · exact poolAfter_ite (fun _ => .inr (poolMoves_restartNow _)) fun _ => .inl (poolMoves_link rfl)

/-- A command's change of the pool. -/
theorem exec_pool {c : Instr} {s t : State} (h : exec c s = .next t) : PoolAfter s t := by
  have hq : ∀ {u v : State}, Quiet u v → poolMoves u v := fun h => h.pool
  have reads : ∀ {rule : State → State × Answer}, (∀ u, (rule u).1 = u) → ∀ u sl, poolMoves u (emptyBody rule u sl).1 :=
    fun hr u sl => poolMoves_empty (poolMoves_of_eq (by rw [hr])) sl
  cases c with
  | powerOn b st =>
    cases h
    exact poolAfter_ite (fun _ => .inr .refl) fun _ => .inr (poolMoves_begin rfl)
  | resetAsserted =>
    cases h
    exact poolAfter_ite (fun _ => poolAfter_refl s) fun _ => .inr .refl
  | resetReleased st =>
    cases h
    exact poolAfter_ite (fun _ => .inl (poolMoves_begin rfl)) fun _ => poolAfter_refl s
  | pauseAsserted =>
    cases h
    exact poolAfter_refl s
  | pauseReleased =>
    cases h
    exact poolAfter_ite (fun _ => .inl (poolMoves_link rfl)) fun _ => poolAfter_refl s
  | recordReceived c =>
    cases h
    exact poolAfter_ite (fun _ => .inl (by rw [settleLink_pool, receiveChar10_pool])) fun _ => poolAfter_refl s
  | recordDamaged c =>
    cases h
    exact poolAfter_ite (fun _ => .inl (by rw [settleLink_pool, receiveChar10_pool])) fun _ => poolAfter_refl s
  | linkFramingError c =>
    cases h
    exact poolAfter_ite (fun _ => .inl (poolMoves_of_eq (framingEnds_pool s))) fun _ => poolAfter_refl s
  | linkGapExpiry =>
    cases h
    exact poolAfter_ite (fun _ => .inl (poolMoves_of_eq (by unfold abandonRecord; split_ifs <;> rfl))) fun _ => poolAfter_refl s
  | linkRecordSent =>
    unfold exec execLinkRecordSent at h
    dsimp only at h
    split at h <;> cases h
    · exact poolAfter_refl s
    · exact poolAfter_ite (fun _ => poolAfter_recordSent s _) fun _ => poolAfter_refl s
  | unknownRequest =>
    cases h
    exact .inl (poolMoves_handle (fun sl => poolMoves_refl s) poolMoves_settleLink)
  | identify =>
    cases h
    exact .inl (poolMoves_handle (fun sl => reads (fun _ => rfl) s sl) poolMoves_settleLink)
  | deviceStatus =>
    cases h
    exact .inl (poolMoves_handle (fun sl => reads (fun _ => rfl) s sl) poolMoves_settleLink)
  | restart =>
    cases h
    exact .inl (poolMoves_handle (fun sl => poolMoves_empty (poolMoves_of_eq rfl) sl) poolMoves_settleLink)
  | timeSet =>
    cases h
    exact .inl (poolMoves_handle (fun sl => poolMoves_of_eq (timeSetRule_pool s sl)) poolMoves_settleLink)
  | timeGet =>
    cases h
    exact .inl (poolMoves_handle (fun sl => reads (fun _ => rfl) s sl) poolMoves_settleLink)
  | lineStart =>
    cases h
    exact .inl (poolMoves_handle (fun sl => hq (quiet_lineStartRule s sl)) poolMoves_settle)
  | lineStopDrain h =>
    cases h
    exact .inl (poolMoves_handle (fun sl => hq (quiet_lineStopRule h s sl)) poolMoves_settle)
  | lineStopForce =>
    cases h
    exact .inl (poolMoves_handle (fun sl => hq (quiet_lineStopRule none s sl)) poolMoves_settle)
  | lineStatus =>
    cases h
    exact .inl (poolMoves_handle (fun sl => hq (quiet_lineStatusRule s sl)) poolMoves_settleLink)
  | poolStatus =>
    cases h
    exact .inl (poolMoves_handle (fun sl => hq (quiet_poolStatusRule s sl)) poolMoves_settleLink)
  | unitList =>
    cases h
    exact .inl (poolMoves_handle (fun sl => reads (fun _ => rfl) s sl) poolMoves_settleLink)
  | unitInfo =>
    cases h
    exact .inl (poolMoves_handle (fun sl => poolMoves_identity (fun _ => poolMoves_refl s) sl) poolMoves_settleLink)
  | unitBind =>
    cases h
    exact .inl (poolMoves_handle (fun sl => hq (quiet_unitBindRule s sl)) poolMoves_settle)
  | unitUnbind =>
    cases h
    exact .inl (poolMoves_handle (fun sl => poolMoves_identity (fun e => hq (quiet_unitUnbindRule s e)) sl) poolMoves_settle)
  | unitForget =>
    cases h
    exact .inl (poolMoves_handle (fun sl => poolMoves_identity (fun e => hq (quiet_unitForgetRule s e)) sl) poolMoves_settle)
  | screenSet =>
    cases h
    exact .inl (poolMoves_handle (fun sl => poolMoves_of_eq (screenSetRule_pool s sl)) poolMoves_settleLink)
  | screenGet =>
    cases h
    exact .inl (poolMoves_handle (fun sl => poolMoves_of_eq (screenGetRule_pool s sl)) poolMoves_settleLink)
  | unitSend =>
    cases h
    exact .inl (poolMoves_handle (fun sl => hq (quiet_unitSendRule s sl)) poolMoves_settle)
  | entryOpen =>
    cases h
    exact .inl (poolMoves_handle (fun sl => hq (quiet_entryOpenRule s sl)) poolMoves_settle)
  | entryCancel =>
    cases h
    exact .inl (poolMoves_handle (fun sl => poolMoves_position (fun p x => hq (quiet_entryCancelRule s p x)) sl) poolMoves_settle)
  | entryStatus =>
    cases h
    exact .inl (poolMoves_handle (fun sl => poolMoves_position (fun _ _ => poolMoves_refl s) sl) poolMoves_settleLink)
  | cardRead =>
    cases h
    exact .inl (poolMoves_handle (fun sl => hq (quiet_cardReadRule s sl)) poolMoves_settle)
  | cardResend =>
    cases h
    exact .inl (poolMoves_handle (fun sl => poolMoves_position (fun p x => hq (quiet_cardResendRule s p x)) sl) poolMoves_settleLink)
  | cardEject =>
    cases h
    exact .inl (poolMoves_handle (fun sl => poolMoves_position (fun p x => hq (quiet_cardEjectRule s p x)) sl) poolMoves_settle)
  | cardRetain =>
    cases h
    exact .inl (poolMoves_handle (fun sl => poolMoves_position (fun p x => hq (quiet_cardRetainRule s p x)) sl) poolMoves_settle)
  | cardStatus =>
    cases h
    exact .inl (poolMoves_handle (fun sl => poolMoves_position (fun _ _ => poolMoves_refl s) sl) poolMoves_settleLink)
  | profileSet =>
    cases h
    exact .inl (poolMoves_handle (fun sl => poolMoves_of_eq (profileSetRule_pool s sl)) poolMoves_settleLink)
  | profileGet =>
    cases h
    exact .inl (poolMoves_handle (fun sl => poolMoves_of_eq (profileGetRule_pool s sl)) poolMoves_settleLink)
  | profileCommit =>
    cases h
    exact .inl (poolMoves_handle (fun sl => by
      show poolMoves s (if sl.body.isEmpty then profileCommitRule s sl else refuse s .badLength).1
      split_ifs
      · exact poolMoves_profileCommitRule s sl
      · exact poolMoves_refl s) poolMoves_settleLink)
  | profileLoad =>
    cases h
    exact .inl (poolMoves_handle (fun sl => poolMoves_empty (poolMoves_of_eq (profileLoadRule_pool s)) sl) poolMoves_settleLink)
  | verifyPasses w =>
    cases h
    exact .inl (poolMoves_writeEvent s w (poolMoves_writeVerified s))
  | writeLimitReached w =>
    cases h
    exact .inl (poolMoves_writeEvent s w (poolMoves_writeFailed s))
  | characterReceived l e c m =>
    cases h
    cases m with
    | startEdge => exact poolAfter_settle (calm_modLine s l _).pool
    | stopBit => exact poolAfter_settle (hq (quiet_receiveChar s l e c))
  | falseStart l b =>
    cases h
    exact poolAfter_settle (((calm_modLine s l _).trans (calm_countLine _ _ _)).pool)
  | framingError l c =>
    cases h
    exact poolAfter_settle (hq (quiet_receiveChar s l s.now c))
  | lengthCharacter l c =>
    cases h
    exact poolAfter_settle (hq (quiet_receiveChar s l s.now c))
  | oversizeAbandonEnd l =>
    cases h
    exact poolAfter_settle ((calm_setRx s l .hunting).pool)
  | characterGapExpiry l =>
    cases h
    exact poolAfter_settle (((calm_countLine s l _).trans (calm_dropReception _ _)).pool)
  | unitEventDataFrame l c =>
    cases h
    exact poolAfter_settle (hq (quiet_receiveChar s l s.now c))
  | hello l c =>
    cases h
    exact poolAfter_settle (hq (quiet_receiveChar s l s.now c))
  | unitStatus l c =>
    cases h
    exact poolAfter_settle (hq (quiet_receiveChar s l s.now c))
  | unitAck l c =>
    cases h
    exact poolAfter_settle (hq (quiet_receiveChar s l s.now c))
  | lineIdle l =>
    cases h
    exact poolAfter_settle (poolMoves_becomeIdle s l)
  | lineStuck l =>
    cases h
    exact poolAfter_settle (poolMoves_becomeStuck s l)
  | lostArbitration l b =>
    unfold exec execLostArbitration at h
    dsimp only at h
    split at h <;> cases h
    · exact poolAfter_refl s
    · exact poolAfter_settle (calm_arbitrationLost s l _).pool
  | bitError l c b =>
    unfold exec execBitError at h
    dsimp only at h
    split at h <;> cases h
    · exact poolAfter_refl s
    · exact poolAfter_settle (calm_bitErrorAt s l).pool
  | frameTransmitted l =>
    cases h
    exact poolAfter_settle ((calm_transmissionDone s l).pool)
  | ackTimeout l d =>
    unfold exec execAckTimeout at h
    dsimp only at h
    split at h <;> cases h
    · exact poolAfter_refl s
    · exact poolAfter_settle (calm_ackExpires s l _).pool
  | queueLimitExpiry l r d =>
    unfold exec execQueueLimitExpiry at h
    dsimp only at h
    split at h <;> cases h
    · exact poolAfter_refl s
    · exact poolAfter_settle (calm_endEntry s l _ _).pool
  | grantTimerExpiry e =>
    cases h
    exact poolAfter_settle (hq (quiet_grantExpires s e))
  | silenceTimerExpiry e =>
    cases h
    exact poolAfter_settle (hq ((quiet_modDir s e _).trans (quiet_setDirMark _ _)))
  | lostTimerExpiry e =>
    cases h
    exact poolAfter_settle (hq (quiet_entryLost s e))
  | firstKeyTimeout p =>
    cases h
    exact poolAfter_settle (poolMoves_sessionTimesOut s p _)
  | interKeyTimeout p =>
    cases h
    exact poolAfter_settle (poolMoves_sessionTimesOut s p _)
  | pinGuardExpiry p =>
    cases h
    exact poolAfter_ite (fun _ => .inl .refl) fun _ => poolAfter_refl s
  | displayRetryExpiry p =>
    cases h
    exact poolAfter_settle ((calm_displayRetry s p).pool)
  | readTimerExpiry p =>
    cases h
    exact poolAfter_settle (((calm_readEnd s p _ _ _).trans (calm_cardTo _ _ _ _)).pool)
  | takeTimerExpiry p =>
    cases h
    exact poolAfter_settle ((calm_ownCommand s p _ _ _).pool)
  | movementTimerExpiry p =>
    cases h
    exact poolAfter_settle ((calm_cardTo s p _ _).pool)
  | attendanceTimerExpiry =>
    cases h
    exact poolAfter_settle (poolMoves_attendanceExpires s)
  | linkByteReceived c =>
    cases h
    exact poolAfter_ite (fun _ => .inl (by rw [receiveChar10_pool])) fun _ =>
      poolAfter_ite (fun _ => .inl (poolMoves_of_eq rfl)) fun _ => poolAfter_refl s

end Sys2Proof.Machine
end

