-- ==== Sys2Proof/Tests/Slice0.lean ====
section
/-! SUPPORT. Small tests: the smoke of WellFormed, single commands with results taken from the spec's worked cases and tables, and
for each obligation a witness that its hypotheses can be met. -/

namespace Sys2Proof.Tests

-- The kernel evaluations below are checked one after another, so that they do not all ask for memory at once.
set_option Elab.async false

open Sys2Proof Sys2Proof.Machine

/-! ## States that the tests start from -/

/-- The state that an outcome gives. -/
def nextOf : Host.Outcome State Fault Refusal → Option State
  | .next t => some t
  | _ => none

/-- The state after a command; the reset state if there were none. -/
def after (c : Instr) (s : State) : State := (nextOf (exec c s)).getD State.reset

/-- An ACTIVE line at 9,600 bit/s (2.1, Timing Examples). -/
def liveLine : Line := { resetLine with state := .active, timing := some { d := 104, s := 16 } }

/-- A running part, its lines ACTIVE, its pool empty of frames. -/
def up : State :=
  { State.reset with
    running := true, resetPin := false, lines := Vector.replicate 4 liveLine, link := { resetLink with rxOn := true } }

/-- A bound, ACTIVE unit on line 4 at position 8. -/
def unitAt (k : UnitKind) (i : Identity) (a : Addr) : DirEntry :=
  { resetEntry with
    identity := i, kind := k, state := .active, line := 3, addr := some a, pos := some 7, established := true
    silenceTimer := some 3000, lostTimer := some 20000 }

/-- A reader at entry 15, address 14, and a keypad at entry 0, address 1. -/
def house : State := atUnit (atUnit up 15 (unitAt .reader 0x0A3100000471 14)) 0 (unitAt .keypad 0x0A3200000233 1)

/-- A request taken into slot 0. -/
def withReq (s : State) (type : Byte) (body : List Byte) : State :=
  { s with
    link :=
      { s.link with
        slots := s.link.slots.set 0 { state := .taken, type := type, tag := 41, body := body, status := .ok, fields := [] }
        order := [0] } }

/-- A STORED record with a body, admitted from the pool. -/
def stored (s : State) (r : RecId) (k : RecKind) (o : Origin) (body : List Byte) : State :=
  s.modPool fun p => (p.grant r
    { cls := 1, need := chunkNeed body.length, origin := o, kind := k, urg := 1, arrival := 0, state := .stored
      promise := none }).setBody r body

/-- A queue entry of record r for address a on a line's control queue. -/
def entryOf (r : RecId) (a : Addr) (target : Option EntryId) (owner : Owner) : QEntry := queuedFrame up r a target owner

/-- Line 4 with another content. -/
def line4 (s : State) (f : Line → Line) : State := s.modLine 3 f

/-- A frame on line 4 received up to its check character. -/
def frameUpTo (head second : Byte) (sum : Byte) (dest : BodyDest) (buf : List Byte) : RxFrame :=
  { stage := .check, head := head, second := second, sum := sum, bad := false, discarded := false, inDrain := false
    arrival := 0, dest := dest, buf := buf }

/-- Line 4 about to take the check character of a frame. -/
def receiving4 (s : State) (f : RxFrame) : State := line4 s fun ln => { ln with rx := .inFrame f }

theorem test_request_is_asked (s : State) (ty : Byte) (body : List Byte) (h : s.running = true)
    (hr : s.link.restartPending = false) (ha : s.time.attended = true := by rfl) : asks (withReq s ty body) 0 ty body := by
  refine ⟨⟨h, ha, hr, ?_, [], [], rfl, by simp⟩, ?_, ?_⟩ <;> simp [withReq]

/-! ## Well-formed commands: one ill-formed term for each check -/

theorem test_wf_clean_character : (Instr.characterReceived 0 0 (cleanChar 0x41)).wf = true := by decide
theorem test_wf_character_false_start :
    (Instr.characterReceived 0 0 { cleanChar 0x41 with start := cleanBit true }).wf = false := by decide
theorem test_wf_character_no_stop :
    (Instr.lengthCharacter 0 { cleanChar 0x41 with stop := cleanBit false }).wf = false := by decide
theorem test_wf_false_start_dominant : (Instr.falseStart 0 (cleanBit false)).wf = false := by decide
theorem test_wf_framing_error_stop_recessive : (Instr.framingError 0 (cleanChar 0)).wf = false := by decide
theorem test_wf_framing_error_false_start :
    (Instr.framingError 0 { cleanChar 0 with start := cleanBit true, stop := cleanBit false }).wf = false := by decide
theorem test_wf_event_frame_no_stop :
    (Instr.unitEventDataFrame 0 { cleanChar 0 with stop := cleanBit false }).wf = false := by decide
theorem test_wf_hello_no_stop : (Instr.hello 0 { cleanChar 0 with stop := cleanBit false }).wf = false := by decide
theorem test_wf_status_no_stop : (Instr.unitStatus 0 { cleanChar 0 with stop := cleanBit false }).wf = false := by decide
theorem test_wf_ack_no_stop : (Instr.unitAck 0 { cleanChar 0 with stop := cleanBit false }).wf = false := by decide
theorem test_wf_link_byte_no_stop : (Instr.linkByteReceived { linkChar 0 with stop := false }).wf = false := by decide
theorem test_wf_link_record_false_start : (Instr.recordReceived { linkChar 0 with start := true }).wf = false := by decide
theorem test_wf_link_damage_no_stop : (Instr.recordDamaged { linkChar 0 with stop := false }).wf = false := by decide
theorem test_wf_link_framing_error_mark : (Instr.linkFramingError (linkChar 0)).wf = false := by decide
theorem test_wf_arbitration_bit_11 : (Instr.lostArbitration 0 11).wf = false := by decide
theorem test_wf_error_bit_11 : (Instr.bitError 0 0 11).wf = false := by decide
theorem test_wf_error_character_124 : (Instr.bitError 0 124 0).wf = false := by decide
theorem test_wf_ack_from_part : (Instr.ackTimeout 0 0).wf = false := by decide
theorem test_wf_ack_from_general_call : (Instr.ackTimeout 0 15).wf = false := by decide

/-! ## Worked cases and tables of the spec -/

/-- 11.2: the part's ACK to address 4 with sequence bit 0, ACCEPTED. -/
theorem test_ack_frame_bytes :
    ackChars { dest := 4, seq := false, accepted := true } = [0x40, 0x04, 0x02, 0x00, 0x00, 0xBA] := by decide +kernel

/-- 9.2: TIME_GET with tag 0x11 has check 0xEA. -/
theorem test_time_get_record : linkRecord 0x05 0x11 [] = [0xC3, 0x05, 0x11, 0x00, 0xEA] := by decide +kernel

/-- Chapter 11: the identity 0A3100000471 travels least significant byte first. -/
theorem test_identity_bytes : identityBytes 0x0A3100000471 = [0x71, 0x04, 0x00, 0x00, 0x31, 0x0A] := by decide +kernel

/-- 11.3: the digits 4, 7, 1, 9, 2 are packed with a filler. -/
theorem test_packed_digits : packDigits [4, 7, 1, 9, 2] = [0x47, 0x19, 0x2F] := by decide +kernel

/-- R26: odd parity: 0x00 is sent with parity 1, 0x01 with parity 0. -/
theorem test_parity_is_odd : sentBit 0x00 9 = true ∧ sentBit 0x01 9 = false := by decide
/-- R167: a link character sends its eight data bits least significant bit first, between a start bit at space and a stop bit at mark. -/
theorem test_link_character_bits :
    linkChar 0x05 = { LinkChar.space with d0 := true, d2 := true, stop := true } ∧ linkByte (linkChar 0xC3) = 0xC3 := by decide
theorem test_noisy_bit_keeps_majority :
    let c := { cleanChar 0x55 with d0 := { a := true, b := false, c := true } }
    charByte c = 0x55 ∧ charNoisy c = true ∧ charParityError c = false := by decide +kernel

/-- 2.5, worked case 1: at the urgency bit of weight 1 the part withdraws its DISPLAY, counts the loss and no attempt. -/
def contending : State :=
  line4 (stored house 0 (.frame .display) .part (List.replicate 33 0x20)) fun ln =>
    { ln with
      control := [{ entryOf 0 1 (some 0) (.entry 7) with inTx := true }]
      tx := some { src := .queued, chars := [0x41, 0x21, 33], startedAt := 0, inDrain := false } }
theorem test_lost_arbitration_withdraws :
    let t := after (.lostArbitration 3 1) contending
    t.lines[3].counters.arbLoss = 1 ∧ t.lines[3].tx = none ∧
      t.lines[3].control.map (fun q => (q.inTx, q.attempts)) = [(false, 0)] := by decide +kernel

/-- R23: while it sends the header 0x41 the part drives its zeros: the start bit, the urgency bit of weight 2; and the pair is dominant
where another station drives it. -/
theorem test_part_drives_its_zeros :
    let ln := contending.lines[3]
    (ln.drives 0 0, ln.drives 0 1, ln.drives 0 2, ln.drives 3 0) = (true, false, true, false) ∧ ln.level 0 1 true = false ∧
      liveLine.drives 0 0 = false ∧ resetLink.txd 0 0 = true := by decide +kernel

/-- R31, R32: a line may become idle inside a frame, after a character 0xFF; the frame goes on to its gap. -/
theorem test_idle_inside_a_frame :
    let f := { stage := .second, head := 0xFF, second := 0, sum := 0xFF, bad := false, discarded := false, inDrain := false
               arrival := 0, dest := .undecided, buf := [] : RxFrame }
    let t := after (.lineIdle 3) (line4 up fun ln => { ln with rx := .inFrame f })
    t.lines[3].idle = true ∧ (after (.characterGapExpiry 3) t).lines[3].counters.gap = 1 := by decide +kernel

/-- R41: DRAIN waits for a header in progress; a false start then ends it, and the line stops. -/
theorem test_drain_waits_for_a_header :
    let t := after (.lineStopDrain (some 5)) { withReq up 0x09 [4, 0] with pausePin := true }
    t.lines[3].state = .draining ∧ (after (.falseStart 3 (cleanBit true)) t).lines[3].state = .stopped := by decide +kernel

/-- R41, R57: a HELLO that began before the drain is handled as on an ACTIVE line: its unit is granted address 2. -/
theorem test_hello_begun_before_a_drain :
    let f : RxFrame := { stage := .check, head := 0xBC, second := 0, sum := 0xC3, bad := false, discarded := false, inDrain := false
                         arrival := 0, dest := .buffer, buf := [1, 0, 0, 0, 0, 0, 1] }
    let t := after (.hello 3 (cleanChar 0x3D))
      { line4 house fun ln => { ln with state := .draining, rx := .inFrame f } with pausePin := true }
    t.dir[1].identity = 1 ∧ t.dir[1].addr = some 2 := by decide +kernel

/-- R70: a unit heard in SILENT is ACTIVE, and so established. -/
theorem test_silent_unit_is_established :
    (heardEntry (atUnit house 0 { unitAt .keypad 7 1 with state := .silent, established := false }) 0).dir[0].established = true := by
  decide +kernel

/-- R167: a false start is ignored; after a framing error a character that does not follow mark is not seen. -/
theorem test_link_waits_for_mark :
    let t := after (.linkFramingError { linkChar 5 with stop := false }) (after (.linkByteReceived (linkChar 0xC3)) up)
    t.link.damaged = 1 ∧ t.link.awaitMark = true ∧
      (after (.linkByteReceived { linkChar 0xC3 with marked := false }) t).link.asm = [] ∧
      (after (.linkByteReceived (linkChar 0xC3)) t).link.asm = [0xC3] := by decide +kernel

/-- 1.3, worked case: class 2 with F = 56 and a need of 3 is refused at the chunk test, and class 1 with F = 60 and a need of 4 passes. -/
theorem test_admission_under_pressure :
    chunkTest defaultProfile 56 2 3 = false ∧ chunkTest defaultProfile 60 1 4 = true ∧ chunkTest defaultProfile 51 1 1 = true ∧
      recordTest 7 1 = true ∧ chunkNeed 107 = 4 ∧ chunkNeed 70 = 3 ∧ chunkNeed 0 = 1 := by decide +kernel

/-- 10.5, worked case: after a start-up with defaults, F = 251, G = 59, four WHO frames and one START notice. -/
theorem test_start_up_with_defaults :
    let t := after (.powerOn false { lrate := 1, pdef := false })
      { State.reset with pausePin := true, store := { blankStore with state := .incomplete } }
    (t.pool.chunksFree, t.pool.recsFree, t.w0.length, t.time.timer) = (251, 59, 1, some 8000) ∧ t.profileOutcome = .incomplete ∧
      (t.pool.body 0) = [1, 2, 1, 1, 15] := by decide +kernel


theorem test_reset_holds_the_part : (after (.powerOn true { lrate := 2, pdef := true }) up).running = false := by decide +kernel

/-- 5.6, worked case 1: the arrival in counter time and the age of a KEY notice. -/
theorem test_age_stamp :
    let s := { house with
      time := { house.time with mono := 1000418, offset := 498999700 }
      pool := { house.pool with recs := house.pool.recs.set 0 { freeRec with state := .stored, refs := 1, arrival := 1000250 } } }
    (noticeRecord s { record := 0, kind := .data, tag := 0, unit := none, pos := none, witnessed := false, resent := false }).drop 4
        |>.take 6 = leBytes 4 499999950 ++ leBytes 2 168 := by decide +kernel

/-- 6.4, worked case: an AMOUNT with k = 2, at most 5,000.00. -/
def amount (v : Nat) : Session :=
  { active := true, field := .amount 2 500000 100, value := v, digits := [], prompt := List.replicate 16 0x45, pfx := [0x24]
    firstKey := 30, interKey := 10, firstTimer := none, interTimer := some 10000, result := 63, tag := 17, keypad := 0
    keypadId := 0x0A3200000233, witness := true }
theorem test_amount_display :
    (sessionLines (amount 125)).line2 = 0x24 :: List.replicate 11 0x20 ++ [0x31, 0x2E, 0x32, 0x35] := by decide +kernel
/-- The house with a session at position 8, its promise in record 63. -/
def sessionOf (ss : Session) : State :=
  let s := house.modPool fun p => p.grant 63
    { cls := 0, need := 1, origin := .part, kind := .notice .entryResult, urg := 0, arrival := 0, state := .reserved
      promise := some 17 }
  atEntry s 7 { resetEntryCtx with sess := some ss, target := some (0, 0x0A3200000233) }
theorem test_six_keys_in_one_frame :
    (takeKeys 7 0 [1, 2, 5, 3, 4, 0x0A] false false (sessionOf { amount 0 with active := false })).entry[7].sess.map Session.value =
      some 12534 := by decide +kernel

/-- 6.7, worked case: 9, 2, ENTER, 3 after 4, 7, 1 in a PIN session. -/
def pinSession (ds : List Nat) : Session :=
  { amount 0 with field := .pin 4 6, digits := ds, witness := false, pfx := [] }
theorem test_pin_with_a_late_digit :
    let t := takeKeys 7 0 [9, 2, 0x0D, 3] false false (sessionOf (pinSession [4, 7, 1]))
    t.entry[7].guardTimer = some 2000 ∧ t.w0.map (fun n => (n.record, n.tag)) = [(63, 17)] ∧ t.w1 = [] ∧
      ((t.pool.body 63).drop 7).take 7 = [3, 0, 1, 5, 0x47, 0x19, 0x2F] := by decide +kernel
/-- The house under a running guard at position 8. -/
def targetedGuard : State := atEntry house 7 { resetEntryCtx with guardTimer := some 800, target := some (0, 0x0A3200000233) }
theorem test_guard_passes_function_keys :
    let t := guardKeys targetedGuard 7 0 [5, 0x12]
    t.w1.map (fun n => t.pool.body n.record) = [[0x12]] := by decide +kernel

theorem test_guard_discards_all_unattended :
    let t := guardKeys { targetedGuard with time := { house.time with attended := false } } 7 0 [0x12]
    t.w1 = [] ∧ t.lines[3].control.length = 1 := by decide +kernel

/-- 4.4, worked case: a lost keypad's session ends ABORTED with UNIT_LOST, its address released and its position kept. -/
theorem test_lost_timer :
    let s := atUnit (sessionOf (amount 5)) 0 { (unitAt .keypad 0x0A3200000233 1) with state := .silent, lostTimer := some 0 }
    let t := after (.lostTimerExpiry 0) { s with pausePin := true }
    t.dir[0].state = .lost ∧ t.dir[0].addr = none ∧ t.dir[0].pos = some 7 ∧ t.entry[7].sess = none ∧ t.w0.length = 1 := by
  decide +kernel

/-- R187: a value outside its range takes the nearer end, and the reply is CLAMPED. -/
theorem test_profile_set_clamps :
    let t := after .profileSet { withReq up 0x30 [0x0F, 0, 61] with pausePin := true }
    t.link.slots[0].status = .clamped := by decide +kernel


/-- R32: inside a header a line begins nothing, though it was idle before the start edge; the header's arrival is its start edge. -/
theorem test_start_edge_ends_idleness :
    let s := (offerControl { house with time := { house.time with mono := 9 } } 3 .who 15 none .directory []).1
    let idle4 := line4 s fun ln => { ln with idle := true }
    let t := after (.characterReceived 3 0 (cleanChar 0x38) .startEdge) idle4
    let u := after (.characterReceived 3 0 (cleanChar 0x38)) { t with time := { t.time with mono := 10 } }
    (after (.falseStart 0 (cleanBit true)) idle4).lines[3].tx.isSome = true ∧
      (after (.falseStart 0 (cleanBit true)) t).lines[3].tx = none ∧ t.lines[3].rx = .completing 9 false ∧
      (match u.lines[3].rx with
        | .inFrame f => f.arrival
        | _ => 0) = 9 := by decide +kernel

/-! ## Witnesses: concrete states and operands that meet the hypotheses of each obligation, clause by clause

A request's hypotheses are met by `test_request_is_asked` at any running state, type and body; a witness below gives the rest. -/

theorem witness_StepTakesTheFrontCommand :
    ({ State.reset with pending := [.identify, .restart] } : State).pending = .identify :: [.restart] := rfl

theorem witness_BoundaryPassesAMillisecond :
    (State.reset.pending = [] ∧ State.reset.running = false) ∧ up.pending = [] ∧ up.running = true ∧
      (∃ s : State, s.pending = [] ∧ s.running = true ∧ s.dir[(15 : EntryId)].lostTimer = some 0 ∧
        s.dir[(0 : EntryId)].lostTimer = some 1 ∧ s.time.timer = some 1) ∧ comesDue (some 0) ∧ comesDue (some 1) ∧
      ¬ comesDue (some 2) ∧ ¬ comesDue none :=
  ⟨by decide +kernel, by decide +kernel, by decide +kernel,
    ⟨{ atUnit (atUnit up 15 { resetEntry with lostTimer := some 0 }) 0 { resetEntry with lostTimer := some 1 } with
      time := { resetTime with timer := some 1 } }, by decide +kernel⟩, .inl rfl, .inr rfl, by simp [comesDue], by simp [comesDue]⟩

theorem witness_CommandsLeaveTheQueue :
    Instr.identify ≠ .pauseAsserted ∧ Instr.identify ≠ .pauseReleased ∧ (∀ h x, Instr.identify ≠ .powerOn h x) ∧
      (∀ x, Instr.identify ≠ .resetReleased x) ∧ Instr.identify ≠ .resetAsserted := by
  refine ⟨?_, ?_, ?_, ?_, ?_⟩ <;> intros <;> simp

theorem reset_in_reset : inReset State.reset := ⟨rfl, rfl, rfl, rfl, rfl, rfl, rfl, rfl, rfl, rfl, rfl, rfl, rfl⟩

theorem witness_ResetLeavesEveryBlockReset : up.resetPin = false ∧ State.reset.resetPin = true ∧ inReset State.reset :=
  ⟨rfl, rfl, reset_in_reset⟩

theorem default_profile_sound : profileSound defaultProfile := by
  refine ⟨fun l => ?_, ?_⟩
  · have h : defaultProfile.lines[l] = { enabled := true, d := 104, s := 16 } := by
      change (Vector.replicate 4 _)[l] = _
      simp
    rw [h]; simp only [lineItemsSound]; decide
  · simp only [inRange, Item.range]
    decide +kernel

theorem blank_store_sound : storeSound blankStore := by
  refine ⟨fun k => ?_, ?_, trivial⟩
  · have h : blankStore.blocks[k] = defaultProfile := by
      change (Vector.replicate 8 _)[k] = _
      simp
    rw [h]; exact default_profile_sound
  · intro h; cases h

/-- A RESTART whose reply is being sent. -/
def restarting : State :=
  { up with
    link :=
      { up.link with
        slots := up.link.slots.set 3 { state := .sending, type := 3, tag := 0, body := [], status := .ok, fields := [] }
        order := [3], restartPending := true, tx := some { src := .reply 3, bytes := [] } } }

theorem witness_StartUpFollowsReset :
    (memorySound State.reset.pool ∧ storeSound State.reset.store ∧ State.reset.resetPin = true ∧ inReset State.reset) ∧
      memorySound restarting.pool ∧ storeSound restarting.store ∧ restarting.running = true ∧ restarting.resetPin = false ∧
      restarting.link.restartPending = true ∧ restarting.link.tx = some { src := .reply 3, bytes := [] } ∧
      restarting.link.slots[(3 : SlotId)].type = 0x03 ∧ restarting.link.slots[(3 : SlotId)].status = .ok :=
  ⟨⟨rfl, blank_store_sound, rfl, reset_in_reset⟩, rfl, blank_store_sound, by decide +kernel⟩

theorem witness_PauseGatesTheTransmitter :
    up.running = true ∧ State.reset.running = false ∧ ({ up with pausePin := true } : State).pausePin = true ∧
      restarting.link.tx.isSome = true := by decide +kernel

theorem witness_PausedLinkBeginsNoRecord : ∃ s t : State, s.pausePin = true ∧ step s = .next t ∧ t.pausePin = true :=
  ⟨{ State.reset with pausePin := true }, { State.reset with pausePin := true }, rfl, rfl, rfl⟩

/-- Slot 3 finished, behind slot 1 not yet. -/
def finishedReply : State :=
  { up with
    link :=
      { up.link with
        slots := (up.link.slots.set 3 { state := .replied, type := 5, tag := 9, body := [], status := .ok, fields := [] }).set 1
          { state := .sending, type := 5, tag := 8, body := [], status := .ok, fields := [] }
        order := [1, 3] } }

theorem witness_OldestReplyLeavesFirst :
    finishedReply.running = true ∧ finishedReply.link.tx = none ∧ finishedReply.link.order = [1] ++ 3 :: [] ∧
      finishedReply.link.slots[(3 : SlotId)].state = .replied ∧
      ∀ j ∈ ([1] : List SlotId), finishedReply.link.slots[j].state ≠ .replied := by decide +kernel

theorem witness_StateNoticeFollowsReplies :
    (up.running = true ∧ up.link.tx = none ∧ ∀ i ∈ up.link.order, up.link.slots[i].state ≠ .replied) ∧
      (let s := atUnit up 15 { resetEntry with mark := true };
        s.dir[(15 : EntryId)].mark = true ∧ ∀ f < (15 : EntryId), s.dir[f].mark = false) ∧
      (let s := line4 up fun ln => { ln with mark := true };
        (∀ e : EntryId, s.dir[e].mark = false) ∧ s.lines[(3 : LineId)].mark = true ∧
          ∀ k < (3 : LineId), s.lines[k].mark = false) ∧
      (let s := atCard up 7 { resetCardCtx with mark := true };
        (∀ e : EntryId, s.dir[e].mark = false) ∧ (∀ l : LineId, s.lines[l].mark = false) ∧ s.card[(7 : Pos)].mark = true ∧
          ∀ q < (7 : Pos), s.card[q].mark = false) ∧
      (let s : State := { up with time := { up.time with mark := true } };
        (∀ e : EntryId, s.dir[e].mark = false) ∧ (∀ l : LineId, s.lines[l].mark = false) ∧
          (∀ p : Pos, s.card[p].mark = false) ∧ s.time.mark = true) := by decide +kernel

/-- A KEY notice entry of record 63. -/
def keyNote : Notice :=
  { record := 63, kind := .key, tag := 0, unit := none, pos := some 7, witnessed := false, resent := false }

theorem witness_NoticeQueuesInServiceOrder :
    (up.running = true ∧ up.link.tx = none ∧ (∀ i ∈ up.link.order, up.link.slots[i].state ≠ .replied) ∧
      (∀ e : EntryId, up.dir[e].mark = false) ∧ (∀ l : LineId, up.lines[l].mark = false) ∧
      (∀ p : Pos, up.card[p].mark = false) ∧ up.time.mark = false ∧ up.w0 = [] ∧ up.w1 = [] ∧ up.w2 = []) ∧
      ({ up with w0 := [keyNote] } : State).w0 = keyNote :: [] ∧
      (let s : State := { up with w2 := [keyNote], time := { up.time with mono := 1001 } };
        s.w0 = [] ∧ s.w2 = keyNote :: [] ∧ s.profile.bulkAge < elapsed s.time.mono s.pool.recs[keyNote.record].arrival) ∧
      (let s : State := { up with w1 := [keyNote], w2 := [keyNote], time := { up.time with mono := 1000 } };
        s.w0 = [] ∧ s.w1 = keyNote :: [] ∧
          ∀ m ∈ s.w2.head?, elapsed s.time.mono s.pool.recs[m.record].arrival ≤ s.profile.bulkAge) := by decide +kernel

/-- A notice being sent. -/
def sendingNotice (refs : Nat) : State :=
  let s := stored up 63 (.frame .key) .part [5]
  { s with
    pool := { s.pool with recs := s.pool.recs.set 63 { s.pool.recs[63] with refs := refs } }
    link := { s.link with tx := some { src := .notice 63, bytes := [] } } }

theorem witness_SentRecordFreesItsHolder :
    (let s : State := { restarting with link := { restarting.link with restartPending := false } };
      s.running = true ∧ s.link.tx = some { src := .reply 3, bytes := [] } ∧
        ¬ (s.link.restartPending = true ∧ s.link.slots[(3 : SlotId)].type = 0x03 ∧ s.link.slots[(3 : SlotId)].status = .ok)) ∧
      (let s := sendingNotice 2;
        s.running = true ∧ s.link.tx = some { src := .notice 63, bytes := [] } ∧ 2 ≤ s.pool.recs[(63 : RecId)].refs) ∧
      (let s := sendingNotice 1;
        s.link.tx = some { src := .notice 63, bytes := [] } ∧ s.pool.recs[(63 : RecId)].refs = 1) ∧
      ({ up with link := { up.link with tx := some { src := .mark, bytes := [] } } } : State).link.tx =
        some { src := .mark, bytes := [] } := by decide +kernel

/-- The link with bytes in its assembly buffer. -/
def assembling (bytes : List Byte) : State := { up with link := { up.link with asm := bytes } }

/-- A byte comes in its character, whether or not the receiver waits for mark. -/
theorem link_brings_bytes (k : Link) : ∀ b : Byte, bringsByte k (linkChar b) b := by
  have h : ∀ b : Byte, ∀ j : Fin 8, b.getLsbD j =
      [(linkChar b).d0, (linkChar b).d1, (linkChar b).d2, (linkChar b).d3, (linkChar b).d4, (linkChar b).d5, (linkChar b).d6,
        (linkChar b).d7][j] := fun b j => by fin_cases j <;> rfl
  exact fun b => ⟨.inl rfl, rfl, rfl, h b⟩

theorem witness_LinkBytesAssemble :
    (∀ b : Byte, bringsByte up.link (linkChar b) b) ∧ up.link.tx = none ∧
      (let k : Link := { up.link with tx := some { src := .mark, bytes := [0xC3, 1] } };
        k.tx = some { src := .mark, bytes := [0xC3, 1] } ∧ 1 < [(0xC3 : Byte), 1].length ∧ [(0xC3 : Byte), 1].length ≤ 2) ∧
      (let c := { linkChar 5 with start := true }; c.marked = true ∧ c.start = true) ∧
      (LinkChar.space.marked = true ∧ LinkChar.space.start = false ∧ LinkChar.space.stop = false) ∧
      (let c := { linkChar 5 with marked := false }; c.marked = false ∧ ({ up.link with awaitMark := true } : Link).awaitMark = true) ∧
      up.running = true ∧ up.link.rxOn = true ∧ up.link.asm = [] ∧ (0xC2 : Byte) ≠ 0xC3 ∧ (assembling [0xC3]).link.asm = [0xC3] ∧
      (assembling [0xC3, 5]).link.asm = [0xC3, 5] ∧ (assembling [0xC3, 5, 0]).link.asm = [0xC3, 5, 0] ∧
      (250 : Byte).toNat ≤ 250 ∧ (assembling [0xC3, 5, 0, 250, 7]).link.asm = 0xC3 :: 5 :: 0 :: 250 :: [7] ∧
      ([7] : List Byte).length < (250 : Byte).toNat ∧ (assembling [0xC3]).link.asm ≠ [] :=
  ⟨link_brings_bytes _, by decide +kernel⟩

theorem witness_WellFormedRecordIsSettled :
    (∀ b : Byte, bringsByte (assembling [0xC3, 0x3F, 0, 1, 0xC0]).link (linkChar b) b) ∧
      (let s := assembling [0xC3, 0x3F, 0, 1, 0xC0];
      s.running = true ∧ s.link.rxOn = true ∧ s.link.asm = 0xC3 :: 0x3F :: 0 :: 1 :: [0xC0] ∧
        ([0xC0] : List Byte).length = (1 : Byte).toNat ∧ byteSum ((0x3F : Byte) :: 0 :: 1 :: [0xC0] ++ [0x00]) = 0 ∧
        1 ≤ (0x3F : Byte).toNat ∧ (0x3F : Byte).toNat ≤ 0x3F ∧ s.link.restartPending = false ∧
        s.link.slots[(0 : SlotId)].state = .free ∧ ∀ j < (0 : SlotId), s.link.slots[j].state ≠ .free) ∧
      (let s := { finishedReply with
          link := { finishedReply.link with slots := finishedReply.link.slots.set 0 finishedReply.link.slots[1] } };
        s.link.slots[(2 : SlotId)].state = .free ∧ ∀ j < (2 : SlotId), s.link.slots[j].state ≠ .free) ∧
      (byteSum ((0x40 : Byte) :: 0 :: 0 :: [] ++ [0xC0]) = 0 ∧ 0x40 ≤ (0x40 : Byte).toNat) ∧
      byteSum ((0x00 : Byte) :: 0 :: 0 :: [] ++ [0x00]) = 0 ∧ restarting.link.restartPending = true ∧
      (let k : Link := { up.link with slots := Vector.replicate 4 finishedReply.link.slots[3] };
        ∀ i : SlotId, k.slots[i].state ≠ .free) := ⟨link_brings_bytes _, by decide +kernel⟩

theorem witness_DamagedRecordIsRescanned :
    (∀ b : Byte, bringsByte (assembling [0xC3, 5, 0]).link (linkChar b) b) ∧ (damagedBy [5, 0] 251 ∧ (0xC3 : Byte) ∉ ([5, 0] : List Byte) ++ [251] ∧ (assembling [0xC3, 5, 0]).link.asm = 0xC3 :: [5, 0]) ∧
      (damagedBy [5, 0, 2, 0xC3, 5] 9 ∧
        ([5, 0, 2, 0xC3, 5] : List Byte) ++ [9] = [5, 0, 2] ++ 0xC3 :: [5, 9] ∧ (0xC3 : Byte) ∉ ([5, 0, 2] : List Byte) ∧
        stillOpen [5, 9]) ∧
      damagedBy [5, 0, 4, 0xC3, 5, 0, 0] 0xFB ∧
      ([5, 0, 4, 0xC3, 5, 0, 0] : List Byte) ++ [0xFB] = [5, 0, 4] ++ 0xC3 :: 5 :: 0 :: 0 :: ([] ++ [0xFB]) ∧
      byteSum ((5 : Byte) :: 0 :: 0 :: [] ++ [0xFB]) = 0 ∧
      (damagedBy [5, 0, 4, 0xC3, 0, 0, 0] 0 ∧
        ([5, 0, 4, 0xC3, 0, 0, 0] : List Byte) ++ [0] = [5, 0, 4] ++ 0xC3 :: 0 :: 0 :: 0 :: ([] ++ [0]) ∧
        byteSum ((0 : Byte) :: 0 :: 0 :: [] ++ [0]) = 0 ∧ (0 : Byte).toNat = 0) ∧
      (damagedBy [5, 0, 4, 0xC3, 7, 0, 251] 9 ∧ damagedBy [7, 0] 251 ∧
        ([5, 0, 4, 0xC3, 7, 0, 251] : List Byte) ++ [9] = [5, 0, 4] ++ 0xC3 :: ([7, 0] ++ 251 :: [9]) ∧
        (0xC3 : Byte) ∉ ([7, 0] ++ 251 :: [9] : List Byte)) ∧
      (damagedBy [5, 0, 5, 0xC3, 7, 0, 251, 0xC3] 9 ∧
        ([5, 0, 5, 0xC3, 7, 0, 251, 0xC3] : List Byte) ++ [9] = [5, 0, 5] ++ 0xC3 :: ([7, 0] ++ 251 :: [0xC3, 9]) ∧
        ([7, 0] ++ 251 :: [0xC3, 9] : List Byte) = [7, 0, 251] ++ 0xC3 :: [9] ∧ (0xC3 : Byte) ∉ ([7, 0, 251] : List Byte) ∧
        stillOpen [9]) := by
  refine ⟨link_brings_bytes _, ⟨?_, ?_, ?_⟩, ⟨?_, ?_, ?_, ?_⟩, ?_, ?_, ?_, ⟨?_, ?_, ?_, ?_⟩, ⟨?_, ?_, ?_, ?_⟩, ⟨?_, ?_, ?_, ?_, ?_⟩⟩ <;>
    (try simp only [damagedBy, stillOpen]) <;> decide +kernel

theorem witness_DeviceRequestsAnswer :
    asks (withReq up 0x01 []) 0 0x01 [] ∧ asks (withReq up 0x02 [7]) 0 0x02 [7] ∧ asks (withReq up 0x3F []) 0 0x3F [] ∧
      asks (withReq up 0x03 []) 0 0x03 [] ∧ ([7] : List Byte) ≠ [] ∧ restarting.link.restartPending = true ∧
      (0x3F : Byte) ∉ ([0x01, 0x02, 0x03, 0x04, 0x05, 0x08, 0x09, 0x0A, 0x0C, 0x10, 0x11, 0x12, 0x13, 0x14, 0x18, 0x19, 0x1A, 0x20,
        0x21, 0x22, 0x28, 0x29, 0x2A, 0x2B, 0x2C, 0x30, 0x31, 0x32, 0x33] : List Byte) :=
  ⟨test_request_is_asked _ _ _ rfl rfl, test_request_is_asked _ _ _ rfl rfl, test_request_is_asked _ _ _ rfl rfl,
    test_request_is_asked _ _ _ rfl rfl, by decide, rfl, by decide⟩

/-- The house while UNATTENDED. -/
def closed : State := { house with time := { house.time with attended := false } }

/-- R164: a request that the expiry overtook is not handled while the part is UNATTENDED. -/
theorem test_no_request_is_handled_unattended :
    let s := withReq closed 0x01 []
    s.time.attended = false ∧ exec .identify s = .next s ∧
      (after .identify (withReq house 0x01 [])).link.slots[0].state ≠ .taken :=
  ⟨rfl, rfl, by decide +kernel⟩

theorem witness_TimeSetMovesTheOffset :
    asks (withReq up 0x04 [0, 1, 2, 0xFF]) 0 0x04 [0, 1, 2, 0xFF] ∧ asks (withReq up 0x04 [0, 1, 2]) 0 0x04 [0, 1, 2] ∧
      ([0, 1, 2] : List Byte).length ≠ 4 :=
  ⟨test_request_is_asked _ _ _ rfl rfl, test_request_is_asked _ _ _ rfl rfl, by decide⟩

theorem witness_TimeGetReports :
    asks (withReq up 0x05 []) 0 0x05 [] ∧ asks (withReq up 0x05 [0]) 0 0x05 [0] ∧ ([0] : List Byte) ≠ [] :=
  ⟨test_request_is_asked _ _ _ rfl rfl, test_request_is_asked _ _ _ rfl rfl, by decide⟩

theorem chunks_of_reset (s : State) (h : s.pool = resetPool []) : chunksSound s.pool := by
  rw [h]
  refine ⟨?_, fun r _ => ?_⟩
  · have : (resetPool []).recs.toList.flatMap Rec.chunks = [] := by decide +kernel
    rw [this, List.append_nil]
    simp only [resetPool, Config.chunks, List.Perm.refl]
  · change ((Vector.replicate 64 freeRec)[r]).chunks = []
    simp [freeRec]

theorem witness_PoolStatusReports :
    asks (withReq up 0x0C [1]) 0 0x0C [1] ∧ (1 : Byte).toNat ≤ 1 ∧ asks (withReq up 0x0C []) 0 0x0C [] ∧
      ([] : List Byte).length ≠ 1 ∧ asks (withReq up 0x0C [2]) 0 0x0C [2] ∧ 1 < (2 : Byte).toNat ∧ chunksSound up.pool :=
  ⟨test_request_is_asked _ _ _ rfl rfl, by decide, test_request_is_asked _ _ _ rfl rfl, by decide,
    test_request_is_asked _ _ _ rfl rfl, by decide, chunks_of_reset up rfl⟩

/-! ### Lines -/

/-- A state with n chunks free. -/
def lowOn (n : Nat) (s : State) : State := { s with pool := { s.pool with free := List.range n } }

/-- Line 4 STOPPED. -/
def stopped4 : State := line4 up fun _ => resetLine

theorem admits_at_57 : admissible (lowOn 57 up).profile (lowOn 57 up).pool 2 1 .part := by
  simp only [admissible, withinQuota, and_true]; decide +kernel
theorem refuses_at_56 : refusedAt (lowOn 56 up).profile (lowOn 56 up).pool 2 1 .part 2 := by
  simp only [refusedAt, withinQuota]; decide +kernel
theorem refuses_part_at_0 (s : State) (n : Nat) (c : Cls) (h : s.pool.free = []) (hn : 1 ≤ n) :
    refusedAt s.profile s.pool c n .part ⟨c.val, by omega⟩ := by
  refine .inl ⟨?_, rfl⟩
  simp [Pool.chunksFree, h]; omega

theorem witness_LineStartBeginsService :
    (asks (withReq stopped4 0x08 [byteOf 4]) 0 0x08 [byteOf 4] ∧ stopped4.lines[(3 : LineId)].state = .stopped ∧
      admissible (lowOn 57 up).profile (lowOn 57 up).pool 2 1 .part ∧
      refusedAt (lowOn 56 up).profile (lowOn 56 up).pool 2 1 .part 2) ∧
      (let s := atUnit stopped4 15 { resetEntry with state := .silent, line := 3 };
        s.dir[(15 : EntryId)].state = .silent ∧ s.dir[(15 : EntryId)].line = 3 ∧ s.dir[(0 : EntryId)].state ≠ .silent) ∧
      (asks (withReq up 0x08 [byteOf 4]) 0 0x08 [byteOf 4] ∧ up.lines[(3 : LineId)].state ≠ .stopped) ∧
      asks (withReq up 0x08 [0]) 0 0x08 [0] ∧ asks (withReq up 0x08 [5]) 0 0x08 [5] ∧ 4 < (5 : Byte).toNat ∧
      asks (withReq up 0x08 []) 0 0x08 [] ∧ ([] : List Byte).length ≠ 1 :=
  ⟨⟨test_request_is_asked _ _ _ rfl rfl, by decide +kernel, admits_at_57, refuses_at_56⟩, by decide +kernel,
    ⟨test_request_is_asked _ _ _ rfl rfl, by decide +kernel⟩, test_request_is_asked _ _ _ rfl rfl,
    test_request_is_asked _ _ _ rfl rfl, by decide, test_request_is_asked _ _ _ rfl rfl, by decide⟩

/-- Line 4 in a state. -/
def in4 (x : LineState) : State := line4 up fun ln => { ln with state := x }

theorem witness_LineStopDrainsOrForces :
    (∀ x : LineState, asks (withReq (in4 x) 0x09 [byteOf 4, 0]) 0 0x09 [byteOf 4, 0] ∧
      asks (withReq (in4 x) 0x09 [byteOf 4, 1]) 0 0x09 [byteOf 4, 1]) ∧
      (∀ x ∈ [LineState.stopped, .active, .draining, .stuck false, .stuck true], (in4 x).lines[(3 : LineId)].state = x) ∧
      asks (withReq up 0x09 [4]) 0 0x09 [4] ∧ ([4] : List Byte).length ≠ 2 ∧ asks (withReq up 0x09 [5, 0]) 0 0x09 [5, 0] ∧
      4 < (5 : Byte).toNat ∧ asks (withReq up 0x09 [4, 2]) 0 0x09 [4, 2] ∧ 1 < (2 : Byte).toNat :=
  ⟨fun _ => ⟨test_request_is_asked _ _ _ rfl rfl, test_request_is_asked _ _ _ rfl rfl⟩, by decide +kernel,
    test_request_is_asked _ _ _ rfl rfl, by decide, test_request_is_asked _ _ _ rfl rfl, by decide,
    test_request_is_asked _ _ _ rfl rfl, by decide⟩

theorem witness_LineStatusReports :
    asks (withReq up 0x0A [byteOf 4, 1]) 0 0x0A [byteOf 4, 1] ∧ (1 : Byte).toNat ≤ 1 ∧
      up.lines[(3 : LineId)].timing = some { d := 104, s := 16 } ∧ up.lines[(3 : LineId)].state ≠ .stopped ∧
      stopped4.lines[(3 : LineId)].state = .stopped ∧ asks (withReq up 0x0A []) 0 0x0A [] ∧ ([] : List Byte).length ≠ 2 ∧
      asks (withReq up 0x0A [4, 2]) 0 0x0A [4, 2] ∧ 1 < (2 : Byte).toNat :=
  ⟨test_request_is_asked _ _ _ rfl rfl, by decide, by decide +kernel, by decide +kernel, by decide +kernel,
    test_request_is_asked _ _ _ rfl rfl, by decide, test_request_is_asked _ _ _ rfl rfl, by decide⟩

theorem cards_empty (s : State) (h : s.card = Vector.replicate 8 resetCardCtx) (p : Pos) : cardSound s.card[p] := by
  have hp : s.card[p] = resetCardCtx := by rw [h]; exact Vector.getElem_replicate ..
  rw [hp]; simp only [cardSound, currentSound, resetCardCtx]; decide +kernel

theorem witness_StoppedLineEffects :
    house.dir[(15 : EntryId)].present = true ∧ house.dir[(15 : EntryId)].line = 3 ∧ slotOf house .keypad 7 = some 0 ∧
      house.dir[(0 : EntryId)].line = 3 ∧ slotOf house .reader 7 = some 15 ∧ house.dir[(1 : EntryId)].present = false ∧
      (∀ e : EntryId, slotOf house .keypad 0 = some e → house.dir[e].line ≠ 3) ∧ cardSound house.card[(7 : Pos)] :=
  ⟨by decide +kernel, by decide +kernel, by decide +kernel, by decide +kernel, by decide +kernel, by decide +kernel,
    by decide +kernel, cards_empty house rfl 7⟩

/-- A DISPLAY in record 0 on the control queue of line 4, at the keypad of entry 0. -/
def displayQueued (f : QEntry → QEntry) : State :=
  line4 (stored house 0 (.frame .display) .part (List.replicate 33 0x20)) fun ln =>
    { ln with control := [f (entryOf 0 1 (some 0) (.entry 7))] }

theorem quiet_others (s : State) (k : LineId) (h : ∀ k : LineId, k ≠ 3 → s.lines[k] = liveLine) (hk : k ≠ 3) :
    s.lines[k].state ≠ .draining ∧ s.lines[k].idle = false := by
  rw [h k hk]; decide

/-- A hunting line has no header in progress. -/
theorem no_header (ln : Line) (h : ln.rx = .hunting) : ¬ headerOpen ln := by
  rintro ⟨a, d, hx⟩; rw [h] at hx; cases hx

theorem witness_IdleLineChooses :
    (let s := line4 house fun ln => { ln with acks := [{ dest := 1, seq := true, accepted := false }] };
      s.running = true ∧ s.lines[(3 : LineId)].tx = none ∧ s.lines[(3 : LineId)].idle = false ∧
        ¬ headerOpen s.lines[(3 : LineId)] ∧
        (∀ k : LineId, k ≠ 3 → s.lines[k].state ≠ .draining ∧ s.lines[k].idle = false) ∧ s.lines[(3 : LineId)].state = .active ∧
        s.lines[(3 : LineId)].acks = { dest := 1, seq := true, accepted := false } :: []) ∧
      (let s := displayQueued id;
        goesFirst s.lines[(3 : LineId)] (entryOf 0 1 (some 0) (.entry 7)) ∧ s.lines[(3 : LineId)].acks = [] ∧
          s.pool.recs[(0 : RecId)].kind = .frame .display) ∧
      (let s := displayQueued fun q => { q with isOpen := true, awaiting := true, sent := true };
        (∀ x ∈ s.lines[(3 : LineId)].control ++ s.lines[(3 : LineId)].pass, ¬ mayGo s.lines[(3 : LineId)] x) ∧
          ∃ x ∈ s.lines[(3 : LineId)].control ++ s.lines[(3 : LineId)].pass, x.awaiting = true) ∧
      (in4 .draining).lines[(3 : LineId)].state = .draining := by
  refine ⟨⟨by decide +kernel, by decide +kernel, by decide +kernel, no_header _ (by decide +kernel), by decide +kernel⟩,
    ⟨⟨[], [], by decide +kernel, ?_, by simp⟩, by decide +kernel⟩, ⟨?_, by decide +kernel⟩, by decide +kernel⟩
  · simp only [mayGo]; decide +kernel
  · simp only [mayGo]; decide +kernel

theorem witness_CompleteDrainStopsTheLine :
    (∀ k : LineId, k ≠ 3 → (in4 .active).lines[k].state ≠ .draining ∧ (in4 .active).lines[k].idle = false) ∧
      (∀ x ∈ (in4 .active).lines[(3 : LineId)].control ++ (in4 .active).lines[(3 : LineId)].pass, x.awaiting = false) ∧
      asks (withReq (in4 .active) 0x09 [byteOf 4, 0]) 0 0x09 [byteOf 4, 0] ∧
      ((in4 .active).lines[(3 : LineId)].state = .active ∧ (in4 .active).lines[(3 : LineId)].tx = none ∧
        (in4 .active).lines[(3 : LineId)].acks = [] ∧ (in4 .active).lines[(3 : LineId)].rx = .hunting) ∧
      (line4 up fun ln => { ln with rx := .abandoned }).lines[(3 : LineId)].rx = .abandoned ∧
      (let a : PendingAck := { dest := 1, seq := true, accepted := true };
        let x : Tx := { src := .ack, chars := ackChars a, startedAt := 0, inDrain := true };
        let s := line4 (in4 .draining) fun ln => { ln with acks := [a], tx := some x };
        s.running = true ∧ s.lines[(3 : LineId)].state = .draining ∧ s.lines[(3 : LineId)].tx = some x ∧ x.src = .ack ∧
          s.lines[(3 : LineId)].acks = [a] ∧ s.lines[(3 : LineId)].rx = .hunting) :=
  ⟨by decide +kernel, by decide +kernel, test_request_is_asked _ _ _ rfl rfl, by decide +kernel, by decide +kernel,
    by decide +kernel⟩

/-- R41: a header whose start edge came before the DRAIN. -/
theorem witness_CompleteDrainStopsTheLine_header :
    let s := line4 (in4 .active) fun ln => { ln with rx := .completing 5 false }
    s.lines[(3 : LineId)].rx = .completing 5 false ∧ s.lines[(3 : LineId)].state = .active ∧ s.lines[(3 : LineId)].tx = none ∧
      s.lines[(3 : LineId)].acks = [] := by decide +kernel

theorem hears4 (s : State) (h : s.running = true) (ha : s.lines[(3 : LineId)].state = .active)
    (ht : s.lines[(3 : LineId)].tx = none) : hears s 3 := ⟨h, .inl ha, ht⟩
theorem clean_is_handed_on (b : Byte) : handedOn (cleanChar b) := ⟨rfl, rfl⟩

theorem witness_CharactersBuildFrames :
    (hears up 3 ∧ handedOn (cleanChar 0x82) ∧ up.lines[(3 : LineId)].rx = .hunting) ∧
      (hears (in4 .draining) 3 ∧ (in4 .draining).lines[(3 : LineId)].state = .draining) ∧
      (let s := line4 up fun ln => { ln with rx := .completing 5 true }; hears s 3 ∧ s.lines[(3 : LineId)].rx = .completing 5 true) ∧
      (let s := line4 up fun ln => { ln with rx := .abandoned }; hears s 3 ∧ s.lines[(3 : LineId)].rx = .abandoned) ∧
      (let f := { frameUpTo 0x3D 0 0x3D .undecided [] with stage := .second };
        hears (receiving4 up f) 3 ∧ (receiving4 up f).lines[(3 : LineId)].rx = .inFrame f ∧ f.stage = .second) ∧
      (let f := { frameUpTo 0x3C 0 0x3D .buffer [] with stage := .body 1 };
        hears (receiving4 up f) 3 ∧ (receiving4 up f).lines[(3 : LineId)].rx = .inFrame f ∧ f.stage = .body 1 ∧
          ∀ r e, f.dest ≠ .record r e) ∧
      (let f := { frameUpTo 0x39 0 0x3D (.record 63 15) [] with stage := .body 120 };
        hears (receiving4 up f) 3 ∧ (receiving4 up f).lines[(3 : LineId)].rx = .inFrame f ∧ f.stage = .body 120 ∧
          f.dest = .record 63 15) := by
  refine ⟨⟨?_, clean_is_handed_on _, ?_⟩, ⟨⟨?_, .inr ?_, ?_⟩, ?_⟩, ⟨hears4 _ ?_ ?_ ?_, ?_⟩, ⟨hears4 _ ?_ ?_ ?_, ?_⟩,
    ⟨hears4 _ ?_ ?_ ?_, ?_⟩, ⟨hears4 _ ?_ ?_ ?_, ?_, ?_, ?_⟩, ⟨hears4 _ ?_ ?_ ?_, ?_⟩⟩ <;>
    first
      | decide +kernel
      | exact hears4 _ (by decide +kernel) (by decide +kernel) (by decide +kernel)

theorem witness_BrokenReceptionIsCounted :
    hears up 3 ∧ (listens contending 3 ∧ contending.lines[(3 : LineId)].tx.isSome = true) ∧ bitValue { a := true, b := false, c := true } = true ∧
      (let c := { cleanChar 0 with stop := cleanBit false }; bitValue c.start = false ∧ bitValue c.stop = false) ∧
      (let f := frameUpTo 0x39 0 0 (.record 63 15) []; hears (receiving4 up f) 3 ∧
        (receiving4 up f).lines[(3 : LineId)].rx = .inFrame f) ∧
      (∀ f : RxFrame, up.lines[(3 : LineId)].rx ≠ .inFrame f) ∧
      (line4 up fun ln => { ln with rx := .abandoned }).lines[(3 : LineId)].rx = .abandoned := by
  have hr : up.lines[(3 : LineId)].rx = .hunting := by decide +kernel
  refine ⟨hears4 _ (by decide +kernel) (by decide +kernel) (by decide +kernel),
    ⟨⟨by decide +kernel, .inl (by decide +kernel)⟩, by decide +kernel⟩, by decide, by decide,
    ⟨hears4 _ (by decide +kernel) (by decide +kernel) (by decide +kernel), by decide +kernel⟩, fun f => ?_, by decide +kernel⟩
  rw [hr]; simp

/-! ### Frames from units -/

theorem hears_receiving (s : State) (f : RxFrame) (h : s.running = true) (ha : s.lines[(3 : LineId)].state = .active)
    (ht : s.lines[(3 : LineId)].tx = none) :
    hears (receiving4 s f) 3 ∧ (receiving4 s f).lines[(3 : LineId)].rx = .inFrame f := by
  have hl : (receiving4 s f).lines[(3 : LineId)] = { s.lines[(3 : LineId)] with rx := .inFrame f } :=
    Vector.getElem_set_self ..
  refine ⟨⟨h, .inl ?_, ?_⟩, ?_⟩ <;> rw [hl] <;> assumption

/-- The frame of a unit that takes its length character next. -/
def lengthNext (head second : Byte) : RxFrame := { frameUpTo head second 0 .undecided [] with stage := .length }

theorem admits_unit_at_house (n : Nat) (h : n ≤ 48) : admissible house.profile house.pool 1 n (.unit 15 3 14) := by
  have hF : house.pool.chunksFree = 256 := by decide +kernel
  have hG : house.pool.recsFree = 64 := by decide +kernel
  have hU : house.pool.unitHeld 15 = 0 := by decide +kernel
  have hk : keptBack house.profile 1 = 24 := by decide +kernel
  have hr : recordsAsked 1 = 5 := by decide
  have hq : house.profile.unitQuota = 48 := by decide +kernel
  refine ⟨?_, ?_, ?_⟩
  · rw [hF, hk]; omega
  · rw [hr, hG]; omega
  · simp only [withinQuota]; rw [hU, hq]; omega

theorem witness_LengthCharacterPlacesTheBody :
    (∀ head second : Byte, hears (receiving4 house (lengthNext head second)) 3 ∧
      (receiving4 house (lengthNext head second)).lines[(3 : LineId)].rx = .inFrame (lengthNext head second)) ∧
      (∀ b : Byte, handedOn (cleanChar b)) ∧ (charByte (cleanChar 121)).toNat = 121 ∧ (charByte (cleanChar 120)).toNat = 120 ∧
      (charByte (cleanChar 17)).toNat = 17 ∧ (charByte (cleanChar 16)).toNat = 16 ∧ (charByte (cleanChar 0)).toNat = 0 ∧
      ((0xBC : Byte).toNat / 64 = 2 ∧ rxKind (lengthNext 0xBC 0x00) = some .hello ∧ FrameKind.hello.family = .control) ∧
      rxKind (lengthNext 0x39 0xE0) = none ∧
      (rxKind (lengthNext 0x39 0x40) = some .alert ∧ FrameKind.alert.family = .event ∧
        entryAt house 3 (headSource 0x39) = some 15 ∧ entryAt house 3 (headSource 0x35) = none) ∧
      ((1 : Cls).val = min 2 ((0x39 : Byte).toNat % 4) ∧ admissible house.profile house.pool 1 4 (.unit 15 3 14) ∧
        refusedAt (lowOn 24 house).profile (lowOn 24 house).pool 1 1 (.unit 15 3 14) 1) := by
  refine ⟨fun _ _ => hears_receiving _ _ rfl (by decide +kernel) (by decide +kernel), clean_is_handed_on, by decide +kernel,
    by decide +kernel, by decide +kernel, by decide +kernel, by decide +kernel, by decide +kernel, by decide +kernel,
    by decide +kernel, by decide, admits_unit_at_house 4 (by omega), .inl ⟨by decide +kernel, by decide⟩⟩

/-- The check character of a good frame on line 4 of the house. -/
theorem settles_here (s : State) (f : RxFrame) (c : Byte) (k : FrameKind) (h : s.running = true)
    (ha : s.lines[(3 : LineId)].state = .active) (ht : s.lines[(3 : LineId)].tx = none) (hs : f.stage = .check)
    (hk : rxKind f = some k) (hw : wholeAndGood f (cleanChar c)) (hd : f.discarded = false) (hi : f.inDrain = false) :
    settles (receiving4 s f) 3 f (cleanChar c) k :=
  have hr := hears_receiving s f h ha ht
  ⟨⟨hr.1, clean_is_handed_on c, hr.2, hs⟩, hk, hw, hd, hi⟩

theorem settles_house (f : RxFrame) (c : Byte) (k : FrameKind) (hs : f.stage = .check) (hk : rxKind f = some k)
    (hw : wholeAndGood f (cleanChar c)) (hd : f.discarded = false) (hi : f.inDrain = false) :
    settles (receiving4 house f) 3 f (cleanChar c) k :=
  settles_here house f c k rfl (by decide +kernel) (by decide +kernel) hs hk hw hd hi

theorem witness_BadFrameIsDropped :
    (let f := frameUpTo 0x39 0x00 0x3A (.record 63 15) [];
      endsFrame (receiving4 house f) 3 f (cleanChar 0xC5) ∧ rxKind f = some .key ∧ f.sum + charByte (cleanChar 0xC5) ≠ 0) ∧
      (let f := { frameUpTo 0x39 0x00 0x3A (.record 63 15) [] with bad := true };
        f.sum + charByte (cleanChar 0xC6) = 0 ∧ (tookChar f (cleanChar 0xC6)).bad = true) ∧
      (let f := { frameUpTo 0x39 0x0F 0x3A .nowhere [] with discarded := true };
        wholeAndGood f (cleanChar 0xC6) ∧ f.discarded = true) ∧
      (let f := { frameUpTo 0x39 0x00 0x3A .nowhere [] with inDrain := true };
        wholeAndGood f (cleanChar 0xC6) ∧ f.discarded = false ∧ f.inDrain = true ∧ FrameKind.key ≠ .ack) := by
  have hr := hears_receiving house (frameUpTo 0x39 0x00 0x3A (.record 63 15) []) rfl (by decide +kernel) (by decide +kernel)
  refine ⟨⟨⟨hr.1, clean_is_handed_on _, hr.2, rfl⟩, by decide, by decide +kernel⟩, by decide +kernel, ?_, ?_⟩ <;>
    simp only [wholeAndGood] <;> decide +kernel

/-- R51, R52: a whole frame of an unknown kind. -/
theorem witness_BadFrameIsDropped_unknown_kind :
    let f := frameUpTo 0x39 0xE0 0x3A .nowhere []
    endsFrame (receiving4 house f) 3 f (cleanChar 0xC6) ∧ rxKind f = none ∧ wholeAndGood f (cleanChar 0xC6) ∧
      ∃ edge : Ms, Instr.characterReceived 3 5 (cleanChar 0xC6) = .characterReceived 3 edge (cleanChar 0xC6) := by
  have hr := hears_receiving house (frameUpTo 0x39 0xE0 0x3A .nowhere []) rfl (by decide +kernel) (by decide +kernel)
  refine ⟨⟨hr.1, clean_is_handed_on _, hr.2, rfl⟩, by decide +kernel, ?_, 5, rfl⟩
  simp only [wholeAndGood]; decide +kernel

theorem witness_UnitFrameIsStoredAndAnswered :
    (∀ d : BodyDest, settles (receiving4 house (frameUpTo 0x39 0x10 0x4A d [])) 3 (frameUpTo 0x39 0x10 0x4A d [])
      (cleanChar 0xB6) .key) ∧ FrameKind.key.family = .event ∧
      (entryAt house 3 (headSource 0x39) = some 15 ∧ house.dir[(15 : EntryId)].inBit ≠ some (secondSeq 0x10)) ∧
      (let s := atUnit house 15 { (unitAt .reader 0x0A3100000471 14) with inBit := some true };
        entryAt s 3 (headSource 0x39) = some 15 ∧ s.dir[(15 : EntryId)].inBit = some (secondSeq 0x10)) ∧
      entryAt up 3 (headSource 0x39) = none := by
  refine ⟨fun d => settles_house _ _ _ rfl ?_ ⟨?_, rfl, ?_⟩ rfl rfl, by decide +kernel⟩
  · change unitFrameKind (headFamily 0x39) (secondKind 0x10) = some .key
    decide +kernel
  · change (0x4A : Byte) + charByte (cleanChar 0xB6) = 0
    decide +kernel
  · decide +kernel

/-- R55, step 2: at the check character another entry holds the address. -/
theorem witness_UnitFrameIsStoredAndAnswered_other_holder :
    let s := atUnit (atUnit house 15 { (unitAt .reader 0x0A3100000471 14) with addr := some 13 }) 9 (unitAt .reader 0x55 14)
    entryAt s 3 (headSource 0x39) = some 9 ∧ s.dir[(15 : EntryId)].addr ≠ some (headSource 0x39) := by decide +kernel

theorem witness_StrayFrameDrawsAWho :
    (let s := line4 up fun ln => { ln with whoAt := ln.whoAt.set 14 (some 0) };
      s.lines[(3 : LineId)].whoAt[(14 : Addr).toNat] = some 0 ∧
        elapsed ({ s with time := { s.time with mono := 999 } } : State).time.mono 0 < 1000 ∧
        1000 ≤ elapsed ({ s with time := { s.time with mono := 1000 } } : State).time.mono 0) ∧
      ((14 : Addr) ≠ 0 ∧ (14 : Addr) ≠ 15 ∧ up.lines[(3 : LineId)].state ≠ .stopped ∧
        ∀ t : Ms, up.lines[(3 : LineId)].whoAt[(14 : Addr).toNat] ≠ some t) ∧
      admissible (lowOn 57 up).profile (lowOn 57 up).pool 2 1 .part ∧
      refusedAt (lowOn 56 up).profile (lowOn 56 up).pool 2 1 .part 2 := by
  have hw : up.lines[(3 : LineId)].whoAt[(14 : Addr).toNat] = none := by decide +kernel
  refine ⟨by decide +kernel, ⟨by decide, by decide, by decide +kernel, fun t => ?_⟩, admits_at_57, refuses_at_56⟩
  rw [hw]; simp

theorem admits_part (s : State) (c : Cls) (n : Nat) (h : s.pool = resetPool []) (hp : s.profile = defaultProfile) (hn : n ≤ 200) :
    admissible s.profile s.pool c n .part := by
  have hF : s.pool.chunksFree = 256 := by rw [h]; decide +kernel
  have hG : s.pool.recsFree = 64 := by rw [h]; decide +kernel
  have hk : keptBack s.profile c ≤ 56 := by rw [hp]; clear hF hG; revert c; decide +kernel
  have hr : recordsAsked c ≤ 9 := by clear hk; revert c; decide
  exact ⟨by omega, by omega, trivial⟩

theorem witness_AdmissionsAndPromises :
    ((0 : Cls).val = urgencyOf .grant ∧ (1 : Cls).val = urgencyOf .display ∧ (2 : Cls).val = urgencyOf .who) ∧
      stopped4.lines[(3 : LineId)].state = .stopped ∧ up.lines[(3 : LineId)].state ≠ .stopped ∧ memorySound up.pool ∧
      chunksSound up.pool ∧ (∀ c : Cls, admissible up.profile up.pool c (chunksNeeded 33) .part) ∧
      admissible up.profile up.pool 0 4 .part ∧ refusedAt (lowOn 0 up).profile (lowOn 0 up).pool 0 1 .part 0 ∧
      refusedAt (lowOn 3 up).profile (lowOn 3 up).pool 0 4 .part 0 ∧
      (let s := sessionOf (amount 5); ([] : List Byte).length ≤ 32 * s.pool.recs[(63 : RecId)].chunks.length ∧
        (List.replicate 32 (7 : Byte)).length ≤ 32 * s.pool.recs[(63 : RecId)].chunks.length) :=
  ⟨by decide, by decide +kernel, by decide +kernel, rfl, chunks_of_reset up rfl,
    fun c => admits_part up c _ rfl rfl (by decide), admits_part up 0 4 rfl rfl (by decide), refuses_part_at_0 _ 1 0 rfl (by decide),
    .inl ⟨by decide +kernel, rfl⟩, by decide +kernel⟩

/-- What the part offers of its own (R19, R79, R117): on a line in service and a STOPPED one, admitted and refused. -/
theorem witness_own_offers :
    (house.lines[house.dir[(15 : EntryId)].line].state ≠ .stopped ∧ stopped4.lines[(3 : LineId)].state = .stopped) ∧
      ((0 : Cls).val = urgencyOf .grant ∧ (0 : Cls).val = urgencyOf .refuse) ∧ memorySound house.pool ∧ chunksSound house.pool ∧
      (∀ c : Cls, admissible house.profile house.pool c (chunksNeeded 7) .part) ∧
      (∀ c : Cls, refusedAt (lowOn 0 house).profile (lowOn 0 house).pool c (chunksNeeded 7) .part ⟨c.val, by omega⟩) :=
  ⟨by decide +kernel, by decide, rfl, chunks_of_reset _ rfl, fun c => admits_part house c _ rfl rfl (by decide),
    fun c => refuses_part_at_0 (lowOn 0 house) _ c rfl (by decide)⟩

theorem witness_FramesEndWithAnOutcome :
    (entryOf 0 15 none .directory).owner = .directory ∧ (entryOf 0 15 none .timeBase).owner = .timeBase ∧
      (entryOf 0 1 (some 0) (.entry 7)).owner = .entry 7 ∧ (entryOf 0 14 (some 15) (.card 7)).owner = .card 7 ∧
      (let s := atCard up 7 { resetCardCtx with current := some (.read, 0) };
        s.card[(7 : Pos)].current = some (.read, (entryOf 0 14 (some 15) (.card 7)).record)) ∧
      (let s := atCard up 7 { resetCardCtx with current := some (.eject, 0) };
        CardCommand.eject ≠ .read ∧ s.card[(7 : Pos)].current = some (.eject, (entryOf 0 14 (some 15) (.card 7)).record)) ∧
      (∀ cmd, up.card[(7 : Pos)].current ≠ some (cmd, 0)) ∧
      (entryOf 0 14 (some 15) (.dispatch 63)).owner = .dispatch 63 ∧ (entryOf 0 14 (some 15) (.dispatch 63)).target = some 15 := by
  have h : up.card[(7 : Pos)].current = none := by decide +kernel
  refine ⟨rfl, rfl, rfl, rfl, by decide +kernel, by decide +kernel, fun cmd => ?_, rfl, rfl⟩
  rw [h]; simp

/-- A fan-out of two copies, the first ended. -/
def fanoutOf (n : Nat) : Fanout :=
  { sendDone := 62, body := 63, tag := 41, outstanding := n
    targets := [{ e := 0, identity := 1, line := 3, ended := true }, { e := 15, identity := 2, line := 3, ended := false }] }

theorem witness_CopiesAreGathered :
    (let s : State := { up with fanouts := [fanoutOf 1] };
      s.fanouts = [] ++ fanoutOf 1 :: [] ∧ (s.fanouts.map Fanout.sendDone).Nodup ∧
        (fanoutOf 1).targets = [{ e := 0, identity := 1, line := 3, ended := true }] ++
          { e := 15, identity := 2, line := 3, ended := false } :: [] ∧
        (∀ y ∈ ([{ e := 0, identity := 1, line := 3, ended := true }] : List Target), y.e = 15 → y.ended = true)) ∧
      (fanoutOf 1).outstanding = 1 ∧ 2 ≤ (fanoutOf 2).outstanding := by decide +kernel

/-! ### Control frames and ACKs -/

/-- A HELLO of a unit of the kind byte k, with the identity of six bytes. -/
def helloOf (i : List Byte) (k : Byte) : RxFrame := frameUpTo 0xBC 0x00 0xC3 .buffer (i ++ [k])

theorem hello_settles (s : State) (i : List Byte) (k : Byte) (h : s.running = true)
    (ha : s.lines[(3 : LineId)].state = .active) (ht : s.lines[(3 : LineId)].tx = none) :
    settles (receiving4 s (helloOf i k)) 3 (helloOf i k) (cleanChar 0x3D) .hello := by
  refine settles_here s _ _ _ h ha ht rfl ?_ ⟨?_, rfl, ?_⟩ rfl rfl
  · change unitFrameKind (headFamily 0xBC) (secondKind 0x00) = some .hello
    decide +kernel
  · change (0xC3 : Byte) + charByte (cleanChar 0x3D) = 0
    decide +kernel
  · decide +kernel

/-- All sixteen entries taken, by LOST pinned units, but for the states given. -/
def crowded (f : EntryId → DirEntry) : State := { house with dir := Vector.ofFn f }
/-- Line 4 with its fourteen addresses held. -/
def fullLine : State :=
  crowded fun e => { resetEntry with
    identity := BitVec.ofNat 48 (e.val + 1), state := if e.val < 14 then .active else .free, line := 3
    addr := if e.val < 14 then some (BitVec.ofNat 4 (e.val + 1)) else none }

theorem full_of (s : State) (l : LineId)
    (h : ∀ k : Fin 16, k ≠ 0 → k ≠ 15 →
      ∃ e : EntryId, s.dir[e].present = true ∧ s.dir[e].line = l ∧ s.dir[e].addr = some (BitVec.ofFin k)) : lineFull s l := by
  intro a h0 h15 hf
  obtain ⟨e, hp, hl, ha⟩ := h a.toFin (fun x => h0 (BitVec.eq_of_toFin_eq x)) (fun x => h15 (BitVec.eq_of_toFin_eq x))
  exact hf e hp hl ha

theorem lowest_of_two (s : State) (l : LineId) (h1 : ∃ e : EntryId, s.dir[e].present = true ∧ s.dir[e].line = l ∧
    s.dir[e].addr = some 1) (h2 : ∀ e : EntryId, s.dir[e].present = true → s.dir[e].line = l → s.dir[e].addr ≠ some 2) :
    lowestFree s l 2 := by
  refine ⟨by decide, by decide, h2, fun b hb hlt hf => ?_⟩
  have : b = 1 := by bv_omega
  obtain ⟨e, hp, hl, ha⟩ := h1
  exact hf e hp hl (this ▸ ha)

theorem witness_HelloIsAnswered :
    (∀ (i : List Byte) (k : Byte), settles (receiving4 house (helloOf i k)) 3 (helloOf i k) (cleanChar 0x3D) .hello) ∧
      ((helloOf [] 1).buf.length ≠ 7 ∧ byteAt (helloOf [1, 0, 0, 0, 0, 0] 3).buf 6 ≠ 1 ∧
        byteAt (helloOf [1, 0, 0, 0, 0, 0] 3).buf 6 ≠ 2 ∧ (helloOf [1, 0, 0, 0, 0, 0] 3).buf.length = 7) ∧
      (let f := helloOf [1, 0, 0, 0, 0, 0] 1;
        f.buf.length = 7 ∧ headSource f.head = 15 ∧
          byteAt f.buf 6 = UnitKind.reader.code ∧ identityAt f.buf 0 = 1) ∧
      (∀ e : EntryId, house.dir[e].state ≠ .free → house.dir[e].identity ≠ 1) ∧
      (let s := crowded fun e => { resetEntry with
          identity := BitVec.ofNat 48 (e.val + 2), state := .lost, pos := some 0, pinned := true };
        ∀ e : EntryId, s.dir[e].state ≠ .free ∧ (s.dir[e].state = .lost → s.dir[e].pinned = true)) ∧
      (takenForNew fullLine 14 ∧ lineFull fullLine 3) ∧ (takenForNew house 1 ∧ lowestFree house 3 2) ∧
      (let s := crowded fun e => { resetEntry with
          identity := BitVec.ofNat 48 (e.val + 2), state := .lost, lastHeard := if e = 3 then 5 else 9 };
        takenForNew { s with time := { s.time with mono := 10 } } 3) ∧
      (∀ p : Pos, some ((1 : Identity), p) ∉ house.profile.pins.toList) ∧
      (let pr := { defaultProfile with pins := defaultProfile.pins.set 15 (some (1, 7)) }; firstPin pr 1 7) ∧
      (slotOf house .reader 7 = some 15 ∧ house.dir[(15 : EntryId)].pinned = false) ∧
      (∀ x : EntryId, x ≠ 1 → house.dir[x].state ≠ .free → house.dir[x].kind = .reader → house.dir[x].pos ≠ some 0) ∧
      holds house 15 0x0A3100000471 ∧ house.dir[(15 : EntryId)].kind = .reader ∧ house.dir[(15 : EntryId)].line = 3 ∧
      house.dir[(15 : EntryId)].state ≠ .pending ∧ house.dir[(15 : EntryId)].addr = some 14 ∧
      (let s := atUnit house 15 { (unitAt .reader 0x0A3100000471 14) with state := .pending, grantTimer := some 9 };
        holds s 15 0x0A3100000471 ∧ s.dir[(15 : EntryId)].state = .pending) ∧
      (let s := atUnit house 15 { (unitAt .reader 0x0A3100000471 14) with line := 0 };
        holds s 15 0x0A3100000471 ∧ s.dir[(15 : EntryId)].line ≠ 3 ∧ lowestFree s 3 2) ∧
      (let s := atUnit house 15 { (unitAt .reader 0x0A3100000471 14) with state := .lost, addr := none };
        holds s 15 0x0A3100000471 ∧ s.dir[(15 : EntryId)].addr = none ∧ lowestFree s 3 2) := by
  refine ⟨fun i k => hello_settles house i k rfl (by decide +kernel) (by decide +kernel), by decide +kernel, by decide +kernel,
    by decide +kernel, by decide +kernel, ⟨?_, full_of _ _ (by decide +kernel)⟩,
    ⟨?_, lowest_of_two _ _ (by decide +kernel) (by decide +kernel)⟩, ?_, by decide +kernel,
    ⟨List.replicate 15 none, [], by decide +kernel, by decide +kernel⟩, by decide +kernel, by decide +kernel, ?_, by decide +kernel,
    by decide +kernel, by decide +kernel, by decide +kernel, ⟨?_, by decide +kernel⟩,
    ⟨?_, by decide +kernel, lowest_of_two _ _ (by decide +kernel) (by decide +kernel)⟩,
    ⟨?_, by decide +kernel, lowest_of_two _ _ (by decide +kernel) (by decide +kernel)⟩⟩ <;>
    simp only [takenForNew, holds] <;> decide +kernel

/-- A STATUS with its body. -/
def statusWith (head : Byte) (buf : List Byte) : RxFrame := frameUpTo head 0x20 0xC3 .buffer buf

theorem witness_StatusAndAckAreTaken :
    (∀ buf : List Byte, settles (receiving4 house (statusWith 0xB8 buf)) 3 (statusWith 0xB8 buf) (cleanChar 0x3D) .status) ∧
      (∀ x : Byte, x.toNat ≤ 1 →
        (statusWith 0xB8 []).buf ≠ [2, x] ∧ ∀ y : Byte, y.toNat ≤ 1 → (statusWith 0xB8 []).buf ≠ [1, x, y]) ∧
      (UnitKind.reader = .reader ∧ (statusWith 0xB8 [1, 1, 1]).buf = [1, Condition.fault.code, if true then 1 else 0]) ∧
      (statusWith 0x84 [2, 0]).buf = [2, Condition.ok.code] ∧ entryAt house 3 (headSource 0xB4) = none ∧
      (entryAt house 3 (headSource 0xB8) = some 15 ∧ house.dir[(15 : EntryId)].kind = .reader ∧
        house.dir[(15 : EntryId)].kind ≠ .keypad ∧ house.dir[(15 : EntryId)].pos = some 7 ∧ house.card[(7 : Pos)].state ≠ .fault) ∧
      (atCard house 7 { resetCardCtx with state := .fault }).card[(7 : Pos)].state = .fault ∧ house.time.attended = true ∧
      (let f := frameUpTo 0x44 0x10 0xC3 .buffer [1, 9];
        rxKind f = some .ack ∧ wholeAndGood f (cleanChar 0x3D) ∧ f.discarded = false ∧ headSource f.head = 1 ∧
          secondSeq f.second = true) ∧
      (let q := { entryOf 0 1 (some 0) (.entry 7) with awaiting := true, isOpen := true, sent := true, lastBit := true };
        firstEntry (displayQueued fun _ => q).lines[(3 : LineId)] q (fun x => x.awaiting = true ∧ x.dest = 1) ∧
          q.lastBit = true ∧ q.lastBit ≠ false) ∧
      (∀ q ∈ house.lines[(3 : LineId)].control ++ house.lines[(3 : LineId)].pass, ¬ (q.awaiting = true ∧ q.dest = 1)) := by
  refine ⟨fun buf => settles_house _ _ _ rfl ?_ ⟨?_, rfl, ?_⟩ rfl rfl, fun x _ => ⟨by simp [statusWith, frameUpTo], fun y _ => ?_⟩,
    by decide, by decide, by decide +kernel, by decide +kernel, by decide +kernel, by decide +kernel, ?_,
    ⟨⟨[], [], by decide +kernel, by decide, by simp⟩, by decide, by decide⟩, by decide +kernel⟩
  · change unitFrameKind (headFamily 0xB8) (secondKind 0x20) = some .status
    decide +kernel
  · change (0xC3 : Byte) + charByte (cleanChar 0x3D) = 0
    decide +kernel
  · decide +kernel
  · simp [statusWith, frameUpTo]
  · simp only [wholeAndGood]; decide +kernel

theorem witness_StuckLineRecovers :
    (up.running = true ∧ up.lines[(3 : LineId)].state = .active ∧ up.lines[(3 : LineId)].tx = none) ∧
      (in4 .draining).lines[(3 : LineId)].state = .draining ∧ contending.lines[(3 : LineId)].tx.isSome = true ∧
      ((in4 (.stuck false)).lines[(3 : LineId)].state = .stuck false ∧ (in4 (.stuck false)).lines[(3 : LineId)].tx = none ∧
        (in4 (.stuck false)).lines[(3 : LineId)].idle = false ∧ ¬ headerOpen (in4 (.stuck false)).lines[(3 : LineId)]) ∧
      (in4 (.stuck true)).lines[(3 : LineId)].state = .stuck true :=
  ⟨by decide +kernel, by decide +kernel, by decide +kernel,
    ⟨by decide +kernel, by decide +kernel, by decide +kernel, no_header _ (by decide +kernel)⟩, by decide +kernel⟩

/-- A transmission of the queue entry in record 0, after some attempts. -/
def sendingEntry (n : Nat) (x : TxSource) (target : Option EntryId) : State :=
  line4 (displayQueued fun q => { q with inTx := true, attempts := n, target := target }) fun ln =>
    { ln with tx := some { src := x, chars := [0x41, 0x21, 33], startedAt := 0, inDrain := false } }

theorem witness_TransmissionsEnd :
    (contending.running = true ∧
      contending.lines[(3 : LineId)].tx = some { src := .queued, chars := [0x41, 0x21, 33], startedAt := 0, inDrain := false } ∧
      sentBit 0x41 1 = true ∧ sentBit 0x41 10 = true ∧ sentBit 0x41 0 = false ∧ 2 < [0x41, 0x21, 33].length) ∧
      (∀ q ∈ up.lines[(3 : LineId)].control ++ up.lines[(3 : LineId)].pass, q.inTx = false) ∧
      (let q := { entryOf 0 1 (some 0) (.entry 7) with inTx := true, attempts := 1 };
        firstEntry (sendingEntry 1 .queued (some 0)).lines[(3 : LineId)] q (fun y => y.inTx = true) ∧ q.attempts < 2) ∧
      (let q := { entryOf 0 1 (some 0) (.entry 7) with inTx := true, attempts := 2 };
        firstEntry (sendingEntry 2 .queued (some 0)).lines[(3 : LineId)] q (fun y => y.inTx = true) ∧ 2 ≤ q.attempts ∧
          (sendingEntry 2 .queued (some 0)).pool.recs[q.record].kind = .frame .display ∧ q.target ≠ none) ∧
      (let q := { entryOf 0 1 none (.entry 7) with inTx := true };
        firstEntry (sendingEntry 0 .queued none).lines[(3 : LineId)] q (fun y => y.inTx = true) ∧ q.target = none) ∧
      (sendingEntry 0 (.detached 0) none).lines[(3 : LineId)].tx.map Tx.src = some (.detached 0) ∧
      (sendingEntry 0 .ack none).lines[(3 : LineId)].tx.map Tx.src = some .ack :=
  ⟨by decide +kernel, by decide +kernel, ⟨⟨[], [], by decide +kernel, rfl, by simp⟩, by decide⟩,
    ⟨⟨[], [], by decide +kernel, rfl, by simp⟩, by decide +kernel⟩, ⟨⟨[], [], by decide +kernel, rfl, by simp⟩, by decide⟩,
    by decide +kernel, by decide +kernel⟩

theorem witness_QueuedFramesTimeOut :
    (let q := { entryOf 0 1 (some 0) (.entry 7) with awaiting := true, isOpen := true, ackTimer := some 0, attempts := 2 };
      up.running = true ∧ firstEntry (displayQueued fun _ => q).lines[(3 : LineId)] q (fun y => y.awaiting = true ∧ y.dest = 1) ∧
        q.ackTimer = some 0 ∧ 2 ≤ q.attempts ∧ (displayQueued fun _ => q).lines[(3 : LineId)].state ≠ .draining ∧
        (displayQueued fun _ => q).lines[(3 : LineId)].state ≠ .stuck true) ∧
      ({ entryOf 0 1 (some 0) (.entry 7) with attempts := 1 } : QEntry).attempts < 2 ∧
      (in4 .draining).lines[(3 : LineId)].state = .draining ∧ (in4 (.stuck true)).lines[(3 : LineId)].state = .stuck true ∧
      (let q := { entryOf 0 1 (some 0) (.entry 7) with limitTimer := some 0 };
        firstEntry (displayQueued fun _ => q).lines[(3 : LineId)] q (fun y => y.record = q.record ∧ y.dest = q.dest) ∧
          q.limitTimer = some 0) :=
  ⟨⟨rfl, ⟨[], [], by decide +kernel, by decide, by simp⟩, by decide, by decide, by decide +kernel, by decide +kernel⟩, by decide,
    by decide +kernel, by decide +kernel, ⟨[], [], by decide +kernel, by decide, by simp⟩, by decide⟩

/-! ### Screening, the Directory's timers and requests, Dispatch -/

/-- A screen list with one entry in use. -/
def screening (s : State) (i : EntryId) (x : ScreenEntry) : State :=
  { s with profile := { s.profile with screen := s.profile.screen.set i x } }
/-- A KIND entry for KEY. -/
def keyScreen (a : ScreenAction) : ScreenEntry := { defaultScreenEntry with inUse := true, type := .kind, kind := .key, action := a }
/-- A SOURCE entry for line 4. -/
def lineScreen (a : ScreenAction) : ScreenEntry :=
  { defaultScreenEntry with inUse := true, selector := .line, selValue := 4, action := a, cls := 2 }

theorem witness_StoredFramesAreScreened :
    (screenKindNamed .key .key ∧ screenKindNamed .data .data) ∧
      (let s := screening house 15 (keyScreen .witness);
        firstScreen s (fun x => x.inUse = true ∧ x.type = .kind ∧ x.kind = .key) (some 15) ∧
          firstScreen s (fun x => x.inUse = true ∧ x.type = .source ∧ selects x s.dir[(0 : EntryId)] 3) none ∧
          queueOf s none (some 15) 3 2 ∧ actionOf s (some 15) = .witness) ∧
      (let s := screening house 15 (lineScreen .reclass);
        firstScreen s (fun x => x.inUse = true ∧ x.type = .source ∧ selects x s.dir[(0 : EntryId)] 3) (some 15) ∧
          queueOf s (some 15) none 0 2) ∧
      actionOf (screening house 0 (lineScreen .drop)) (some 0) = .drop ∧ actionOf house none ≠ .drop ∧
      (house.dir[(1 : EntryId)].state = .free ∧ house.dir[(0 : EntryId)].state ≠ .free ∧ house.dir[(0 : EntryId)].pos = some 7 ∧
        house.dir[(0 : EntryId)].kind = .keypad ∧ house.dir[(15 : EntryId)].kind = .reader) ∧
      (sessionOf (amount 5)).entry[(7 : Pos)].sess = some (amount 5) ∧ (amount 5).witness = true ∧
      (pinSession []).witness = false ∧ house.entry[(7 : Pos)].sess = none ∧
      (atEntry house 7 { resetEntryCtx with guardTimer := some 2000 }).entry[(7 : Pos)].guardTimer ≠ none ∧
      house.entry[(7 : Pos)].guardTimer = none ∧ house.time.attended = true := by
  have unused : ∀ i : EntryId, ¬ ((screening house 15 (keyScreen .witness)).profile.screen[i].inUse = true ∧
      (screening house 15 (keyScreen .witness)).profile.screen[i].type = .source) := by decide +kernel
  have below : ∀ j < (15 : EntryId), (screening house 15 (lineScreen .reclass)).profile.screen[j].inUse = false := by decide +kernel
  have here : (screening house 15 (lineScreen .reclass)).profile.screen[(15 : EntryId)] = lineScreen .reclass := by decide +kernel
  refine ⟨⟨trivial, trivial⟩, ⟨?_, fun i h => unused i ⟨h.1, h.2.1⟩, ⟨fun i h => ?_, fun i _ h => ?_, ?_⟩, by decide +kernel⟩,
    ⟨⟨⟨by decide +kernel, by decide +kernel, ?_⟩, fun j hj h => ?_⟩, ⟨fun i h => ?_, fun i _ h _ => ?_, ?_⟩⟩, by decide +kernel⟩
  · exact ⟨by decide +kernel, by decide +kernel⟩
  · cases h
    decide +kernel
  · cases h
  · decide +kernel
  · rw [here]
    change (4 : Identity).toNat % 256 = 3 + 1
    decide
  · have := below j hj
    simp only [this] at h
    exact absurd h.1 (by decide)
  · cases h
  · cases h
    decide +kernel
  · intro _ h
    exact absurd (by decide +kernel) h

theorem witness_UnitTimersSupervise :
    (let s := atUnit house 15 { (unitAt .reader 1 14) with state := .pending, grantTimer := some 0, grantAttempts := 2 };
      s.running = true ∧ s.dir[(15 : EntryId)].state = .pending ∧ s.dir[(15 : EntryId)].grantTimer = some 0 ∧
        s.dir[(15 : EntryId)].grantAttempts < 3 ∧ s.dir[(15 : EntryId)].established = true) ∧
      (let s := atUnit house 15 { (unitAt .reader 1 14) with state := .pending, grantAttempts := 3, established := false };
        3 ≤ s.dir[(15 : EntryId)].grantAttempts ∧ s.dir[(15 : EntryId)].established = false) ∧
      (let s := atUnit house 15 { (unitAt .reader 1 14) with silenceTimer := some 0 };
        s.dir[(15 : EntryId)].state = .active ∧ s.dir[(15 : EntryId)].silenceTimer = some 0) ∧
      (let s := atUnit house 15 { (unitAt .reader 1 14) with state := .silent, lostTimer := some 0 };
        s.dir[(15 : EntryId)].state = .silent ∧ s.dir[(15 : EntryId)].lostTimer = some 0) := by decide +kernel

theorem house_holds_reader : holds house 15 house.dir[(15 : EntryId)].identity := by
  simp only [holds]; decide +kernel

/-- A request at the house. -/
theorem asked_here (ty : Byte) (body : List Byte) : asks (withReq house ty body) 0 ty body :=
  test_request_is_asked _ _ _ rfl rfl

theorem witness_UnitsAreReported :
    (∀ (ty : Byte) (body : List Byte), asks (withReq house ty body) 0 ty body) ∧ ([0] : List Byte) ≠ [] ∧
      holds house 15 house.dir[(15 : EntryId)].identity ∧
      (∀ e : EntryId, house.dir[e].state ≠ .free → house.dir[e].identity ≠ 7) ∧ ([] : List Byte).length ≠ 6 :=
  ⟨asked_here, by decide, house_holds_reader, by decide +kernel, by decide⟩

theorem witness_BindingsChange :
    (∀ (ty : Byte) (body : List Byte), asks (withReq house ty body) 0 ty body) ∧
      holds house 15 house.dir[(15 : EntryId)].identity ∧ slotOf house house.dir[(15 : EntryId)].kind 7 = some 15 ∧
      slotOf house house.dir[(15 : EntryId)].kind 0 = none ∧ house.dir[(15 : EntryId)].pos ≠ none ∧
      (let s := atUnit house 1 { (unitAt .reader 7 2) with pos := none };
        holds s 1 s.dir[(1 : EntryId)].identity ∧ slotOf s s.dir[(1 : EntryId)].kind 7 = some 15 ∧ (15 : EntryId) ≠ 1 ∧
          s.dir[(1 : EntryId)].pos = none) ∧
      (∀ e : EntryId, house.dir[e].state ≠ .free → house.dir[e].identity ≠ 7) ∧ 8 < (9 : Byte).toNat ∧
      (List.replicate 6 (0 : Byte)).length = 6 ∧ ([] : List Byte).length ≠ 7 ∧ ([] : List Byte).length ≠ 6 := by
  refine ⟨asked_here, house_holds_reader, by decide +kernel, by decide +kernel, by decide +kernel, ⟨?_, by decide +kernel⟩,
    by decide +kernel⟩
  simp only [holds]; decide +kernel

theorem witness_ScreenListIsKept :
    (∀ (ty : Byte) (body : List Byte), asks (withReq house ty body) 0 ty body) ∧
      (selectorNamed (lineScreen .drop) ∧ selectorNamed { lineScreen .drop with selector := .position, selValue := 8 }) ∧
      (∀ (n : EntryId) (x : ScreenEntry), selectorNamed x → (16 : Byte) :: List.replicate 12 0 ≠ screenBytes n x) ∧
      ((16 : Byte) :: List.replicate 12 0).length = 13 ∧ ([] : List Byte).length ≠ 13 ∧ 16 ≤ (16 : Byte).toNat ∧
      2 ≤ ([15, 0] : List Byte).length := by
  refine ⟨asked_here, ⟨?_, ?_⟩, fun n x _ h => ?_, by decide, by decide, by decide, by decide⟩
  · simp only [selectorNamed, lineScreen]; decide
  · simp only [selectorNamed]; decide
  · simp only [screenBytes, List.cons_append, List.nil_append, List.cons.injEq] at h
    revert h
    intro h
    have h1 := h.1
    revert h1
    clear h
    revert n
    decide

/-- The body of a UNIT_SEND to position 8, both roles. -/
def sendBody (b0 b1 urg : Byte) (body : List Byte) : List Byte := b0 :: b1 :: leBytes 6 0 ++ urg :: byteOf body.length :: body

theorem witness_SendFansOut :
    (∀ (b0 b1 urg : Byte) (body : List Byte),
      asks (withReq house 0x1A (sendBody b0 b1 urg body)) 0 0x1A (sendBody b0 b1 urg body)) ∧
      (List.replicate 120 (7 : Byte)).length ≤ 120 ∧ ((3 : Byte) ≠ 1 ∧ (3 : Byte) ≠ 2) ∧ (2 : Cls).val = (2 : Byte).toNat ∧
      ((0x80 : Byte) ≠ 0 ∧ (0xFC : Byte).toNat % 4 = 0 ∧ (3 : Byte).toNat % 4 ≠ 0) ∧ sendTargets house 0x80 3 0 = [15, 0] ∧
      sendTargets house 0x01 3 0 = [] ∧ refusedAt (lowOn 0 house).profile (lowOn 0 house).pool 0 4 .part 0 ∧
      (∃ p : Pool, granted house.pool p 0 (promised house .sendDone 41) ∧ admissible house.profile house.pool 0 4 .part ∧
        memorySound house.pool ∧ chunksSound house.pool ∧
        admissible house.profile p 2 (chunksNeeded 120) (.workstation 41)) ∧
      (∃ p : Pool, granted (lowOn 4 house).pool p 0 (promised house .sendDone 41) ∧
        admissible (lowOn 4 house).profile (lowOn 4 house).pool 0 4 .part ∧
        refusedAt house.profile p 2 (chunksNeeded 120) (.workstation 41) 2) ∧
      (house.lines[(3 : LineId)].state ≠ .stopped ∧ house.dir[(15 : EntryId)].addr = some 14) ∧
      stopped4.lines[(3 : LineId)].state = .stopped ∧
      (∀ body : List Byte, asks (withReq house 0x1A body) 0 0x1A body) ∧ ([] : List Byte).length < 10 ∧
      (0 :: 0 :: leBytes 6 0 ++ [1, 1] : List Byte).length ≠
        10 + (byteAt (0 :: 0 :: leBytes 6 0 ++ [1, 1]) 9).toNat ∧ 120 < (byteAt (List.replicate 9 0 ++ [121]) 9).toNat := by
  refine ⟨fun _ _ _ _ => asked_here _ _, by decide, by decide, by decide, by decide, by decide +kernel, by decide +kernel,
    .inl ⟨by decide +kernel, rfl⟩,
    ⟨house.pool.grant 0 (promised house .sendDone 41), ?_, admits_part house 0 4 rfl rfl (by decide), rfl, chunks_of_reset house rfl,
      ?_⟩,
    ⟨(lowOn 4 house).pool.grant 0 (promised house .sendDone 41), ?_, ?_, .inl ⟨?_, rfl⟩⟩, by decide +kernel, by decide +kernel,
    fun _ => asked_here _ _, by decide, by decide, by decide⟩
  · simp only [granted]; decide +kernel
  · simp only [admissible, withinQuota]; decide +kernel
  · simp only [granted]; decide +kernel
  · simp only [admissible, withinQuota]; decide +kernel
  · decide +kernel

/-! ### Contexts -/

theorem witness_SessionsOpen :
    (∀ body : List Byte, asks (withReq house 0x20 body) 0 0x20 body) ∧
      (fieldSound (.amount 3 999999999999 0) ∧ fieldSound (.digits 1 24 true) ∧ fieldSound (.pin 4 12) ∧ fieldSound .confirm) ∧
      (List.replicate 16 (0x45 : Byte)).length = 16 ∧ ([0x24, 0, 0] : List Byte).length = 3 ∧ (3 : Byte).toNat ≤ 3 ∧
      (∀ e : EntryId, ¬ servesSessions up 7 e) ∧ servesSessions house 7 0 ∧ house.entry[(7 : Pos)].sess = none ∧
      (sessionOf (amount 5)).entry[(7 : Pos)].sess ≠ none ∧ servesSessions (sessionOf (amount 5)) 7 0 ∧
      admissible house.profile house.pool 0 1 .part ∧ refusedAt (lowOn 0 house).profile (lowOn 0 house).pool 0 1 .part 0 ∧
      ([8] : List Byte).length < 2 ∧ (byteAt [8, 4] 1 = 4 ∧ ([8, 4] : List Byte).length ≠ 24) ∧ byteAt [8, 5] 1 = 5 ∧
      4 < (5 : Byte).toNat ∧
      (let body := openBody 7 .confirm 0 0 (List.replicate 16 0x45) 4 [0, 0, 0];
        body.length = 24 ∧ byteAt body 1 = 4 ∧ byteAt body 0 = byteOf 8 ∧ 3 < (byteAt body 20).toNat) ∧
      (let body := openBody 7 (.pin 3 12) 0 0 (List.replicate 16 0x45) 0 [0, 0, 0];
        body.length = 26 ∧ byteAt body 1 = 3 ∧ ∀ f : Field, fieldSound f → body.drop 24 ≠ fieldBytes f) := by
  refine ⟨asked_here _, ?_, by decide, by decide, by decide, ?_, ?_, by decide +kernel, by decide +kernel, ?_,
    admits_part house 0 1 rfl rfl (by decide), refuses_part_at_0 _ 1 0 rfl (by decide), by decide, by decide, by decide, by decide,
    by decide +kernel, by decide +kernel, by decide +kernel, fun f hf h => ?_⟩
  · simp only [fieldSound]; decide
  · simp only [servesSessions]; decide +kernel
  · simp only [servesSessions]; decide +kernel
  · simp only [servesSessions]; decide +kernel
  · have hb : (openBody 7 (.pin 3 12) 0 0 (List.replicate 16 0x45) 0 [0, 0, 0]).drop 24 = [3, 12] := by decide +kernel
    rw [hb] at h
    cases f with
    | pin lo hi =>
      obtain ⟨h1, h2, h3⟩ := hf
      have h0 : (3 : Byte) = byteOf lo := (List.cons.inj h).1
      have := congrArg BitVec.toNat h0
      simp at this
      omega
    | amount d a b => simpa [fieldBytes, leBytes] using congrArg List.length h
    | digits lo hi m => simpa [fieldBytes] using congrArg List.length h
    | confirm => simpa [fieldBytes] using congrArg List.length h

/-- R114: bad parameters of a sound kind and length, at each check that may come before theirs. -/
theorem witness_SessionsOpen_bad_parameters :
    let body := openBody 7 (.pin 3 12) 0 0 (List.replicate 16 0x45) 4 [0, 0, 0]
    (byteAt body 0 = byteOf ((7 : Pos).val + 1) ∧ byteAt body 1 = 3 ∧ body.length = 26 ∧ 3 < (byteAt body 20).toNat) ∧
      (∀ e : EntryId, ¬ servesSessions up 7 e) ∧ servesSessions (sessionOf (amount 5)) 7 0 ∧
      (sessionOf (amount 5)).entry[(7 : Pos)].sess ≠ none ∧ servesSessions house 7 0 ∧ house.entry[(7 : Pos)].sess = none := by
  simp only [servesSessions]; decide +kernel

theorem witness_SessionsEnd :
    (valueSound (amount 500000) ∧ fieldSound (amount 500000).field) ∧
      (valueSound (pinSession [1, 2, 3, 4, 5, 6]) ∧ fieldSound (pinSession []).field ∧
        (∃ lo hi, (pinSession []).field = .pin lo hi) ∧ house.profile.pinGuard ≠ 0) ∧
      (∀ lo hi, (amount 5).field ≠ .pin lo hi) ∧ house.entry[(7 : Pos)].sess = none ∧
      (sessionOf (amount 5)).entry[(7 : Pos)].sess = some (amount 5) ∧
      ({ amount 5 with active := false, firstTimer := some 0, interTimer := none } : Session).firstTimer = some 0 ∧
      ({ amount 5 with interTimer := some 0 } : Session).interTimer = some 0 ∧ (sessionOf (amount 5)).running = true ∧
      asks (withReq (sessionOf (amount 5)) 0x21 [byteOf 8]) 0 0x21 [byteOf 8] ∧ asks (withReq house 0x21 [9]) 0 0x21 [9] ∧
      8 < (9 : Byte).toNat ∧ asks (withReq house 0x21 []) 0 0x21 [] := by
  refine ⟨⟨?_, ?_⟩, ⟨?_, ?_, ⟨4, 6, rfl⟩, by decide +kernel⟩, fun _ _ => by simp [amount], by decide +kernel, by decide +kernel,
    rfl, rfl, rfl, test_request_is_asked _ _ _ rfl rfl, asked_here _ _, by decide, asked_here _ _⟩ <;>
    simp only [valueSound, fieldSound, amount, pinSession] <;> decide

/-- The house with a context at position 8 that has the keypad as its target. -/
def targeted (c : EntryCtx) : State := atEntry house 7 { c with target := some (0, 0x0A3200000233) }

theorem witness_DisplaysReachTheKeypad :
    unreached up 7 ∧ (reached (targeted resetEntryCtx) 7 0 1 ∧ house.dir[(0 : EntryId)].line = 3 ∧
      house.lines[(3 : LineId)].state ≠ .stopped ∧ stopped4.lines[(3 : LineId)].state = .stopped) ∧
      ((displayQueued id).lines[(3 : LineId)].control = [] ++ entryOf 0 1 (some 0) (.entry 7) :: [] ∧
        unsentDisplay (displayQueued id) 7 1 (entryOf 0 1 (some 0) (.entry 7))) ∧
      house.lines[(3 : LineId)].control = [] ∧
      ((offerControl (targeted resetEntryCtx) 3 .display 1 (some 0) (.entry 7) (List.replicate 33 0x20)).2 = .carried 0 ∧
        (offerControl (lowOn 0 (targeted resetEntryCtx)) 3 .display 1 (some 0) (.entry 7) (List.replicate 33 0x20)).2 = .refused) ∧
      (targeted { resetEntryCtx with guardTimer := some 0 }).entry[(7 : Pos)].guardTimer = some 0 ∧
      (let s := targeted { resetEntryCtx with retryTimer := some 0, dispPending := true };
        s.running = true ∧ s.entry[(7 : Pos)].retryTimer = some 0 ∧ s.entry[(7 : Pos)].dispPending = true ∧
          s.entry[(7 : Pos)].target = some (0, 0x0A3200000233) ∧ s.dir[(0 : EntryId)].state ≠ .free ∧
          s.dir[(0 : EntryId)].identity = 0x0A3200000233 ∧ s.lines[s.dir[(0 : EntryId)].line].state ≠ .stopped) ∧
      (∀ (e : EntryId) (i : Identity), up.entry[(7 : Pos)].target = some (e, i) →
        up.dir[e].state = .free ∨ up.dir[e].identity ≠ i ∨ up.lines[up.dir[e].line].state ≠ .stopped) := by
  have hn : up.entry[(7 : Pos)].target = none := by decide +kernel
  refine ⟨fun e i h => ?_, ⟨⟨0x0A3200000233, by decide +kernel⟩, by decide +kernel⟩, ⟨by decide +kernel, ?_⟩, by decide +kernel,
    by decide +kernel, by decide +kernel, by decide +kernel, fun e i h => ?_⟩
  · rw [hn] at h; cases h
  · simp only [unsentDisplay]; decide +kernel
  · rw [hn] at h; cases h

theorem witness_KeysEditTheValue :
    (9 ≤ 9 ∧ (sessionOf (amount 5)).entry[(7 : Pos)].sess = some (amount 5) ∧ keyOfCode 0x11 = .function ∧ keyOfCode 0x14 = .function ∧
      keyOfCode 0x0F = .unknown ∧ keyOfCode 0x15 = .unknown ∧ keyOfCode 9 = .key (.digit 9)) ∧
      keyEffect (amount 50000) (.digit 0) = .accepts { amount 50000 with value := 500000 } ∧
      keyEffect (amount 50000) (.digit 1) = .refuses ∧ keyEffect (amount 100) .enter = .ends .completed .enter ∧
      keyEffect (amount 99) .enter = .refuses ∧ keyEffect (pinSession [1, 2, 3, 4]) .enter = .ends .completed .enter ∧
      (∃ lo hi, (pinSession []).field = .pin lo hi) ∧ (∀ lo hi, (amount 5).field ≠ .pin lo hi) ∧ house.time.attended = true ∧
      ([0x0A, 0x0B] : List Byte).filter (fun b => decide (0x0A < b.toNat)) = [0x0B] ∧ (0x0A : Byte).toNat ≤ 0x0A ∧
      (∀ b ∈ ([0x0B] : List Byte), 0x0A < b.toNat) ∧ ([0x0B] : List Byte) ≠ [] ∧
      ({ house with time := { house.time with attended := false } } : State).time.attended = false ∧
      ((amount 125).field = .amount 2 500000 100 ∧ (amount 125).value / 10 ^ 2 < 10 ^ 1) ∧
      (10 ^ (13 - 1) ≤ 9999999999999 ∧ 9999999999999 < 10 ^ 13) :=
  ⟨by decide +kernel, by simp [keyEffect, amountEffect, amount], by simp [keyEffect, amountEffect, amount],
    by simp [keyEffect, amountEffect, amount], by simp [keyEffect, amountEffect, amount],
    by simp [keyEffect, listEffect, pinSession], ⟨4, 6, rfl⟩, fun _ _ => by simp [amount], rfl, by decide, by decide, by decide,
    by decide, rfl, ⟨rfl, by decide⟩, by decide⟩

/-- The house with a card context at position 8. -/
def carded (c : CardCtx) : State := atCard house 7 c

theorem served (c : CardCtx) : readerServes (carded c) 7 15 14 :=
  have h : readerServes house 7 15 14 := ⟨by decide +kernel, by decide +kernel, by decide +kernel⟩
  h

theorem witness_CardRequestsCommandTheReader :
    (∀ (c : CardCtx) (ty : Byte) (body : List Byte), asks (withReq (carded c) ty body) 0 ty body) ∧ 7 < (8 : Byte).toNat ∧
      (1 ≤ (7 : Byte).toNat ∧ (7 : Byte).toNat ≤ 7) ∧ (∀ c : CardCtx, readerServes (carded c) 7 15 14) ∧ readerAway up 7 ∧
      (∀ x : CardState, (carded { resetCardCtx with state := x }).card[(7 : Pos)].state = x) ∧
      (let s := carded { resetCardCtx with state := .present };
        refusedAt (lowOn 0 s).profile (lowOn 0 s).pool 0 1 .part 0 ∧
          ∃ p : Pool, granted s.pool p 0 (promised s .readDone 41) ∧ admissible s.profile s.pool 0 1 .part ∧
            (offerControl { s with pool := p } s.dir[(15 : EntryId)].line .cardCommand 14 (some 15) (.card 7) [1, 7]).2 =
              .carried 1) ∧
      (let s := lowOn 1 (carded { resetCardCtx with state := .present });
        ∃ p : Pool, granted s.pool p 0 (promised s .readDone 41) ∧ admissible s.profile s.pool 0 1 .part ∧
          (offerControl { s with pool := p } s.dir[(15 : EntryId)].line .cardCommand 14 (some 15) (.card 7) [1, 7]).2 = .refused) ∧
      (let s := carded { resetCardCtx with state := .reading };
        s.card[(7 : Pos)].state ∈ [CardState.present, .reading, .read] ∧ s.card[(7 : Pos)].state ∉ [CardState.empty, .retaining] ∧
          (offerControl s s.dir[(15 : EntryId)].line .cardCommand 14 (some 15) (.card 7) [2, 0]).2 = .carried 0) ∧
      8 < (9 : Byte).toNat ∧ ([1, 7] : List Byte).length ≠ 3 := by
  refine ⟨fun _ _ _ => test_request_is_asked _ _ _ rfl rfl, by decide, by decide, served, ?_, fun x => ?_,
    ⟨refuses_part_at_0 _ 1 0 rfl (by decide),
      ⟨(carded { resetCardCtx with state := .present }).pool.grant 0 (promised house .readDone 41), ?_, ?_, by decide +kernel⟩⟩,
    ⟨(lowOn 1 (carded { resetCardCtx with state := .present })).pool.grant 0 (promised house .readDone 41), ?_, ?_,
      by decide +kernel⟩, by decide +kernel, by decide, by decide⟩
  · have hn : slotOf up .reader 7 = none := by decide +kernel
    intro e h; rw [hn] at h; cases h
  · simp [carded, atCard]
  · simp only [granted]; decide +kernel
  · exact admits_part _ 0 1 rfl rfl (by decide)
  · simp only [granted]; decide +kernel
  · simp only [admissible, withinQuota]; decide +kernel

/-- A card context in READ that holds track 3 in record 63. -/
def holdingTrack (refs : Nat) : State :=
  let s := stored (carded { resetCardCtx with state := .read, mask := 4, holds := #v[none, none, some (.ok, 63)] }) 63
    (.frame .track) (.unit 15 3 14) [3, 0, 0x31]
  { s with pool := { s.pool with recs := s.pool.recs.set 63 { s.pool.recs[63] with refs := refs } } }

theorem witness_ResentTracksAreQueuedAgain :
    (∀ (n : Nat) (body : List Byte), asks (withReq (holdingTrack n) 0x29 body) 0 0x29 body) ∧
      (∀ body : List Byte, asks (withReq house 0x29 body) 0 0x29 body) ∧ house.card[(7 : Pos)].state ≠ .read ∧
      (holdingTrack 1).card[(7 : Pos)].state = .read ∧
      (∃ r ∈ heldBy (holdingTrack 20).card[(7 : Pos)], 20 ≤ (holdingTrack 20).pool.recs[r].refs) ∧
      (∀ r ∈ heldBy (holdingTrack 19).card[(7 : Pos)], (holdingTrack 19).pool.recs[r].refs < 20) ∧
      refusedAt (lowOn 0 (holdingTrack 1)).profile (lowOn 0 (holdingTrack 1)).pool 0 1 .part 0 ∧
      (∃ (pl q : Pool) (ns : List Notice), granted (holdingTrack 19).pool pl 0 (promised house .readDone 41) ∧
        admissible (holdingTrack 19).profile (holdingTrack 19).pool 0 1 .part ∧ (heldBy (holdingTrack 19).card[(7 : Pos)]).Nodup ∧
        (∀ r ∈ heldBy (holdingTrack 19).card[(7 : Pos)], (holdingTrack 19).pool.recs[r].state ≠ .free) ∧
        q = { pl with recs := q.recs } ∧
        (∀ r : RecId, q.recs[r] =
          if r ∈ heldBy (holdingTrack 19).card[(7 : Pos)] then { pl.recs[r] with refs := pl.recs[r].refs + 1 } else pl.recs[r]) ∧
        List.Forall₂ (fun r n => ∃ (e : EntryId) (l : LineId) (a : Addr), (holdingTrack 19).pool.recs[r].origin = .unit e l a ∧
          n = trackEntry (holdingTrack 19) 7 e r true) (heldBy (holdingTrack 19).card[(7 : Pos)]) ns) ∧
      ([] : List Byte).length ≠ 1 ∧ 8 < (9 : Byte).toNat := by
  have hh : heldBy (holdingTrack 19).card[(7 : Pos)] = [63] := by decide +kernel
  refine ⟨fun _ _ => test_request_is_asked _ _ _ rfl rfl, asked_here _, by decide +kernel, by decide +kernel, by decide +kernel,
    by decide +kernel, refuses_part_at_0 _ 1 0 rfl (by decide), ?_, by decide, by decide⟩
  let pl := (holdingTrack 19).pool.grant 0 (promised house .readDone 41)
  refine ⟨pl, { pl with recs := pl.recs.set 63 { pl.recs[63] with refs := pl.recs[63].refs + 1 } },
    [trackEntry (holdingTrack 19) 7 15 63 true], ?_, ?_, by decide +kernel, by decide +kernel, rfl, by decide +kernel, ?_⟩
  · simp only [granted]; decide +kernel
  · simp only [admissible, withinQuota]; decide +kernel
  · rw [hh]
    exact .cons ⟨15, 3, 14, by decide +kernel, rfl⟩ .nil

theorem witness_CardContextsMove :
    (let s := carded { resetCardCtx with state := .reading, readTimer := some 0, result := some 63, mask := 4 };
      s.running = true ∧ s.card[(7 : Pos)].readTimer = some 0 ∧ s.card[(7 : Pos)].result = some 63 ∧
        s.card[(7 : Pos)].state = .reading ∧ heldBy s.card[(7 : Pos)] = []) ∧
      (carded { resetCardCtx with moveTimer := some 0 }).card[(7 : Pos)].moveTimer = some 0 ∧
      (let s := carded { resetCardCtx with state := .presented, takeTimer := some 0 };
        s.card[(7 : Pos)].takeTimer = some 0 ∧ readerServes s 7 15 14 ∧
          (offerControl s s.dir[(15 : EntryId)].line .cardCommand 14 (some 15) (.card 7) [3, 0]).2 = .carried 0 ∧
          (offerControl (lowOn 0 s) s.dir[(15 : EntryId)].line .cardCommand 14 (some 15) (.card 7) [3, 0]).2 = .refused) ∧
      (∀ x : CardState, (carded { resetCardCtx with state := x }).card[(7 : Pos)].state = x) ∧
      (house.time.attended = true ∧ house.profile.readOnInsert.getLsbD (7 : Pos).val = false ∧
        ({ house.profile with readOnInsert := 0x80 } : Profile).readOnInsert.getLsbD (7 : Pos).val = true) ∧
      (let s := carded resetCardCtx;
        refusedAt (lowOn 0 s).profile (lowOn 0 s).pool 0 1 .part 0 ∧
          ∃ p : Pool, granted s.pool p 0 (promised s .readDone 0) ∧ admissible s.profile s.pool 0 1 .part ∧
            (offerControl { s with pool := p } s.dir[(15 : EntryId)].line .cardCommand 14 (some 15) (.card 7) [1, 7]).2 =
              .carried 1) ∧
      (let s := stored house 63 (.frame .cardMove) (.unit 15 3 14) [1];
        s.pool.body 63 = [1] ∧ (Movement.ofCode 1).isSome = true ∧ (Movement.ofCode 5).isSome = true ∧ Movement.ofCode 6 = none) ∧
      (let s := atCard (stored house 63 (.frame .track) (.unit 15 3 14) [3, 0, 0x31]) 7
          { resetCardCtx with state := .reading, mask := 4, result := some 62 };
        s.pool.body 63 = byteOf ((2 : Fin 3).val + 1) :: TrackStatus.ok.code :: [0x31] ∧ s.card[(7 : Pos)].state = .reading ∧
          s.card[(7 : Pos)].mask.getLsbD 2 = true ∧ s.card[(7 : Pos)].mask.getLsbD 0 = false ∧ s.card[(7 : Pos)].holds[(2 : Fin 3)] = none ∧
          s.pool.recs[(63 : RecId)].refs < 20) := by
  refine ⟨by decide +kernel, by decide +kernel, ⟨by decide +kernel, served _, by decide +kernel, by decide +kernel⟩, fun x => ?_,
    by decide +kernel, ⟨refuses_part_at_0 _ 1 0 rfl (by decide), ⟨(carded resetCardCtx).pool.grant 0 (promised house .readDone 0), ?_, ?_,
      by decide +kernel⟩⟩, by decide +kernel, by decide +kernel⟩
  · simp [carded, atCard]
  · simp only [granted]; decide +kernel
  · exact admits_part _ 0 1 rfl rfl (by decide)

/-- R138, R151: an EJECT on the context's own account, carried, refused, and for a STOPPED line. -/
theorem witness_own_commands :
    (let s := carded { resetCardCtx with state := .read };
      readerServes s 7 15 14 ∧
        (offerControl s s.dir[(15 : EntryId)].line .cardCommand 14 (some 15) (.card 7) [CardCommand.eject.code, 0]).2 = .carried 0 ∧
        (offerControl (lowOn 0 s) s.dir[(15 : EntryId)].line .cardCommand 14 (some 15) (.card 7) [2, 0]).2 = .refused) ∧
      (let s := line4 house fun _ => resetLine;
        slotOf s .reader 7 = some 15 ∧ s.dir[(15 : EntryId)].addr = some 14 ∧
          s.lines[s.dir[(15 : EntryId)].line].state = .stopped) :=
  ⟨⟨served _, by decide +kernel, by decide +kernel⟩, by decide +kernel⟩

theorem witness_ContextsAreReported :
    (∀ (ty : Byte) (body : List Byte), asks (withReq house ty body) 0 ty body) ∧ house.entry[(7 : Pos)].sess = none ∧
      (let s := sessionOf (amount 5);
        asks (withReq s 0x22 [byteOf 8]) 0 0x22 [byteOf 8] ∧ s.entry[(7 : Pos)].sess = some (amount 5) ∧
          (amount 5).prompt.length = 16 ∧ (amount 5).pfx.length ≤ 3 ∧ valueSound (amount 5) ∧ fieldSound (amount 5).field) ∧
      ([] : List Byte).length ≠ 1 ∧ 8 < (9 : Byte).toNat := by
  refine ⟨asked_here, by decide +kernel, ⟨test_request_is_asked _ _ _ rfl rfl, by decide +kernel, by decide, by decide, ?_, ?_⟩,
    by decide, by decide⟩ <;> simp only [valueSound, fieldSound, amount] <;> decide

theorem witness_AttendanceIsLost :
    (let s : State := { house with time := { house.time with timer := some 0 } };
      s.running = true ∧ s.time.timer = some 0 ∧ s.profile.wsSilence ≠ 0) ∧
      ({ house.profile with wsSilence := 0 } : Profile).wsSilence = 0 ∧
      (let s := targeted { resetEntryCtx with dispPending := true }; s.entry[(7 : Pos)].sess = none ∧
        s.entry[(7 : Pos)].dispPending = true ∧ s.entry[(0 : Pos)].dispPending = false) ∧
      (let s := carded { resetCardCtx with state := .read };
        s.card[(7 : Pos)].state ∈ [CardState.present, .reading, .read] ∧ readerServes s 7 15 14 ∧
          s.card[(0 : Pos)].state ∉ [CardState.present, .reading, .read]) :=
  ⟨by decide +kernel, by decide +kernel, by decide +kernel, by decide +kernel, served _, by decide +kernel⟩

/-- 8.3: a READING card's read ends ABORTED, its EJECT is on the reader's control queue and current; refused, FAULT. -/
theorem test_attendance_ejects_a_reading_card :
    let s := (carded { resetCardCtx with state := .reading, result := some 62, mask := 4, readTimer := some 9 })
    let go (s : State) := after .attendanceTimerExpiry { s with pausePin := true, time := { s.time with timer := some 0 } }
    let t := go s
    (t.card[7].state, t.card[7].cause, t.card[7].current, t.card[7].moveTimer) =
        (.ejecting, .unattended, some (.eject, 0), some 5000) ∧
      t.w1.map Notice.record = [62] ∧ (t.lines[3].control.map QEntry.record).head? = some 0 ∧
      ((go (lowOn 0 s)).card[7].state, (go (lowOn 0 s)).card[7].cause) = (.fault, .poolFull) := by decide +kernel

/-! ### The profile and its store -/

theorem profile_of_house : profileSound house.profile := default_profile_sound

theorem witness_ProfileItemsAreKept :
    (∀ (s : State) (ty : Byte) (body : List Byte), s.running = true → s.link.restartPending = false → s.time.attended = true →
      asks (withReq s ty body) 0 ty body) ∧
      (namesPlace .lineD (byteOf 4) (.line 3) ∧ namesPlace .pin (byteOf 16) (.pin 15) ∧ namesPlace .interKey 0 .whole) ∧
      (∀ pl : Place, ¬ namesPlace .lineD 5 pl) ∧ (up.lines[(3 : LineId)].state ≠ .stopped ∧ stopped4.lines[(3 : LineId)].state = .stopped) ∧
      (suits .lineEnabled [1] ∧ ¬ suits .lineEnabled [2] ∧ suits .writeLimit [3] ∧ ¬ suits .writeLimit [4]) ∧
      profileSound house.profile ∧ (lostRaised { defaultProfile with lostLimit := 5 } .silenceLimit [5] ∧
        ¬ lostRaised { defaultProfile with lostLimit := 5 } .silenceLimit [4]) ∧
      (bytesTaken defaultProfile .interKey [61] = [60] ∧ bytesTaken defaultProfile .interKey [60] = [60] ∧
        Item.interKey.range ≠ none ∧ Item.pin.range = none) ∧
      (0x17 < (0x18 : Byte).toNat ∧ (0x17 : Byte) = Item.pin.code ∧ ([0] : List Byte).length ≠ 1 + Item.interKey.size) ∧
      ([0x17, 1, 0] : List Byte).length = 3 := by
  refine ⟨fun s ty body h hr ha => test_request_is_asked s ty body h hr ha, ⟨⟨by decide, rfl⟩, ⟨rfl, rfl⟩, by simp [namesPlace]⟩, fun pl => ?_,
    by decide +kernel, ?_, profile_of_house, ?_, by decide +kernel, by decide, by decide⟩
  · cases pl with
    | whole => simp [namesPlace]
    | line l =>
      rintro ⟨_, h⟩
      revert h
      revert l
      decide
    | pin k => simp [namesPlace]
  · simp [suits, byteAt]
  · simp only [lostRaised]; decide +kernel

/-- A commit at a unit and an attempt. -/
def committing (u : Fin 10) (n : Nat) : State :=
  { up with
    store :=
      { blankStore with
        state := .incomplete
        commit := some
          { snapshot := defaultProfile, limit := 2, unit := u, attempt := n, rewrites := 0, promise := 63, acceptedAt := 0
            write := 5 }
        begun := 5 } }

/-- R191: the verify of a write that has failed, and the limit of a write that has verified, come too late for the next one. -/
theorem test_late_store_events :
    let t := after (.writeLimitReached 5) (committing 3 1)
    let u := after (.verifyPasses 5) (committing 3 1)
    (t.store.commit.map fun c => (c.unit, c.attempt)) = some (3, 2) ∧ after (.verifyPasses 5) t = t ∧
      (u.store.commit.map fun c => (c.unit, c.attempt)) = some (4, 1) ∧ after (.writeLimitReached 5) u = u := by decide +kernel

theorem witness_StoreKeepsTheProfile :
    (∀ (ty : Byte) (body : List Byte), asks (withReq up ty body) 0 ty body) ∧
      (∀ (u : Fin 10) (n : Nat) (ty : Byte) (body : List Byte), asks (withReq (committing u n) ty body) 0 ty body) ∧
      (up.store.commit = none ∧ up.store.state ≠ .complete) ∧ ({ blankStore with state := .complete } : Store).state = .complete ∧
      admissible up.profile up.pool 0 1 .part ∧ refusedAt (lowOn 0 up).profile (lowOn 0 up).pool 0 1 .part 0 ∧
      ([0] : List Byte) ≠ [] ∧
      ((committing 0 1).running = true ∧ (committing 0 1).store.commit.map Commit.unit = some 0 ∧
        (committing 8 1).store.commit.map (fun c => c.unit.val) = some ((7 : Fin 8).val + 1) ∧ (9 : Fin 10).val = (7 : Fin 8).val + 2 ∧
        (committing 9 1).store.commit.map Commit.unit = some 9 ∧ (committing 9 1).store.commit.map Commit.attempt = some 1 ∧
        (committing 9 2).store.commit.map Commit.attempt = some 2) ∧
      (∀ c : Commit, up.store.commit = some c → c.write ≠ 5) ∧
      (∃ (t : State) (c : Commit), (committing 0 1).store.commit = some c ∧ commitSound (committing 0 1).store c ∧
        exec (.verifyPasses c.write) (committing 0 1) = .next t) :=
  ⟨fun _ _ => test_request_is_asked _ _ _ rfl rfl, fun _ _ _ _ => test_request_is_asked _ _ _ rfl rfl, by decide +kernel, rfl,
    admits_part up 0 1 rfl rfl (by decide), refuses_part_at_0 _ 1 0 rfl (by decide), by decide, by decide +kernel,
    fun _ h => (by cases h),
    ⟨_, _, rfl, ⟨rfl, default_profile_sound, by decide +kernel, .inl rfl, by decide, rfl, fun _ h => absurd h (by simp)⟩, rfl⟩⟩

/-! ### What every step keeps -/

theorem counts_of_reset : poolCountsSound State.reset.pool := by
  simp only [poolCountsSound]; decide +kernel

theorem witness_PoolStaysSound : ∃ t : State, step State.reset = .next t ∧ memorySound State.reset.pool ∧
    chunksSound State.reset.pool ∧ poolCountsSound State.reset.pool :=
  ⟨_, rfl, rfl, chunks_of_reset _ rfl, counts_of_reset⟩

theorem entries_of_house : ∀ e : EntryId, entryFieldsSound house.dir[e] := by
  intro e
  have h : ∀ e : EntryId, (house.dir[e].present = false → house.dir[e].addr = none) ∧
      (house.dir[e].state = .free → house.dir[e].pos = none) ∧ (house.dir[e].pinned = true → house.dir[e].pos.isSome) ∧
      house.dir[e].grantAttempts ≤ Config.maxGrants ∧ (house.dir[e].state = .active → house.dir[e].established = true) ∧
      (house.dir[e].present = true → house.dir[e].addr.isSome ∧ house.dir[e].addr ≠ some 0 ∧ house.dir[e].addr ≠ some 15) := by
    decide +kernel
  obtain ⟨h1, h2, h3, h4, he, h5⟩ := h e
  refine ⟨fun hp => ?_, h1, h2, h3, h4, he⟩
  obtain ⟨hs, h0, h15⟩ := h5 hp
  obtain ⟨a, ha⟩ := Option.isSome_iff_exists.mp hs
  exact ⟨a, ha, fun x => h0 (x ▸ ha), fun x => h15 (x ▸ ha)⟩

theorem witness_UnitsAndContextsStaySound : ∃ t : State, step house = .next t ∧ directorySound house ∧
    (∀ p : Pos, entryCtxSound house.entry[p]) ∧ ∀ p : Pos, cardSound house.card[p] := by
  refine ⟨_, rfl, ⟨entries_of_house, ?_⟩, fun p => ?_, cards_empty house rfl⟩
  · simp only [entriesApart]; decide +kernel
  · have h : house.entry[p] = resetEntryCtx := Vector.getElem_replicate ..
    rw [h]; exact ⟨rfl, trivial⟩

theorem witness_LinesLinkAndStoreStaySound : ∃ t : State, step up = .next t ∧ (∀ l : LineId, lineSound up.lines[l]) ∧
    linkSound up.link ∧ resetSound up ∧ profileSound up.profile ∧ storeSound up.store := by
  refine ⟨_, rfl, fun l => ?_, ?_, ⟨rfl, fun h => by cases h⟩, default_profile_sound, blank_store_sound⟩
  · have h : up.lines[l] = liveLine := Vector.getElem_replicate ..
    rw [h]
    exact ⟨fun h => (by cases h), by decide, by simp only [countersSound]; decide⟩
  · exact ⟨by decide, by decide +kernel, by decide, by decide, trivial⟩
end Sys2Proof.Tests
end

/-! # The frame pool's requests: POOL_STATUS (R20, R203) -/

namespace Sys2Proof.Machine

/-! ## The request in turn (R164, R175, R176) -/

/-- The request in turn is the first TAKEN slot of the taking order, so it is the one handled. -/
theorem currentSlot_of_inTurn {s : State} {i : SlotId} (h : inTurn s i) : currentSlot s = some i := by
  obtain ⟨hrun, hattended, hrestart, htaken, earlier, later, horder, hearlier⟩ := h
  have hfirst : s.link.order.find? (fun j => s.link.slots[j].state == .taken) = some i :=
    List.find?_eq_some_iff_append.2 ⟨beq_iff_eq.2 htaken, earlier, later, horder,
      fun j hj => by rw [beq_false_of_ne (hearlier j hj)]; rfl⟩
  simp only [currentSlot, hrun, hattended, hrestart, Bool.not_false, Bool.and_true, if_true]
  exact hfirst

/-- R175: a handling of a request of its own type answers it by its rule. -/
theorem handle_of_asks {s : State} {i : SlotId} {type : Byte} {body : List Byte} (h : asks s i type body)
    (rule : State → Slot → State × Answer) (fin : State → State) :
    handle s (ofType type) rule fin =
      fin (replied (rule s s.link.slots[i]).1 i (rule s s.link.slots[i]).2.status
        (answerFields (rule s s.link.slots[i]).2)) := by
  obtain ⟨hturn, htype, -⟩ := h
  have hsel : ofType type s.link.slots[i] = true := by simp only [ofType, htype, beq_self_eq_true]
  exact handle_eq (currentSlot_of_inTurn hturn) hsel

/-- R175, R176: a request that its rule carries out is replied OK with the rule's fields. -/
theorem handle_of_asks_done {s t : State} {i : SlotId} {type : Byte} {body fields : List Byte}
    {rule : State → Slot → State × Answer} (h : asks s i type body) (hr : rule s s.link.slots[i] = done t fields)
    (fin : State → State) : handle s (ofType type) rule fin = fin (replied t i .ok fields) := by
  rw [handle_of_asks h, hr]
  rfl

/-- R176: a refused request changes nothing, and its reply carries no fields. -/
theorem handle_of_asks_refuse {s : State} {i : SlotId} {type : Byte} {body : List Byte} {st : Status}
    {rule : State → Slot → State × Answer} (h : asks s i type body) (hr : rule s s.link.slots[i] = refuse s st)
    (fin : State → State) : handle s (ofType type) rule fin = fin (replied s i st []) := by
  rw [handle_of_asks h, hr]
  cases st <;> rfl

/-! ## What POOL_STATUS answers (R20) -/

theorem exec_poolStatus (s : State) :
    exec .poolStatus s = .next (handle s (ofType 0x0C) poolStatusRule settleLink) := rfl

/-- R20: a body of one byte is an option: 0 reports, 1 reports and clears, any other is refused. -/
theorem poolStatusRule_option {sl : Slot} {o : Byte} (s : State) (h : sl.body = [o]) :
    poolStatusRule s sl =
      if o = 0 then done s (poolStatusFields s)
      else if o = 1 then done (s.modPool Pool.clearCounts) (poolStatusFields s)
      else refuse s .badParameter := by
  rw [poolStatusRule, h]

theorem poolStatusRule_badParameter {sl : Slot} {o : Byte} (s : State) (h : sl.body = [o]) (ho : 1 < o.toNat) :
    poolStatusRule s sl = refuse s .badParameter := by
  have h0 : o ≠ 0 := by bv_omega
  have h1 : o ≠ 1 := by bv_omega
  rw [poolStatusRule_option s h, if_neg h0, if_neg h1]

theorem poolStatusRule_badLength {sl : Slot} (s : State) (h : sl.body.length ≠ 1) :
    poolStatusRule s sl = refuse s .badLength := by
  unfold poolStatusRule
  split
  case h_1 o hbody => simp [hbody] at h
  case h_2 => rfl

/-! ## The layout of the report (R203) -/

theorem allEntries_eq_finRange : allEntries = List.finRange 16 := by decide

/-- The counters of a vector, each in two bytes, are those of its places in ascending order. -/
theorem flatten_map_toList_eq_flatMap_finRange {α β : Type} {n : Nat} (v : Vector α n) (f : α → List β) :
    (v.toList.map f).flatten = (List.finRange n).flatMap fun k => f v[k] := by
  have hplaces : v.toList = (List.finRange n).map fun k => v[k] := by
    apply List.ext_getElem <;> simp
  rw [hplaces, List.map_map, List.flatMap_def]
  rfl

/-! ## The chunks of the three classes (R1, R4, R8) -/

/-- A record's part in a count of chunks. -/
def Rec.chunksIf (test : Rec → Bool) (r : Rec) : Nat :=
  if r.state != .free && test r then r.chunks.length else 0

theorem Pool.chunksOf_eq_sum_chunksIf (p : Pool) (test : Rec → Bool) :
    p.chunksOf test = (p.recs.toList.map (Rec.chunksIf test)).sum := by
  unfold Pool.chunksOf
  induction p.recs.toList with
  | nil => rfl
  | cons r rs ih =>
    rw [List.map_cons, List.sum_cons, ← ih, Rec.chunksIf, List.filter_cons]
    split <;> simp

/-- A record is of one class: its chunks count once in the three classes together, and not at all when it is FREE and has none. -/
theorem Rec.chunksIf_classes (r : Rec) (h : r.state = .free → r.chunks = []) :
    r.chunksIf (fun r => r.cls == 0) + r.chunksIf (fun r => r.cls == 1) + r.chunksIf (fun r => r.cls == 2) =
      r.chunks.length := by
  by_cases hfree : r.state = .free
  · simp [Rec.chunksIf, hfree, h hfree]
  · have hcls : ∀ c : Cls, c = 0 ∨ c = 1 ∨ c = 2 := by decide
    rcases hcls r.cls with hc | hc | hc <;> simp [Rec.chunksIf, hfree, hc]

theorem Pool.chunksOf_classes (p : Pool) (h : ∀ r : RecId, p.recs[r].state = .free → p.recs[r].chunks = []) :
    (p.chunksOf fun r => r.cls == 0) + (p.chunksOf fun r => r.cls == 1) + (p.chunksOf fun r => r.cls == 2) =
      (p.recs.toList.flatMap Rec.chunks).length := by
  have hmem : ∀ r ∈ p.recs.toList, r.state = .free → r.chunks = [] := by
    intro r hr
    obtain ⟨k, hk, rfl⟩ := Vector.getElem_of_mem (Vector.mem_toList_iff.1 hr)
    exact h ⟨k, hk⟩
  simp only [Pool.chunksOf_eq_sum_chunksIf, List.length_flatMap, ← List.sum_map_add]
  exact congrArg List.sum (List.map_congr_left fun r hr => Rec.chunksIf_classes r (hmem r hr))

/-- R1, R4: the chunks in the free list and those in the records are the 256 of the pool. -/
theorem chunksFree_add_length_of_chunksSound {p : Pool} (h : chunksSound p) :
    p.chunksFree + (p.recs.toList.flatMap Rec.chunks).length = 256 := by
  obtain ⟨hperm, -⟩ := h
  have hlen := hperm.length_eq
  rwa [List.length_append, List.length_range] at hlen

/-! ## The obligation -/

/-- Settles O18: each body of the request has its equation of `poolStatusRule`; the class counts add up because each record that is
not FREE is of one class. -/
theorem poolStatusReports : Obligations.PoolStatusReports := by
  unfold Obligations.PoolStatusReports
  refine ⟨fun s i o ha ho => ?report, fun s i body ha hlen => ?badLength, fun s i o ha ho => ?badParameter,
    fun p hp => ?classes⟩
  case report =>
    have ⟨_, _, hbody⟩ := ha
    rw [← allEntries_eq_finRange, ← flatten_map_toList_eq_flatMap_finRange s.pool.refusals (leBytes 2), exec_poolStatus]
    have hopt : o = 0 ∨ o = 1 := by bv_omega
    rcases hopt with rfl | rfl
    · rw [handle_of_asks_done ha (poolStatusRule_option s hbody)]
      rfl
    · rw [handle_of_asks_done ha (poolStatusRule_option s hbody)]
      rfl
  case badLength =>
    have ⟨_, _, hbody⟩ := ha
    rw [exec_poolStatus, handle_of_asks_refuse ha (poolStatusRule_badLength s (hbody ▸ hlen))]
  case badParameter =>
    have ⟨_, _, hbody⟩ := ha
    rw [exec_poolStatus, handle_of_asks_refuse ha (poolStatusRule_badParameter s hbody ho)]
  case classes =>
    have ⟨_, hfree⟩ := hp
    have hclasses := p.chunksOf_classes hfree
    have htotal := chunksFree_add_length_of_chunksSound hp
    omega

end Sys2Proof.Machine

/-! # The status of a counter line: LINE_STATUS (R48, R203) -/

namespace Sys2Proof.Machine

/-! ## The line that a byte names -/

theorem lineOfByte_lineByte (l : LineId) : lineOfByte (lineByte l) = some l := by decide +revert

theorem lineOfByte_eq_none {b : Byte} (h : b = 0 ∨ 4 < b.toNat) : lineOfByte b = none :=
  dif_neg (by bv_omega)

/-! ## What LINE_STATUS answers (R48) -/

theorem exec_lineStatus (s : State) :
    exec .lineStatus s = .next (handle s (ofType 0x0A) lineStatusRule settleLink) := rfl

/-- R48: for a line of the part the second byte is an option: 0 reports, 1 reports and clears, any other is refused. -/
theorem lineStatusRule_option {sl : Slot} {n o : Byte} {l : LineId} (s : State) (h : sl.body = [n, o])
    (hl : lineOfByte n = some l) :
    lineStatusRule s sl =
      if o = 0 then done s (lineStatusFields s l)
      else if o = 1 then done (countLine s l fun _ => zeroCounters) (lineStatusFields s l)
      else refuse s .badParameter := by
  simp only [lineStatusRule, h, hl]

theorem lineStatusRule_noLine {sl : Slot} {n o : Byte} (s : State) (h : sl.body = [n, o]) (hn : lineOfByte n = none) :
    lineStatusRule s sl = refuse s .badParameter := by
  simp only [lineStatusRule, h, hn]

theorem lineStatusRule_badParameter {sl : Slot} {n o : Byte} (s : State) (h : sl.body = [n, o])
    (hb : n = 0 ∨ 4 < n.toNat ∨ 1 < o.toNat) : lineStatusRule s sl = refuse s .badParameter := by
  cases hl : lineOfByte n with
  | none => exact lineStatusRule_noLine s h hl
  | some l =>
    have hn : ¬ (n = 0 ∨ 4 < n.toNat) := fun hn => by simp [lineOfByte_eq_none hn] at hl
    have h0 : o ≠ 0 := by bv_omega
    have h1 : o ≠ 1 := by bv_omega
    rw [lineStatusRule_option s h hl, if_neg h0, if_neg h1]

theorem lineStatusRule_badLength {sl : Slot} (s : State) (h : sl.body.length ≠ 2) :
    lineStatusRule s sl = refuse s .badLength := by
  unfold lineStatusRule
  split
  case h_1 n o hbody => simp [hbody] at h
  case h_2 => rfl

/-! ## The timing reported (R24, R48) -/

theorem reportedTiming_of_stopped {s : State} {l : LineId} (h : s.lines[l].state = .stopped) :
    reportedTiming s l = { d := s.profile.lines[l].d, s := s.profile.lines[l].s } := by
  simp only [reportedTiming, h]

theorem reportedTiming_of_ne_stopped {s : State} {l : LineId} {tm : Timing} (h : s.lines[l].state ≠ .stopped)
    (ht : s.lines[l].timing = some tm) : reportedTiming s l = tm := by
  cases hs : s.lines[l].state with
  | stopped => exact absurd hs h
  | active | draining | stuck _ => simp only [reportedTiming, hs, ht]

/-! ## The obligation -/

/-- Settles O21: each body of the request has its equation of `lineStatusRule`; once the timing is known to be the reported one,
the fields and the cleared line are those of the layout and of `onLine` by definition. -/
theorem lineStatusReports : Obligations.LineStatusReports := by
  unfold Obligations.LineStatusReports
  refine ⟨fun s i l o tm ha ho hstopped hrunning => ?report, fun s i body ha hlen => ?badLength,
    fun s i n o ha hb => ?badParameter⟩
  case report =>
    have ⟨_, _, hbody⟩ := ha
    obtain rfl : tm = reportedTiming s l := by
      by_cases hs : s.lines[l].state = .stopped
      · rw [hstopped hs, reportedTiming_of_stopped hs]
      · rw [reportedTiming_of_ne_stopped hs (hrunning hs)]
    have hrule := lineStatusRule_option s hbody (lineOfByte_lineByte l)
    rw [exec_lineStatus]
    have hopt : o = 0 ∨ o = 1 := by bv_omega
    rcases hopt with rfl | rfl <;> exact congrArg _ (handle_of_asks_done ha hrule settleLink)
  case badLength =>
    have ⟨_, _, hbody⟩ := ha
    rw [exec_lineStatus, handle_of_asks_refuse ha (lineStatusRule_badLength s (hbody ▸ hlen))]
  case badParameter =>
    have ⟨_, _, hbody⟩ := ha
    rw [exec_lineStatus, handle_of_asks_refuse ha (lineStatusRule_badParameter s hbody hb)]

end Sys2Proof.Machine

/-! # Counter time read: TIME_GET (R156, R158) -/

namespace Sys2Proof.Machine

/-! ## A request whose body is empty (R175) -/

theorem emptyBody_of_eq_nil {sl : Slot} (rule : State → State × Answer) (s : State) (h : sl.body = []) :
    emptyBody rule s sl = rule s := by
  rw [emptyBody, h]
  rfl

theorem emptyBody_of_ne_nil {sl : Slot} (rule : State → State × Answer) (s : State) (h : sl.body ≠ []) :
    emptyBody rule s sl = refuse s .badLength :=
  if_neg (mt List.isEmpty_iff.1 h)

/-! ## What TIME_GET answers (R158) -/

theorem exec_timeGet (s : State) :
    exec .timeGet s = .next (handle s (ofType 0x05) (emptyBody fun t => done t (timeGetFields t)) settleLink) := rfl

/-- R156: counter time is the monotonic count plus the offset, so the fields are the three values of R158 in its order. -/
theorem timeGetFields_eq (s : State) :
    timeGetFields s =
      leBytes 4 (s.time.mono + s.time.offset).toNat ++ leBytes 4 s.time.mono.toNat ++ leBytes 4 s.time.offset.toNat := rfl

/-! ## The obligation -/

/-- Settles O17: the request in turn is the one handled, and `emptyBody` splits on its body: the empty one is answered with the
fields of the state it is handled in, any other is refused. -/
theorem timeGetReports : Obligations.TimeGetReports := by
  unfold Obligations.TimeGetReports
  refine fun s i body => ⟨fun ha => ?report, fun hne ha => ?badLength⟩
  case report =>
    have ⟨_, _, hbody⟩ := ha
    rw [exec_timeGet, handle_of_asks_done ha (emptyBody_of_eq_nil _ s hbody), timeGetFields_eq]
  case badLength =>
    have ⟨_, _, hbody⟩ := ha
    rw [exec_timeGet, handle_of_asks_refuse ha (emptyBody_of_ne_nil _ s (hbody ▸ hne))]

end Sys2Proof.Machine

/-! # What every step keeps of the frame pool (R1, R4, R8, R14, R15, R21) -/

namespace Sys2Proof.Machine

/-! ## The records of a pool after one of them is written -/

theorem recs_set_get {p : Vector Rec 64} (r x : RecId) (v : Rec) : (p.set r v)[x] = if r = x then v else p[x] := by
  by_cases h : r = x
  · subst h; simp
  · simp [h, Fin.val_ne_of_ne h]

/-- The chunks of all records, one record's put first. -/
theorem chunks_perm_cons {p : Vector Rec 64} (r : RecId) :
    ∃ rest, (p.toList.flatMap Rec.chunks).Perm (p[r].chunks ++ rest) ∧
      ∀ v : Rec, ((p.set r v).toList.flatMap Rec.chunks).Perm (v.chunks ++ rest) := by
  have hr : r.val < p.toList.length := by simp
  refine ⟨(p.toList.eraseIdx r).flatMap Rec.chunks, ?_, fun v => ?_⟩
  · simpa using (List.getElem_cons_eraseIdx_perm hr).symm.flatMap_right Rec.chunks
  · rw [Vector.toList_set]
    have h := (List.set_perm_cons_eraseIdx hr v).flatMap_right Rec.chunks
    simpa using h

/-- A record whose chunks stay the same leaves the chunks in their places, when it does not become FREE with chunks. -/
theorem chunksSound_modRec {p : Pool} {r : RecId} {f : Rec → Rec} (h : chunksSound p)
    (hc : (f p.recs[r]).chunks = p.recs[r].chunks) (hf : (f p.recs[r]).state = .free → p.recs[r].state = .free) :
    chunksSound (p.modRec r f) := by
  obtain ⟨hperm, hfree⟩ := h
  obtain ⟨rest, hold, hnew⟩ := chunks_perm_cons (p := p.recs) r
  refine ⟨?_, fun x => ?_⟩
  · refine List.Perm.trans ?_ hperm
    refine List.Perm.append_left _ ((hnew _).trans ?_)
    rw [hc]
    exact hold.symm
  · rw [Pool.modRec_get]
    split
    · next hx => subst hx; rw [hc]; exact fun hs => hfree r (hf hs)
    · exact hfree x

/-! ## Elementary changes -/

theorem memorySound_step {p q : Pool} (h : PoolStep p q) (hp : memorySound p) : memorySound q := by
  cases h with
  | body r bytes => exact memWriteBody_wf hp
  | append r bytes => exact memWriteBody_wf hp
  | drop r =>
    rcases p.dropRef_cases r with ⟨-, h⟩ | ⟨-, h⟩ <;> rw [h] <;> exact hp
  | refusal | grant | add | limit | store | stored | filling | spread | clear => exact hp

theorem chunksSound_grant {p : Pool} {r : RecId} {a : Admission} (hp : chunksSound p) (hr : p.recs[r].state = .free)
    (ha : a.state ≠ .free) : chunksSound (p.grant r a) := by
  obtain ⟨hperm, hfree⟩ := hp
  obtain ⟨rest, hold, hnew⟩ := chunks_perm_cons (p := p.recs) r
  rw [hfree r hr, List.nil_append] at hold
  refine ⟨List.Perm.trans ?_ hperm, fun x hx => ?_⟩
  · calc p.free.drop a.need ++ (p.grant r a).recs.toList.flatMap Rec.chunks
        |>.Perm (p.free.drop a.need ++ (p.free.take a.need ++ rest)) := List.Perm.append_left _ (hnew _)
      _ |>.Perm (p.free ++ rest) := by
        rw [← List.append_assoc]
        refine List.Perm.append_right _ (List.perm_append_comm.trans ?_)
        rw [List.take_append_drop]
      _ |>.Perm (p.free ++ p.recs.toList.flatMap Rec.chunks) := List.Perm.append_left _ hold.symm
  · simp only [Pool.grant, recs_set_get] at hx ⊢
    split at hx
    · exact absurd hx ha
    · rw [if_neg ‹_›]; exact hfree x hx

theorem chunksSound_release {p : Pool} (r : RecId) (hp : chunksSound p) : chunksSound (p.release r) := by
  obtain ⟨hperm, hfree⟩ := hp
  obtain ⟨rest, hold, hnew⟩ := chunks_perm_cons (p := p.recs) r
  refine ⟨List.Perm.trans ?_ hperm, fun x hx => ?_⟩
  · simp only [Pool.release, List.append_assoc]
    exact List.Perm.append_left _ ((List.Perm.append_left _ (hnew _)).trans hold.symm)
  · simp only [Pool.release, recs_set_get] at hx ⊢
    split
    · rfl
    · rw [if_neg ‹_›] at hx; exact hfree x hx

theorem chunksSound_step {p q : Pool} (h : PoolStep p q) (hp : chunksSound p) : chunksSound q := by
  cases h with
  | grant r a hr hn ha => exact chunksSound_grant hp hr ha
  | drop r =>
    rcases p.dropRef_cases r with ⟨-, h⟩ | ⟨-, h⟩ <;> rw [h]
    · exact chunksSound_release r hp
    · exact chunksSound_modRec hp rfl id
  | body r bytes =>
    exact chunksSound_modRec (p := { p with mem := memWriteBody p.mem p.recs[r].chunks 0 bytes }) hp rfl id
  | append r bytes =>
    exact chunksSound_modRec (p := { p with mem := memWriteBody p.mem p.recs[r].chunks p.recs[r].len bytes }) hp rfl id
  | store r t => exact chunksSound_modRec hp rfl (by simp)
  | stored r => exact chunksSound_modRec hp rfl (by simp)
  | filling r => exact chunksSound_modRec hp rfl (by simp)
  | add r h => exact chunksSound_modRec hp rfl id
  | spread r n h => exact chunksSound_modRec hp rfl id
  | refusal | limit | clear => exact hp

theorem satInc_le (cap n : Nat) : satInc cap n ≤ cap := Nat.min_le_left _ _

/-- The counts stay in their limits where one record's reference count does, and neither the counters nor the free list are touched. -/
theorem poolCountsSound_modRec {p : Pool} {r : RecId} {f : Rec → Rec} (h : poolCountsSound p)
    (hr : (f p.recs[r]).refs ≤ Config.maxRefs) : poolCountsSound (p.modRec r f) := by
  obtain ⟨hrefs, hcounts⟩ := h
  refine ⟨fun x => ?_, hcounts⟩
  rw [Pool.modRec_get]
  split
  · next hx => subst hx; exact hr
  · exact hrefs x

theorem poolCountsSound_step {p q : Pool} (h : PoolStep p q) (hp : poolCountsSound p) : poolCountsSound q := by
  have ⟨hrefs, hcounts, hlimit, hlow⟩ := hp
  cases h with
  | refusal t c =>
    refine ⟨hrefs, fun i => ?_, hlimit, hlow⟩
    by_cases h : refusalIndex t c = i
    · subst h; simpa [Pool.countRefusal] using satInc_le _ _
    · simpa [Pool.countRefusal, Vector.getElem_set, Fin.val_ne_of_ne h] using hcounts i
  | grant r a hr hn ha =>
    refine ⟨fun x => ?_, hcounts, hlimit, Nat.min_le_right _ _⟩
    simp only [Pool.grant, recs_set_get]
    split
    · exact Nat.le_of_ble_eq_true rfl
    · exact hrefs x
  | drop r =>
    rcases p.dropRef_cases r with ⟨-, h⟩ | ⟨-, h⟩ <;> rw [h]
    · refine ⟨fun x => ?_, hcounts, hlimit, ?_⟩
      · simp only [Pool.release, recs_set_get]
        split
        · exact Nat.zero_le _
        · exact hrefs x
      · simp only [Pool.release, Pool.chunksFree, List.length_append] at hlow ⊢
        omega
    · exact poolCountsSound_modRec hp ((Nat.sub_le _ _).trans (hrefs r))
  | add r h => exact poolCountsSound_modRec hp h
  | limit => exact ⟨hrefs, hcounts, satInc_le _ _, hlow⟩
  | body r bytes =>
    exact poolCountsSound_modRec (p := { p with mem := memWriteBody p.mem p.recs[r].chunks 0 bytes }) hp (hrefs r)
  | append r bytes =>
    exact poolCountsSound_modRec (p := { p with mem := memWriteBody p.mem p.recs[r].chunks p.recs[r].len bytes }) hp (hrefs r)
  | store r t => exact poolCountsSound_modRec hp (hrefs r)
  | stored r => exact poolCountsSound_modRec hp (hrefs r)
  | filling r => exact poolCountsSound_modRec hp (hrefs r)
  | spread r n h => exact poolCountsSound_modRec hp h
  | clear => exact ⟨hrefs, fun i => by simp [Pool.clearCounts], Nat.zero_le _, le_rfl⟩

/-! ## Runs of elementary changes, and a reset -/

/-- What every elementary change keeps, every run of them keeps. -/
theorem PoolPath.keeps {P : Pool → Prop} (hstep : ∀ {p q}, PoolStep p q → P p → P q) {p q : Pool} (h : PoolPath p q)
    (hp : P p) : P q := by
  induction h with
  | refl => exact hp
  | tail _ hs ih => exact hstep hs ih

theorem resetPool_rec (mem : List Host.Cell) (r : RecId) : (resetPool mem).recs[r] = freeRec := Vector.getElem_replicate ..

theorem memorySound_resetPool {p : Pool} (h : memorySound p) : memorySound (resetPool p.mem) := by
  rw [memorySound, resetPool]
  exact h

theorem chunksSound_resetPool (mem : List Host.Cell) : chunksSound (resetPool mem) := by
  refine ⟨?_, fun r _ => by rw [resetPool_rec]; rfl⟩
  have h : (resetPool mem).recs.toList.flatMap Rec.chunks = [] := by
    rw [List.flatMap_eq_nil_iff]
    intro r hr
    rw [resetPool, Vector.toList_replicate] at hr
    rw [List.eq_of_mem_replicate hr]
    rfl
  rw [h, List.append_nil, resetPool, Config.chunks]

theorem poolCountsSound_resetPool (mem : List Host.Cell) : poolCountsSound (resetPool mem) := by
  refine ⟨fun r => by rw [resetPool_rec]; decide, fun i => ?_, Nat.zero_le _, ?_⟩
  · simp [resetPool]
  · simp [resetPool, Pool.chunksFree]

/-- A pool that has moved from where it stood or from its reset state keeps what elementary changes keep. -/
theorem PoolAfter.keeps {P : Pool → Prop} (hstep : ∀ {p q}, PoolStep p q → P p → P q) {s t : State}
    (hreset : P s.pool → P (resetPool s.pool.mem)) (h : PoolAfter s t) (hp : P s.pool) : P t.pool :=
  h.elim (fun h => h.keeps hstep hp) fun h => h.keeps hstep (hreset hp)

/-! ## The obligation -/

/-- A step is a command, or leaves the pool. -/
theorem step_pool {s t : State} (h : step s = .next t) : PoolAfter s t := by
  unfold step at h
  split at h
  · simpa only [PoolAfter] using exec_pool h
  · cases h
    exact poolAfter_ite (fun _ => poolAfter_refl s) fun _ => poolAfter_refl s

/-- Settles O57: a step moves the pool by elementary changes, from where it stood or from its reset state, and each of them keeps
the three properties. -/
theorem poolStaysSound : Obligations.PoolStaysSound := by
  intro s t h
  have hpool := step_pool h
  exact ⟨hpool.keeps memorySound_step memorySound_resetPool, hpool.keeps chunksSound_step fun _ => chunksSound_resetPool _,
    hpool.keeps poolCountsSound_step fun _ => poolCountsSound_resetPool _⟩

end Sys2Proof.Machine

/-! # What a command can do: the inversion of `exec` that the invariants are proved by

`Handled`, `BlockEvent` and `Command` list, once, every change of state that a command makes before the transmitters choose; an
invariant of all steps is then one case per operation of the model, not one per row of the opcode table. -/

namespace Sys2Proof.Machine

/-! ## What the rule of a request does to the state (R175) -/

/-- What the rule of the request in slot content `sl` makes of the state. -/
inductive Handled (s : State) (sl : Slot) : State → Prop
  | same : Handled s sl s
  | restart : Handled s sl (s.modLink fun k => { k with restartPending := true })
  | timeSet (n : Ms) : Handled s sl { s with time := { s.time with offset := n } }
  | lineStart (l : LineId) (hl : s.lines[l].state = .stopped) : Handled s sl (setLineMark (startLine s l) l)
  | drain (l : LineId) (h : Option Ms) : Handled s sl (drainState s l h)
  | force (l : LineId) : Handled s sl (forceState s l)
  | clearLine (l : LineId) : Handled s sl (countLine s l fun _ => zeroCounters)
  | clearPool : Handled s sl (s.modPool Pool.clearCounts)
  | bind (e : EntryId) (p : Pos) (he : s.dir[e].state ≠ .free) (hp : slotOf s s.dir[e].kind p = none) :
      Handled s sl (bindUnit s e p)
  | unbind (e : EntryId) (p : Pos) (he : s.dir[e].pos = some p) :
      Handled s sl (setDirMark (endUnitSessions (unbindEntry s e) s.dir[e].kind (some p) .unbound) e)
  | forget (e : EntryId) : Handled s sl (unitForgetRule s e).1
  | screen (i : EntryId) (x : ScreenEntry) : Handled s sl (writeScreen s i x)
  | send (tag : Byte) (u : Urgency) (c : Cls) (body : List Byte) (ts : List EntryId) (hts : ts.length ≤ 16) :
      Handled s sl (sendTo s tag u c body ts).1
  | openRefused : Handled s sl (reserve s .entryResult sl.tag).1
  | opened (s1 : State) (p : Pos) (r : RecId) (f : Field) (e : EntryId) (hr : reserve s .entryResult sl.tag = (s1, some r))
      (hf : parseField sl.body = some f) (hs : s.entry[p].sess = none) :
      Handled s sl (openSession s1 p (openedSession s1 sl.body f r sl.tag e))
  | cancel (p : Pos) : Handled s sl (abortSession s p .entryCancel)
  | read (p : Pos) (m : BitVec 3) (n : Nat) (hp : readable s.card[p].state = true) : Handled s sl (readFor s p m n sl.tag).1
  | resend (p : Pos) : Handled s sl (cardResendRule s p sl).1
  | eject (p : Pos) (hp : ejectable s.card[p].state = true) : Handled s sl (commandFor s p .eject .ejecting).1
  | retain (p : Pos) (hp : retainable s.card[p].state = true) : Handled s sl (commandFor s p .retain .retaining).1
  | profileSet (it : Item) (pl : Place) (v : List Byte) (w : Written) (hv : v.length = it.size)
      (hw : writeItem s.profile it pl v = some w) : Handled s sl { s with profile := w.profile }
  | commit : Handled s sl (profileCommitRule s sl).1
  | load (hs : s.store.state = .complete) :
      Handled s sl { s with profile := storedProfile s.store, hits := Vector.replicate 16 0 }

section
variable {s : State} {sl : Slot}

theorem handled_of_eq {t : State} (h : t = s) : Handled s sl t := h ▸ .same

theorem handled_emptyBody {rule : State → State × Answer} (h : Handled s sl (rule s).1) :
    Handled s sl (emptyBody rule s sl).1 := by
  unfold emptyBody
  split_ifs
  · exact h
  · exact .same

theorem handled_positionBody {rule : State → Pos → Slot → State × Answer} (h : ∀ p, Handled s sl (rule s p sl).1) :
    Handled s sl (positionBody rule s sl).1 := by
  unfold positionBody
  split_ifs
  · exact .same
  · split
    · exact .same
    · exact h _

theorem holderOf_not_free {i : Identity} {e : EntryId} (h : holderOf s i = some e) : s.dir[e].state ≠ .free := by
  have := List.find?_some h
  simp only [Bool.and_eq_true, bne_iff_ne] at this
  exact this.1

theorem handled_identityBody {rule : State → EntryId → State × Answer}
    (h : ∀ e, s.dir[e].state ≠ .free → Handled s sl (rule s e).1) : Handled s sl (identityBody rule s sl).1 := by
  unfold identityBody
  split_ifs
  · exact .same
  · split
    · exact .same
    · exact h _ (holderOf_not_free ‹_›)

theorem handled_timeSet : Handled s sl (timeSetRule s sl).1 := by
  unfold timeSetRule
  split_ifs
  · exact .same
  · exact .timeSet _

theorem handled_lineStart : Handled s sl (lineStartRule s sl).1 := by
  unfold lineStartRule
  split
  · split
    · exact .same
    · split_ifs with h
      · exact .same
      · exact .lineStart _ (not_not.1 h)
  · exact .same

theorem handled_lineStop (h : Option Ms) : Handled s sl (lineStopRule h s sl).1 := by
  unfold lineStopRule
  split
  · split
    · exact .same
    · split_ifs
      · exact .drain _ _
      · exact .force _
      · exact .same
  · exact .same

theorem handled_lineStatus : Handled s sl (lineStatusRule s sl).1 := by
  unfold lineStatusRule
  split
  · split
    · exact .same
    · split_ifs
      · exact .same
      · exact .clearLine _
      · exact .same
  · exact .same

theorem handled_poolStatus : Handled s sl (poolStatusRule s sl).1 := by
  unfold poolStatusRule
  split
  · split_ifs
    · exact .same
    · exact .clearPool
    · exact .same
  · exact .same

theorem handled_unitBind : Handled s sl (unitBindRule s sl).1 := by
  unfold unitBindRule
  split_ifs
  · exact .same
  · split
    · exact .same
    · split
      · exact .same
      · split
        · split_ifs <;> exact .same
        · exact .bind _ _ (holderOf_not_free ‹_›) ‹_›

theorem handled_unitUnbind (e : EntryId) : Handled s sl (unitUnbindRule s e).1 := by
  unfold unitUnbindRule
  split
  · exact .same
  · exact .unbind _ _ ‹_›

theorem handled_screenSet : Handled s sl (screenSetRule s sl).1 := by
  unfold screenSetRule
  split_ifs
  · exact .same
  · split
    · exact .same
    · exact .screen _ _

theorem handled_screenGet : Handled s sl (screenGetRule s sl).1 := by
  unfold screenGetRule
  split
  · exact .same
  · split <;> exact .same
  · exact .same

theorem handled_unitSend : Handled s sl (unitSendRule s sl).1 := by
  unfold unitSendRule
  simp only
  split
  · exact .same
  · split
    · exact .same
    · split
      · exact .same
      · have hl := resolveTargets_length s (byteAt sl.body 0) (byteAt sl.body 1) (identityAt sl.body 2)
        split
        · exact .same
        · rename_i heq
          exact .send _ _ _ _ _ (heq ▸ hl)

theorem handled_entryOpen : Handled s sl (entryOpenRule s sl).1 := by
  unfold entryOpenRule
  simp only
  split
  · exact .same
  · split
    · exact .same
    · split
      · exact .same
      · split
        · exact .same
        · split
          · exact .same
          · split
            · exact .same
            · split
              · exact .same
              · rename_i hs _ _ _ hf
                split <;> rename_i hr
                · have h : (reserve s .entryResult sl.tag).1 = _ := congrArg Prod.fst hr
                  exact h ▸ .openRefused
                · exact .opened _ _ _ _ _ hr hf (by simpa using hs)

theorem handled_entryCancel (p : Pos) : Handled s sl (entryCancelRule s p sl).1 := by
  unfold entryCancelRule
  split_ifs
  · exact .same
  · exact .cancel p

theorem handled_cardRead : Handled s sl (cardReadRule s sl).1 := by
  unfold cardReadRule
  split
  · split
    · exact .same
    · split_ifs with _ h
      · exact .same
      · exact .same
      · simp only [Bool.or_eq_true, Bool.not_eq_true', not_or, Bool.not_eq_false] at h
        exact .read _ _ _ h.1
  · exact .same

theorem handled_cardEject (p : Pos) : Handled s sl (cardEjectRule s p sl).1 := by
  unfold cardEjectRule
  split_ifs with h
  · exact .same
  · simp only [Bool.or_eq_true, Bool.not_eq_true', not_or, Bool.not_eq_false] at h
    exact .eject p h.1

theorem handled_cardRetain (p : Pos) : Handled s sl (cardRetainRule s p sl).1 := by
  unfold cardRetainRule
  split_ifs with h
  · exact .same
  · simp only [Bool.or_eq_true, Bool.not_eq_true', not_or, Bool.not_eq_false] at h
    exact .retain p h.1

theorem handled_profileSet : Handled s sl (profileSetRule s sl).1 := by
  unfold profileSetRule
  split
  · exact .same
  · split
    · exact .same
    · split_ifs with hlen
      · exact .same
      · split
        · exact .same
        · split_ifs
          · exact .same
          · split
            · exact .same
            · rename_i hw
              exact .profileSet _ _ _ _ (by rw [List.length_drop]; omega) hw

theorem handled_profileGet : Handled s sl (profileGetRule s sl).1 := by
  unfold profileGetRule
  split
  · exact .same
  · split
    · exact .same
    · split <;> exact .same
  · exact .same

theorem handled_profileCommit :
    Handled s sl (if sl.body.isEmpty then profileCommitRule s sl else refuse s .badLength).1 := by
  split_ifs
  · exact .commit
  · exact .same

theorem handled_profileLoad : Handled s sl (profileLoadRule s).1 := by
  unfold profileLoadRule
  split_ifs with _ h
  · exact .same
  · exact .same
  · exact .load (not_not.1 h)

end

/-! ## The events of lines, units, contexts and attendance -/

/-- What an event of a running part other than a request or an event of the link does, before the transmitters choose. -/
inductive BlockEvent (s : State) : State → Prop
  | edge (l : LineId) (h : lineHears s l = true) : BlockEvent s (startEdge s l)
  | char (l : LineId) (edge : Ms) (c : RawChar) (h : lineHears s l = true) : BlockEvent s (receiveChar s l edge c)
  | falseStart (l : LineId) (h : lineHears s l = true) : BlockEvent s (falseStarts s l)
  | abandonEnd (l : LineId) (h : awake s l = true) : BlockEvent s (setRx s l .hunting)
  | gap (l : LineId) (h : awake s l = true) : BlockEvent s (dropReception (countLine s l LineCounters.addGap) l)
  | idle (l : LineId) (h : idleDue s.lines[l] = true) : BlockEvent s (becomeIdle s l)
  | stuck (l : LineId) (h : awake s l = true) : BlockEvent s (becomeStuck s l)
  | arbitration (l : LineId) (x : Tx) (h : s.lines[l].tx = some x) : BlockEvent s (arbitrationLost s l x)
  | bitError (l : LineId) (x : Tx) (h : s.lines[l].tx = some x) : BlockEvent s (bitErrorAt s l)
  | sent (l : LineId) : BlockEvent s (transmissionDone s l)
  | ackTimeout (l : LineId) (q : QEntry) : BlockEvent s (ackExpires s l q)
  | limit (l : LineId) (q : QEntry) : BlockEvent s (endEntry s l q .expired)
  | grant (e : EntryId) (h : s.dir[e].state = .pending) : BlockEvent s (grantExpires s e)
  | silent (e : EntryId) (h : s.dir[e].state = .active) : BlockEvent s (entrySilent s e)
  | lost (e : EntryId) (h : s.dir[e].state = .silent) : BlockEvent s (entryLost s e)
  | session (p : Pos) (c : Cause) : BlockEvent s (sessionTimesOut s p c)
  | retry (p : Pos) : BlockEvent s (displayRetry s p)
  | read (p : Pos) (h : s.card[p].readTimer.isSome) : BlockEvent s (readTimesOut s p)
  | take (p : Pos) (h : s.card[p].takeTimer.isSome) : BlockEvent s (ownCommand s p .retain .retaining .takeTimeout)
  | move (p : Pos) (h : s.card[p].moveTimer.isSome) : BlockEvent s (cardTo s p .fault .movementTimeout)
  | attendance : BlockEvent s (attendanceExpires s)

/-! ## The commands but those of the pins -/

/-- Whether a command is one of the five of the pins. -/
def ofPins : Instr → Bool
  | .powerOn .. | .resetAsserted | .resetReleased .. | .pauseAsserted | .pauseReleased => true
  | _ => false

/-- What a command that is none of the pins makes of the state. -/
inductive Command (s : State) : State → Prop
  | same : Command s s
  | event (u : State) (hrun : s.running = true) (h : BlockEvent s u) : Command s (settle u)
  | request (i : SlotId) (u : State) (a : Answer) (fin : State → State) (hfin : fin = settle ∨ fin = settleLink)
      (hi : currentSlot s = some i) (h : Handled s s.link.slots[i] u) : Command s (fin (finishReply u i a))
  | guard (p : Pos) (hrun : s.running = true) : Command s (s.modEntry p fun c => { c with guardTimer := none })
  | byte (c : LinkChar) (fin : State → State) (hfin : fin = id ∨ fin = settleLink) (hon : s.linkOn = true) :
      Command s (fin (receiveChar10 s c))
  | mark (hon : s.linkOn = true) : Command s (markSeen s)
  | framing (hon : s.linkOn = true) : Command s (framingEnds s)
  | gap (hon : s.linkOn = true) : Command s (abandonRecord s)
  | verified (c : Commit) (hrun : s.running = true) (hc : s.store.commit = some c) : Command s (settleLink (writeVerified s c))
  | failed (c : Commit) (hrun : s.running = true) (hc : s.store.commit = some c) : Command s (settleLink (writeFailed s c))
  | recordSent (x : LinkTx) (hrun : s.running = true) (hx : s.link.tx = some x) : Command s (recordSent s x)

theorem currentSlot_running {s : State} {i : SlotId} (h : currentSlot s = some i) : s.running = true := by
  unfold currentSlot at h
  split_ifs at h with hc
  simp only [Bool.and_eq_true] at hc
  exact hc.1.1

theorem currentSlot_taken {s : State} {i : SlotId} (h : currentSlot s = some i) : s.link.slots[i].state = .taken := by
  unfold currentSlot at h
  split_ifs at h
  simpa using List.find?_some h

theorem timerDue_isSome {t : Timer} (h : timerDue t = true) : t.isSome := by
  have : t = some 0 := by simpa [timerDue] using h
  rw [this]
  rfl

section
variable {s : State}

theorem Command.ofIte {b : Bool} {u : State} (h : b = true → Command s u) : Command s (if b then u else s) := by
  split_ifs with hb
  · exact h hb
  · exact .same

/-- A guarded event of a running part. -/
theorem Command.ofEvent {b : Bool} {u : State} (hrun : b = true → s.running = true) (h : b = true → BlockEvent s u) :
    Command s (if b then settle u else s) :=
  .ofIte fun hb => .event u (hrun hb) (h hb)

theorem Command.ofHandle {sel : Slot → Bool} {rule : State → Slot → State × Answer} {fin : State → State}
    (hfin : fin = settle ∨ fin = settleLink) (h : ∀ sl, Handled s sl (rule s sl).1) : Command s (handle s sel rule fin) := by
  rcases handle_cases s sel rule fin with e | ⟨i, hi, -, e⟩ <;> rw [e]
  · exact .same
  · exact .request i _ _ fin hfin hi (h _)

/-- A request that is answered from the state and leaves it. -/
theorem Command.ofReads {sel : Slot → Bool} {rule : State → Slot → State × Answer} (h : ∀ sl, (rule s sl).1 = s) :
    Command s (handle s sel rule settleLink) :=
  .ofHandle (.inr rfl) fun sl => handled_of_eq (h sl)

theorem lineHears_running {l : LineId} (h : lineHears s l = true) : s.running = true := by
  simp only [lineHears, Bool.and_eq_true] at h
  exact h.1

theorem linkBrings_on {c : LinkChar} {e : ByteEffect} (h : linkBrings s c e = true) : s.linkOn = true := by
  simp only [linkBrings, State.linkSees, Bool.and_eq_true] at h
  exact h.1.1

/-- A character that plays its role in a frame is received. -/
theorem Command.ofRole {l : LineId} {c : RawChar} {role : CharRole → Bool} :
    Command s (if takesRole s l c role then settle (receiveChar s l s.now c) else s) := by
  have h : takesRole s l c role = true → lineHears s l = true := fun h => by
    simp only [takesRole, Bool.and_eq_true] at h
    exact h.1
  exact .ofEvent (fun hb => lineHears_running (h hb)) fun hb => .char l _ c (h hb)

theorem Command.ofTimer {t : Timer} {u : State} (h : t.isSome → BlockEvent s u) :
    Command s (if s.running && timerDue t then settle u else s) := by
  refine .ofEvent (fun hb => ?_) fun hb => ?_ <;> simp only [Bool.and_eq_true] at hb
  · exact hb.1
  · exact h (timerDue_isSome hb.2)

/-- The timer of a directory entry in its state. -/
theorem Command.ofUnitTimer {st x : EntryState} {t : Timer} {u : State} (h : x = st → BlockEvent s u) :
    Command s (if s.running && (x == st && timerDue t) then settle u else s) := by
  refine .ofEvent (fun hb => ?_) fun hb => ?_ <;> simp only [Bool.and_eq_true, beq_iff_eq] at hb
  · exact hb.1
  · exact h hb.2.1

theorem Command.ofWrite {w : Nat} {rule : State → Commit → State}
    (h : ∀ c, s.running = true → s.store.commit = some c → Command s (settleLink (rule s c))) :
    Command s (writeEvent s w rule) := by
  rcases writeEvent_cases s w rule with e | ⟨c, hc, hrun, -, e⟩ <;> rw [e]
  · exact .same
  · exact h c hrun hc

end

/-- Every command but those of the pins ends in a next state, which `Command` describes. -/
theorem exec_command {c : Instr} (s : State) (hc : ofPins c = false) : ∃ t, exec c s = .next t ∧ Command s t := by
  have hand : ∀ {x y : Bool}, (x && y) = true → x = true := fun h => by
    simp only [Bool.and_eq_true] at h
    exact h.1
  cases c with
  | powerOn | resetAsserted | resetReleased | pauseAsserted | pauseReleased => cases hc
  | recordReceived c => exact ⟨_, rfl, .ofIte fun h => .byte c settleLink (.inr rfl) (linkBrings_on h)⟩
  | recordDamaged c => exact ⟨_, rfl, .ofIte fun h => .byte c settleLink (.inr rfl) (linkBrings_on h)⟩
  | linkByteReceived c =>
    refine ⟨_, rfl, ?_⟩
    split_ifs with h1 h2
    · exact .byte c id (.inl rfl) (linkBrings_on h1)
    · exact .mark (hand (hand h2))
    · exact .same
  | linkFramingError c => exact ⟨_, rfl, .ofIte fun h => .framing (hand (hand h))⟩
  | linkGapExpiry => exact ⟨_, rfl, .ofIte fun h => .gap (hand h)⟩
  | linkRecordSent =>
    unfold exec execLinkRecordSent
    dsimp only
    split
    · exact ⟨_, rfl, .same⟩
    · exact ⟨_, rfl, .ofIte fun h => .recordSent _ h ‹_›⟩
  | unknownRequest => exact ⟨_, rfl, .ofReads fun _ => rfl⟩
  | identify => exact ⟨_, rfl, .ofHandle (.inr rfl) fun _ => handled_emptyBody .same⟩
  | deviceStatus => exact ⟨_, rfl, .ofHandle (.inr rfl) fun _ => handled_emptyBody .same⟩
  | restart => exact ⟨_, rfl, .ofHandle (.inr rfl) fun _ => handled_emptyBody .restart⟩
  | timeSet => exact ⟨_, rfl, .ofHandle (.inr rfl) fun _ => handled_timeSet⟩
  | timeGet => exact ⟨_, rfl, .ofHandle (.inr rfl) fun _ => handled_emptyBody .same⟩
  | lineStart => exact ⟨_, rfl, .ofHandle (.inl rfl) fun _ => handled_lineStart⟩
  | lineStopDrain h => exact ⟨_, rfl, .ofHandle (.inl rfl) fun _ => handled_lineStop h⟩
  | lineStopForce => exact ⟨_, rfl, .ofHandle (.inl rfl) fun _ => handled_lineStop none⟩
  | lineStatus => exact ⟨_, rfl, .ofHandle (.inr rfl) fun _ => handled_lineStatus⟩
  | poolStatus => exact ⟨_, rfl, .ofHandle (.inr rfl) fun _ => handled_poolStatus⟩
  | unitList => exact ⟨_, rfl, .ofHandle (.inr rfl) fun _ => handled_emptyBody .same⟩
  | unitInfo => exact ⟨_, rfl, .ofHandle (.inr rfl) fun _ => handled_identityBody fun _ _ => .same⟩
  | unitBind => exact ⟨_, rfl, .ofHandle (.inl rfl) fun _ => handled_unitBind⟩
  | unitUnbind => exact ⟨_, rfl, .ofHandle (.inl rfl) fun _ => handled_identityBody fun e _ => handled_unitUnbind e⟩
  | unitForget => exact ⟨_, rfl, .ofHandle (.inl rfl) fun _ => handled_identityBody fun e _ => .forget e⟩
  | screenSet => exact ⟨_, rfl, .ofHandle (.inr rfl) fun _ => handled_screenSet⟩
  | screenGet => exact ⟨_, rfl, .ofHandle (.inr rfl) fun _ => handled_screenGet⟩
  | unitSend => exact ⟨_, rfl, .ofHandle (.inl rfl) fun _ => handled_unitSend⟩
  | entryOpen => exact ⟨_, rfl, .ofHandle (.inl rfl) fun _ => handled_entryOpen⟩
  | entryCancel => exact ⟨_, rfl, .ofHandle (.inl rfl) fun _ => handled_positionBody handled_entryCancel⟩
  | entryStatus => exact ⟨_, rfl, .ofHandle (.inr rfl) fun _ => handled_positionBody fun _ => .same⟩
  | cardRead => exact ⟨_, rfl, .ofHandle (.inl rfl) fun _ => handled_cardRead⟩
  | cardResend => exact ⟨_, rfl, .ofHandle (.inr rfl) fun _ => handled_positionBody .resend⟩
  | cardEject => exact ⟨_, rfl, .ofHandle (.inl rfl) fun _ => handled_positionBody handled_cardEject⟩
  | cardRetain => exact ⟨_, rfl, .ofHandle (.inl rfl) fun _ => handled_positionBody handled_cardRetain⟩
  | cardStatus => exact ⟨_, rfl, .ofHandle (.inr rfl) fun _ => handled_positionBody fun _ => .same⟩
  | profileSet => exact ⟨_, rfl, .ofHandle (.inr rfl) fun _ => handled_profileSet⟩
  | profileGet => exact ⟨_, rfl, .ofHandle (.inr rfl) fun _ => handled_profileGet⟩
  | profileCommit => exact ⟨_, rfl, .ofHandle (.inr rfl) fun _ => handled_profileCommit⟩
  | profileLoad => exact ⟨_, rfl, .ofHandle (.inr rfl) fun _ => handled_emptyBody handled_profileLoad⟩
  | verifyPasses w => exact ⟨_, rfl, .ofWrite .verified⟩
  | writeLimitReached w => exact ⟨_, rfl, .ofWrite .failed⟩
  | characterReceived l edge c m =>
    refine ⟨_, rfl, .ofEvent lineHears_running fun h => ?_⟩
    cases m with
    | startEdge => exact .edge l h
    | stopBit => exact .char l edge c h
  | falseStart l b => exact ⟨_, rfl, .ofEvent (fun h => lineHears_running (hand h)) fun h => .falseStart l (hand h)⟩
  | framingError l c => exact ⟨_, rfl, .ofEvent (fun h => lineHears_running (hand h)) fun h => .char l _ c (hand h)⟩
  | lengthCharacter l c => exact ⟨_, rfl, .ofRole⟩
  | unitEventDataFrame l c => exact ⟨_, rfl, .ofRole⟩
  | hello l c => exact ⟨_, rfl, .ofRole⟩
  | unitStatus l c => exact ⟨_, rfl, .ofRole⟩
  | unitAck l c => exact ⟨_, rfl, .ofRole⟩
  | oversizeAbandonEnd l =>
    refine ⟨_, rfl, .ofEvent (fun h => hand (hand h)) fun h => .abandonEnd l ?_⟩
    simp only [Bool.and_eq_true] at h
    exact h.1.2
  | characterGapExpiry l =>
    refine ⟨_, rfl, .ofEvent (fun h => hand (hand h)) fun h => .gap l ?_⟩
    simp only [Bool.and_eq_true] at h
    exact h.1.2
  | lineIdle l =>
    refine ⟨_, rfl, .ofEvent hand fun h => .idle l ?_⟩
    simp only [Bool.and_eq_true] at h
    exact h.2
  | lineStuck l =>
    refine ⟨_, rfl, .ofEvent hand fun h => .stuck l ?_⟩
    simp only [Bool.and_eq_true] at h
    exact h.2
  | lostArbitration l bit =>
    unfold exec execLostArbitration
    dsimp only
    split
    · exact ⟨_, rfl, .same⟩
    · exact ⟨_, rfl, .ofEvent hand fun _ => .arbitration l _ ‹_›⟩
  | bitError l chr bit =>
    unfold exec execBitError
    dsimp only
    split
    · exact ⟨_, rfl, .same⟩
    · exact ⟨_, rfl, .ofEvent hand fun _ => .bitError l _ ‹_›⟩
  | frameTransmitted l => exact ⟨_, rfl, .ofEvent hand fun _ => .sent l⟩
  | ackTimeout l dest =>
    unfold exec execAckTimeout
    dsimp only
    split
    · exact ⟨_, rfl, .same⟩
    · exact ⟨_, rfl, .ofTimer fun _ => .ackTimeout l _⟩
  | queueLimitExpiry l r dest =>
    unfold exec execQueueLimitExpiry
    dsimp only
    split
    · exact ⟨_, rfl, .same⟩
    · exact ⟨_, rfl, .ofTimer fun _ => .limit l _⟩
  | grantTimerExpiry e => exact ⟨_, rfl, .ofUnitTimer (.grant e)⟩
  | silenceTimerExpiry e => exact ⟨_, rfl, .ofUnitTimer (.silent e)⟩
  | lostTimerExpiry e => exact ⟨_, rfl, .ofUnitTimer (.lost e)⟩
  | firstKeyTimeout p => exact ⟨_, rfl, .ofTimer fun _ => .session p _⟩
  | interKeyTimeout p => exact ⟨_, rfl, .ofTimer fun _ => .session p _⟩
  | pinGuardExpiry p => exact ⟨_, rfl, .ofIte fun h => .guard p (hand h)⟩
  | displayRetryExpiry p => exact ⟨_, rfl, .ofTimer fun _ => .retry p⟩
  | readTimerExpiry p => exact ⟨_, rfl, .ofTimer (.read p)⟩
  | takeTimerExpiry p => exact ⟨_, rfl, .ofTimer (.take p)⟩
  | movementTimerExpiry p => exact ⟨_, rfl, .ofTimer (.move p)⟩
  | attendanceTimerExpiry => exact ⟨_, rfl, .ofTimer fun _ => .attendance⟩

end Sys2Proof.Machine

/-! # What a command does to the queue, the pins, the link, the profile and the store -/

namespace Sys2Proof.Machine

/-! ## The queue and the pins -/

/-- The queue, the free choices, the pins and the running of the part stand as they stood. -/
structure Steady (s t : State) : Prop where
  pending : t.pending = s.pending
  oracle : t.oracle = s.oracle
  running : t.running = s.running
  resetPin : t.resetPin = s.resetPin
  pausePin : t.pausePin = s.pausePin
  straps : t.straps = s.straps

theorem Steady.refl (s : State) : Steady s s := ⟨rfl, rfl, rfl, rfl, rfl, rfl⟩

theorem Steady.trans {s t u : State} (h : Steady s t) (k : Steady t u) : Steady s u :=
  ⟨k.pending.trans h.pending, k.oracle.trans h.oracle, k.running.trans h.running, k.resetPin.trans h.resetPin,
   k.pausePin.trans h.pausePin, k.straps.trans h.straps⟩

theorem steady_modLink (s : State) (f : Link → Link) : Steady s (s.modLink f) := ⟨rfl, rfl, rfl, rfl, rfl, rfl⟩

theorem steady_store (s : State) (st : Store) : Steady s { s with store := st } := ⟨rfl, rfl, rfl, rfl, rfl, rfl⟩

theorem Quiet.steady {s t : State} (h : Quiet s t) : Steady s t :=
  ⟨h.pending, h.oracle, h.running, h.resetPin, h.pausePin, h.straps⟩

theorem Sends.steady {s t : State} (h : Sends s t) : Steady s t :=
  ⟨h.pending, h.oracle, h.running, h.resetPin, h.pausePin, h.straps⟩

theorem steady_settleLink (s : State) : Steady s (settleLink s) := (sends_settleLink s).steady

theorem steady_settle (s : State) : Steady s (settle s) := (quiet_settleLines s).steady.trans (steady_settleLink _)

theorem steady_fin {fin : State → State} (h : fin = settle ∨ fin = settleLink) (s : State) : Steady s (fin s) := by
  rcases h with rfl | rfl
  · exact steady_settle s
  · exact steady_settleLink s

/-! ## The handling of a request -/

/-- A handling is quiet, or changes one thing outside the blocks of lines, units and contexts. -/
inductive HandledOuter (s : State) : State → Prop
  | quiet (u : State) (h : Quiet s u) : HandledOuter s u
  | restart : HandledOuter s (s.modLink fun k => { k with restartPending := true })
  | timeSet (n : Ms) : HandledOuter s { s with time := { s.time with offset := n } }
  | screen (i : EntryId) (x : ScreenEntry) : HandledOuter s (writeScreen s i x)
  | profileSet (it : Item) (pl : Place) (v : List Byte) (w : Written) (hv : v.length = it.size)
      (hw : writeItem s.profile it pl v = some w) : HandledOuter s { s with profile := w.profile }
  | commit (s1 : State) (r : RecId) (hc : s.store.commit = none) (h : Quiet s s1) : HandledOuter s (beginCommit s1 r)
  | load (hs : s.store.state = .complete) :
      HandledOuter s { s with profile := storedProfile s.store, hits := Vector.replicate 16 0 }

theorem quiet_sendTo (s : State) (tag : Byte) (u : Urgency) (c : Cls) (body : List Byte) (ts : List EntryId)
    (hl : ts.length ≤ 16) : Quiet s (sendTo s tag u c body ts).1 := by
  unfold sendTo
  have h := calm_reserve s .sendDone tag
  split <;> rename_i h1 <;> rw [h1] at h <;> dsimp only at h ⊢
  · exact h.toQuiet
  · rename_i s1 sd
    have k := h.trans (calm_admit s1 (sendAdmission s1 tag u c body.length) (by simp [sendAdmission]))
    split <;> rename_i h2 <;> rw [h2] at k <;> dsimp only at k ⊢
    · exact (k.trans (calm_dropRef _ _)).toQuiet
    · exact (k.trans ((calm_setBody _ _ _).trans (calm_fanOut _ _ _ _ _ hl))).toQuiet

theorem quiet_drainState (s : State) (l : LineId) (h : Option Ms) : Quiet s (drainState s l h) := by
  unfold drainState
  split
  · exact ((calm_modLine _ _ _).trans (calm_setLineMark _ _)).toQuiet
  · exact ((calm_modLine _ _ _).trans (calm_setLineMark _ _)).toQuiet
  · exact .refl s

theorem quiet_forceState (s : State) (l : LineId) : Quiet s (forceState s l) := by
  unfold forceState
  split
  · exact .refl s
  · exact quiet_enterStopped _ _

theorem quiet_of_reserve {s s1 : State} {k : NoticeKind} {tag : Byte} {x : Option RecId} (h : reserve s k tag = (s1, x)) :
    Quiet s s1 := by
  have := (calm_reserve s k tag).toQuiet
  rwa [h] at this

theorem Handled.outer {s u : State} {sl : Slot} (h : Handled s sl u) : HandledOuter s u := by
  cases h with
  | same => exact .quiet _ (.refl s)
  | restart => exact .restart
  | timeSet n => exact .timeSet n
  | lineStart l => exact .quiet _ ((quiet_startLine _ _).trans (calm_setLineMark _ _).toQuiet)
  | drain l h => exact .quiet _ (quiet_drainState s l h)
  | force l => exact .quiet _ (quiet_forceState s l)
  | clearLine l => exact .quiet _ (calm_countLine s _ fun _ => zeroCounters).toQuiet
  | clearPool => exact .quiet _ (calm_modPool (.step (.clear _))).toQuiet
  | bind e p => exact .quiet _ (quiet_bindUnit s e p)
  | unbind e p =>
    exact .quiet _ (((quiet_unbindEntry _ _).trans (calm_endUnitSessions _ _ _ _).toQuiet).trans (quiet_setDirMark _ _))
  | forget e => exact .quiet _ (quiet_unitForgetRule s e)
  | screen i x => exact .screen i x
  | send tag u c body ts hts => exact .quiet _ (quiet_sendTo s tag u c body ts hts)
  | openRefused => exact .quiet _ (calm_reserve _ _ _).toQuiet
  | opened s1 p r f e hr => exact .quiet _ ((quiet_of_reserve hr).trans (calm_openSession _ _ _).toQuiet)
  | cancel p => exact .quiet _ (calm_abortSession _ _ _).toQuiet
  | read p m n => exact .quiet _ (quiet_readFor s p m n _)
  | resend p => exact .quiet _ (quiet_cardResendRule s p sl)
  | eject p => exact .quiet _ (quiet_commandFor _ _ _ _)
  | retain p => exact .quiet _ (quiet_commandFor _ _ _ _)
  | profileSet it pl v w hv hw => exact .profileSet it pl v w hv hw
  | commit =>
    unfold profileCommitRule
    split_ifs with hc
    · exact .quiet _ (.refl s)
    · split <;> rename_i hr
      · exact .quiet _ (quiet_of_reserve hr)
      · exact .commit _ _ (by simpa using hc) (quiet_of_reserve hr)
  | load hs => exact .load hs

theorem HandledOuter.steady {s u : State} (h : HandledOuter s u) : Steady s u := by
  cases h with
  | quiet _ h => exact h.steady
  | commit s1 r _ h => exact h.steady.trans (steady_store _ _)
  | restart | timeSet | screen | profileSet | load => exact ⟨rfl, rfl, rfl, rfl, rfl, rfl⟩

theorem HandledOuter.link {s u : State} (h : HandledOuter s u) :
    u.link = s.link ∨ u.link = { s.link with restartPending := true } := by
  cases h with
  | quiet _ h => exact .inl h.link
  | commit s1 r _ h => exact .inl h.link
  | restart => exact .inr rfl
  | timeSet | screen | profileSet | load => exact .inl rfl

/-! ## The events of lines, units, contexts and attendance -/

theorem quiet_becomeIdle (s : State) (l : LineId) : Quiet s (becomeIdle s l) := by
  unfold becomeIdle
  split
  · exact .refl s
  · exact quiet_enterStopped _ _
  · exact ((calm_modLine s l _).trans (calm_setLineMark _ _)).toQuiet
  · exact (calm_modLine s l _).toQuiet

theorem calm_becomeStuck (s : State) (l : LineId) : Calm s (becomeStuck s l) :=
  (Calm.trans (.ite (calm_bitErrorAt s l) (.refl s)) ((calm_dropReception _ _).trans (calm_countLine _ _ _))).trans
    ((calm_modLine _ _ _).trans (calm_setLineMark _ _))

theorem calm_sessionTimesOut (s : State) (p : Pos) (c : Cause) : Calm s (sessionTimesOut s p c) := by
  unfold sessionTimesOut
  split
  · exact .refl s
  · exact calm_endSession _ _ _ _ _ _

theorem calm_offerClosedText (s : State) (l : LineId) : Calm s (offerClosedText s l) :=
  .ite (calm_offerControl _ _ _ _ _ _ _) (.refl s)

theorem calm_becomeUnattended (s : State) : Calm (setAttendance s false) (becomeUnattended s) :=
  (Calm.foldl (fun t p => calm_abortSession t p _) _ _).trans <|
    (Calm.foldl (fun t _ => .ite (calm_modEntry _ _ _) (.refl t)) _ _).trans <|
      (Calm.foldl calm_cardUnattended _ _).trans (Calm.foldl calm_offerClosedText _ _)

/-- The expiry of the attendance timer is calm but for the attendance itself. -/
theorem calm_attendanceExpires (s : State) :
    ∃ x : TimeBase, Calm { s with time := x } (attendanceExpires s) := by
  unfold attendanceExpires
  simp only
  split_ifs
  · exact ⟨{ s.time with timer := none }, .refl _⟩
  · exact ⟨{ s.time with timer := none, attended := false, mark := true, latest := s.now },
      calm_becomeUnattended { s with time := { s.time with timer := none } }⟩

/-- An event of the blocks is quiet but for the attendance. -/
theorem BlockEvent.quiet {s u : State} (h : BlockEvent s u) : ∃ x : TimeBase, Quiet { s with time := x } u := by
  have quiet : ∀ {u}, Quiet s u → ∃ x : TimeBase, Quiet { s with time := x } u := fun h => ⟨s.time, h⟩
  cases h with
  | edge l => exact quiet (calm_modLine _ _ _).toQuiet
  | char l edge c => exact quiet (quiet_receiveChar s l edge c)
  | falseStart l => exact quiet (calm_falseStarts s l).toQuiet
  | abandonEnd l => exact quiet (calm_setRx s l _).toQuiet
  | gap l => exact quiet ((calm_countLine _ _ _).trans (calm_dropReception _ l)).toQuiet
  | idle l => exact quiet (quiet_becomeIdle s l)
  | stuck l => exact quiet (calm_becomeStuck s l).toQuiet
  | arbitration l x => exact quiet (calm_arbitrationLost s l x).toQuiet
  | bitError l => exact quiet (calm_bitErrorAt s l).toQuiet
  | sent l => exact quiet (calm_transmissionDone s l).toQuiet
  | ackTimeout l q => exact quiet (calm_ackExpires s l q).toQuiet
  | limit l q => exact quiet (calm_endEntry _ _ _ _).toQuiet
  | grant e => exact quiet (quiet_grantExpires s e)
  | silent e => exact quiet ((quiet_modDir _ _ _).trans (quiet_setDirMark _ _))
  | lost e => exact quiet (quiet_entryLost s e)
  | session p c => exact quiet (calm_sessionTimesOut s p c).toQuiet
  | retry p => exact quiet (calm_displayRetry s p).toQuiet
  | read p => exact quiet ((calm_readEnd _ _ _ _ _).trans (calm_cardTo _ _ _ _)).toQuiet
  | take p => exact quiet (calm_ownCommand _ _ _ _ _).toQuiet
  | move p => exact quiet (calm_cardTo _ _ _ _).toQuiet
  | attendance =>
    obtain ⟨x, hx⟩ := calm_attendanceExpires s
    exact ⟨x, hx.toQuiet⟩

theorem BlockEvent.steady {s u : State} (h : BlockEvent s u) : Steady s u := by
  obtain ⟨x, hx⟩ := h.quiet
  exact Steady.trans (t := { s with time := x }) ⟨rfl, rfl, rfl, rfl, rfl, rfl⟩ hx.steady

theorem BlockEvent.link {s u : State} (h : BlockEvent s u) : u.link = s.link := by
  obtain ⟨x, hx⟩ := h.quiet
  exact hx.link

/-! ## Start-up -/

/-- What start-up leaves outside the blocks of lines, units and contexts. -/
structure StartedFrom (s t : State) : Prop where
  pending : t.pending = s.pending
  oracle : t.oracle = s.oracle
  running : t.running = true
  resetPin : t.resetPin = s.resetPin
  pausePin : t.pausePin = s.pausePin
  straps : t.straps = s.straps
  link : t.link = { s.link with rxOn := true }
  profile : t.profile = chosenProfile (profileChoice s.straps.pdef s.store.state) s.store
  store : t.store = s.store

theorem quiet_startLines (s : State) : Quiet s (startLines s) :=
  Quiet.foldl (fun t l => .ite (quiet_startLine t l) (.refl t)) _ _

theorem startedFrom_startUp (s : State) : StartedFrom s (startUp s) := by
  have opened : ∀ {t}, Quiet (startProfile s) t → StartedFrom s (openLink t) := fun h =>
    ⟨h.pending, h.oracle, h.running, h.resetPin, h.pausePin, h.straps, congrArg (fun k : Link => { k with rxOn := true }) h.link,
      h.profile, h.store⟩
  have lines : ∀ {s1 x}, reserve (startProfile s) .start 0 = (s1, x) → StartedFrom s (openLink (startLines s1)) :=
    fun hr => opened ((quiet_of_reserve hr).trans (quiet_startLines _))
  unfold startUp
  split <;> rename_i hr
  · exact lines hr
  · rename_i s1 r
    have h := lines hr
    have k := calm_completePromise (openLink (startLines s1)) r .start 0 none (startBody (openLink (startLines s1)))
    exact ⟨k.pending.trans h.pending, k.oracle.trans h.oracle, k.running.trans h.running, k.resetPin.trans h.resetPin,
      k.pausePin.trans h.pausePin, k.straps.trans h.straps, k.link.trans h.link, k.profile.trans h.profile,
      k.store.trans h.store⟩

/-! ## The receiver and the store -/

theorem steady_scan (bs : List Byte) (n : Nat) (s : State) : Steady s (scan bs n s) := by
  rw [scan_frame]
  exact ⟨rfl, rfl, rfl, rfl, rfl, rfl⟩

theorem steady_receiveChar10 (s : State) (c : LinkChar) : Steady s (receiveChar10 s c) :=
  Steady.trans (t := (markSeen s).modLink fun k => { k with asm := [] }) ⟨rfl, rfl, rfl, rfl, rfl, rfl⟩ (steady_scan _ _ _)

theorem steady_abandonRecord (s : State) : Steady s (abandonRecord s) := by
  unfold abandonRecord
  split_ifs <;> exact ⟨rfl, rfl, rfl, rfl, rfl, rfl⟩

theorem steady_commitEnds (s : State) (c : Commit) (b : Bool) : Steady s (commitEnds s c b) :=
  (calm_completePromise _ _ _ _ _ _).steady.trans (steady_store _ _)

theorem link_commitEnds (s : State) (c : Commit) (b : Bool) : (commitEnds s c b).link = s.link :=
  (calm_completePromise _ _ _ _ _ _).link

theorem steady_writeVerified (s : State) (c : Commit) : Steady s (writeVerified s c) := by
  unfold writeVerified
  simp only
  split_ifs
  · exact ⟨rfl, rfl, rfl, rfl, rfl, rfl⟩
  · exact (steady_store s { writeBlock s.store c with state := .complete }).trans (steady_commitEnds _ c false)

theorem link_writeVerified (s : State) (c : Commit) : (writeVerified s c).link = s.link := by
  unfold writeVerified
  simp only
  split_ifs
  · rfl
  · exact link_commitEnds { s with store := { writeBlock s.store c with state := .complete } } c false

theorem steady_writeFailed (s : State) (c : Commit) : Steady s (writeFailed s c) := by
  unfold writeFailed
  split_ifs
  · exact steady_store _ _
  · exact steady_commitEnds _ _ _

theorem link_writeFailed (s : State) (c : Commit) : (writeFailed s c).link = s.link := by
  unfold writeFailed
  split_ifs
  · rfl
  · exact link_commitEnds _ _ _

/-! ## Commands -/

theorem steady_restartNow (s : State) (hrun : s.running = true) : Steady s (restartNow s) := by
  have h := startedFrom_startUp (doReset s .restart)
  exact Steady.trans ⟨h.pending, h.oracle, h.running.trans hrun.symm, h.resetPin, h.pausePin, h.straps⟩ (steady_settleLink _)

theorem steady_recordSent {s : State} (x : LinkTx) (hrun : s.running = true) : Steady s (recordSent s x) := by
  have idle : Steady s (s.modLink fun k => { k with tx := none }) := steady_modLink _ _
  unfold recordSent
  simp only
  split
  · exact idle.trans (steady_settleLink _)
  · exact idle.trans ((calm_dropRef _ _).steady.trans (steady_settleLink _))
  · split_ifs
    · exact idle.trans (steady_restartNow _ hrun)
    · exact idle.trans ((steady_modLink _ _).trans (steady_settleLink (freeReplySlot _ _)))

theorem steady_finishReply (s : State) (i : SlotId) (a : Answer) : Steady s (finishReply s i a) := ⟨rfl, rfl, rfl, rfl, rfl, rfl⟩

/-- Every command but those of the pins leaves the queue and the pins. -/
theorem Command.steady {s t : State} (h : Command s t) : Steady s t := by
  cases h with
  | same => exact .refl s
  | event u hrun h => exact h.steady.trans (steady_settle u)
  | request i u a fin hfin hi h =>
    exact h.outer.steady.trans ((steady_finishReply u i a).trans (steady_fin hfin (finishReply u i a)))
  | guard p hrun => exact ⟨rfl, rfl, rfl, rfl, rfl, rfl⟩
  | byte c fin hfin hon =>
    rcases hfin with rfl | rfl
    · exact steady_receiveChar10 s c
    · exact (steady_receiveChar10 s c).trans (steady_settleLink _)
  | mark hon => exact ⟨rfl, rfl, rfl, rfl, rfl, rfl⟩
  | framing hon => exact (steady_abandonRecord s).trans ⟨rfl, rfl, rfl, rfl, rfl, rfl⟩
  | gap hon => exact steady_abandonRecord s
  | verified c hrun hc => exact (steady_writeVerified s c).trans (steady_settleLink _)
  | failed c hrun hc => exact (steady_writeFailed s c).trans (steady_settleLink _)
  | recordSent x hrun hx => exact steady_recordSent x hrun

/-! ## The obligations on the front command, the queue and PAUSE -/

/-- Settles O1. -/
theorem stepTakesTheFrontCommand : Obligations.StepTakesTheFrontCommand := by
  intro c rest s h
  rw [step, h]

theorem steady_beginStartUp {s : State} :
    (beginStartUp s).pending = s.pending ∧ (beginStartUp s).oracle = s.oracle ∧ (beginStartUp s).pausePin = s.pausePin := by
  have h := startedFrom_startUp s
  have k := steady_settleLink (startUp s)
  exact ⟨k.pending.trans h.pending, k.oracle.trans h.oracle, k.pausePin.trans h.pausePin⟩

/-- Settles O3: the pins' commands one by one, every other command by `Command.steady`. -/
theorem commandsLeaveTheQueue : Obligations.CommandsLeaveTheQueue := by
  intro c s
  cases hc : ofPins c with
  | false =>
    obtain ⟨t, ht, h⟩ := exec_command s hc
    have k := h.steady
    exact ⟨t, ht, k.pending, k.oracle, fun _ _ => k.pausePin, fun _ _ => ⟨k.straps, fun _ => k.resetPin⟩⟩
  | true =>
    cases c with
    | powerOn held x =>
      refine ⟨_, rfl, ?_⟩
      have no : ¬ ∀ h y, Instr.powerOn held x ≠ .powerOn h y := fun h => h held x rfl
      split_ifs
      · exact ⟨rfl, rfl, fun _ _ => rfl, fun h => absurd h no⟩
      · obtain ⟨hp, ho, hpause⟩ :=
          steady_beginStartUp (s := { doReset s .powerOn with resetPin := held, straps := x })
        exact ⟨hp, ho, fun _ _ => hpause, fun h => absurd h no⟩
    | resetAsserted =>
      refine ⟨_, rfl, ?_⟩
      split_ifs <;> exact ⟨rfl, rfl, fun _ _ => rfl, fun _ _ => ⟨rfl, fun h => absurd rfl h⟩⟩
    | resetReleased x =>
      refine ⟨_, rfl, ?_⟩
      have no : ¬ ∀ y, Instr.resetReleased x ≠ .resetReleased y := fun h => h x rfl
      split_ifs
      · obtain ⟨hp, ho, hpause⟩ := steady_beginStartUp (s := { s with resetPin := false, straps := x })
        exact ⟨hp, ho, fun _ _ => hpause, fun _ h => absurd h no⟩
      · exact ⟨rfl, rfl, fun _ _ => rfl, fun _ h => absurd h no⟩
    | pauseAsserted => exact ⟨_, rfl, rfl, rfl, fun h => absurd rfl h, fun _ _ => ⟨rfl, fun _ => rfl⟩⟩
    | pauseReleased =>
      refine ⟨_, rfl, ?_⟩
      split_ifs
      · have k := steady_settleLink { s with pausePin := false }
        exact ⟨k.pending, k.oracle, fun _ h => absurd rfl h, fun _ _ => ⟨k.straps, fun _ => k.resetPin⟩⟩
      · exact ⟨rfl, rfl, fun _ h => absurd rfl h, fun _ _ => ⟨rfl, fun _ => rfl⟩⟩
    | _ => cases hc

theorem settleLink_of_held {s : State} (h : s.pausePin = true ∨ s.link.tx.isSome = true) : settleLink s = s := by
  unfold settleLink
  exact if_pos (by rcases h with h | h <;> simp [h])

/-- Settles O6. -/
theorem pauseGatesTheTransmitter : Obligations.PauseGatesTheTransmitter :=
  ⟨fun _ => rfl, fun _ h => congrArg _ (if_pos h), fun _ h => congrArg _ (if_neg (by simp [h])), fun _ => settleLink_of_held⟩

/-! ## The record being sent under PAUSE (R106, R178) -/

/-- The record being sent is the one that was, or none is. -/
def SendsOn (s t : State) : Prop := t.link.tx = s.link.tx ∨ t.link.tx = none

theorem settleLink_paused {s u : State} (hp : s.pausePin = true) (h : Steady s u) : settleLink u = u :=
  settleLink_of_held (.inl (h.pausePin.trans hp))

theorem tx_scan (bs : List Byte) (n : Nat) (s : State) : (scan bs n s).link.tx = s.link.tx := by
  have inner : ∀ (t : State) (inner : List Byte), (settleInner t inner).link.tx = t.link.tx := by
    intro t inner
    unfold settleInner settleRecord judgeRecord armAttendance
    simp only
    split_ifs <;> (try split) <;> rfl
  induction bs generalizing n s with
  | nil => rfl
  | cons b bs ih =>
    cases n with
    | succ n => exact ih n s
    | zero =>
      unfold scan
      split_ifs
      · split
        · rfl
        · exact ih _ _
        · exact (ih _ _).trans (inner _ _)
      · exact ih _ _

theorem tx_abandonRecord (s : State) : (abandonRecord s).link.tx = s.link.tx := by
  unfold abandonRecord
  split_ifs <;> rfl

theorem tx_startUp (s : State) : (startUp s).link.tx = s.link.tx := by
  rw [(startedFrom_startUp s).link]

theorem Command.sendsOn {s t : State} (h : Command s t) (hp : s.pausePin = true) : SendsOn s t := by
  have ofLink : ∀ {u : State}, u.link = s.link → SendsOn s u := fun h => .inl (congrArg Link.tx h)
  cases h with
  | same => exact .inl rfl
  | event u hrun h =>
    have hlines := quiet_settleLines u
    rw [settle, settleLink_paused hp (h.steady.trans hlines.steady)]
    exact ofLink (hlines.link.trans h.link)
  | request i u a fin hfin hi h =>
    have hu : (finishReply u i a).link.tx = s.link.tx := by
      have k : u.link.tx = s.link.tx := by rcases h.outer.link with h | h <;> rw [h]
      exact k
    have hs : Steady s (finishReply u i a) := h.outer.steady.trans (steady_finishReply u i a)
    rcases hfin with rfl | rfl
    · have hlines := quiet_settleLines (finishReply u i a)
      rw [settle, settleLink_paused hp (hs.trans hlines.steady)]
      exact .inl (by rw [hlines.link, hu])
    · rw [settleLink_paused hp hs]
      exact .inl hu
  | guard p => exact .inl rfl
  | byte c fin hfin =>
    rcases hfin with rfl | rfl
    · exact .inl (tx_scan _ _ _)
    · rw [settleLink_paused hp (steady_receiveChar10 s c)]
      exact .inl (tx_scan _ _ _)
  | mark => exact .inl rfl
  | framing => exact .inl (tx_abandonRecord s)
  | gap => exact .inl (tx_abandonRecord s)
  | verified c =>
    rw [settleLink_paused hp (steady_writeVerified s c)]
    exact ofLink (link_writeVerified s c)
  | failed c =>
    rw [settleLink_paused hp (steady_writeFailed s c)]
    exact ofLink (link_writeFailed s c)
  | recordSent x hrun =>
    have ended : ∀ {u : State}, u.pausePin = true → u.link.tx = none → SendsOn s (settleLink u) := fun hu ht => by
      rw [settleLink_of_held (.inl hu)]
      exact .inr ht
    unfold Machine.recordSent
    simp only
    split
    · exact ended hp rfl
    · exact ended hp rfl
    · split_ifs
      · exact ended ((startedFrom_startUp _).pausePin.trans hp) (tx_startUp _)
      · exact ended hp rfl

theorem tx_beginStartUp {u : State} (hu : u.pausePin = true) : (beginStartUp u).link.tx = u.link.tx := by
  rw [beginStartUp, settleLink_of_held (.inl ((startedFrom_startUp _).pausePin.trans hu)), tx_startUp]

theorem exec_powerOn_false (s : State) (x : Straps) :
    exec (.powerOn false x) s = .next (beginStartUp { doReset s .powerOn with resetPin := false, straps := x }) := by
  rw [exec, execPowerOn]
  exact if_neg Bool.false_ne_true ▸ rfl

theorem exec_sendsOn {c : Instr} {s t : State} (h : exec c s = .next t) (hp : s.pausePin = true) (htp : t.pausePin = true) :
    SendsOn s t := by
  cases hc : ofPins c with
  | false =>
    obtain ⟨u, hu, k⟩ := exec_command s hc
    cases h.symm.trans hu
    exact k.sendsOn hp
  | true =>
    cases c with
    | powerOn held x =>
      have reset : (doReset s .powerOn).link.tx = none := rfl
      cases held with
      | true => cases h; exact .inr reset
      | false =>
        have started := tx_beginStartUp (u := { doReset s .powerOn with resetPin := false, straps := x }) hp
        rw [exec_powerOn_false] at h
        rw [← Host.Outcome.next.inj h, SendsOn, started]
        exact .inr reset
    | resetAsserted =>
      cases h
      split_ifs
      · exact .inl rfl
      · exact .inr rfl
    | resetReleased x =>
      cases h
      split_ifs
      · exact .inl (tx_beginStartUp (u := { s with resetPin := false, straps := x }) hp)
      · exact .inl rfl
    | pauseAsserted => cases h; exact .inl rfl
    | pauseReleased =>
      cases h
      revert htp
      split_ifs
      · intro htp
        exact absurd ((steady_settleLink { s with pausePin := false }).pausePin.symm.trans htp) (by simp)
      · intro htp
        cases htp
    | _ => cases hc

/-- Settles O7: under PAUSE the transmitter chooses nothing, and nothing else begins a record; a reset ends the one being sent. -/
theorem pausedLinkBeginsNoRecord : Obligations.PausedLinkBeginsNoRecord := by
  intro s t hp h htp
  unfold step at h
  split at h
  · next cs _ => exact exec_sendsOn (s := { s with pending := cs }) h hp htp
  · cases h
    exact .inl (by split_ifs <;> rfl)

end Sys2Proof.Machine

/-! # What the Entry Engine and the Card Engine may touch

Both engines work on the context of one position; of the rest of the part they change the pool, add frames to control queues and
notices to workstation queues, and nothing else. -/

namespace Sys2Proof.Machine

/-! ## Lines that only gain frames -/

/-- Line b is line a with frames added to its control queue; a STOPPED line gains none (R44). -/
structure Grown (a b : Line) : Prop where
  same : b = { a with control := b.control }
  front : a.control <+: b.control
  stopped : a.state = .stopped → b = a

theorem Grown.refl (a : Line) : Grown a a := ⟨rfl, List.prefix_rfl, fun _ => rfl⟩

theorem Grown.state {a b : Line} (h : Grown a b) : b.state = a.state := by rw [h.same]

theorem Grown.trans {a b c : Line} (h : Grown a b) (k : Grown b c) : Grown a c where
  same := by rw [k.same, h.same]
  front := h.front.trans k.front
  stopped hs := (k.stopped (h.state.trans hs)).trans (h.stopped hs)

/-- R60: a frame at the end of the control queue of a line that is not STOPPED. -/
theorem Grown.append {a : Line} (q : QEntry) (h : a.state ≠ .stopped) : Grown a { a with control := a.control ++ [q] } where
  same := rfl
  front := List.prefix_append _ _
  stopped hs := absurd hs h

/-! ## The frame of an engine's work -/

/-- The entry contexts at P and the card contexts at Q may have changed, an entry context keeping its soundness; each line has gained
frames at most, and the directory stands. -/
structure Works (P Q : Pos → Prop) (s t : State) : Prop where
  dir : t.dir = s.dir
  lines : ∀ l : LineId, Grown s.lines[l] t.lines[l]
  entry : ∀ p : Pos, ¬ P p → t.entry[p] = s.entry[p]
  sound : ∀ p : Pos, entryCtxSound s.entry[p] → entryCtxSound t.entry[p]
  card : ∀ p : Pos, ¬ Q p → t.card[p] = s.card[p]

/-- Besides, W2 and the bookkeeping of the UNIT_SENDs stand. -/
structure Touches (P Q : Pos → Prop) (s t : State) : Prop extends Works P Q s t where
  w2 : t.w2 = s.w2
  fanouts : t.fanouts = s.fanouts

/-- No position. -/
def nowhere (_ : Pos) : Prop := False

/-- Nothing of the contexts. -/
abbrev Offered : State → State → Prop := Touches nowhere nowhere

/-- The entry context at p alone. -/
abbrev OfEntry (p : Pos) : State → State → Prop := Touches (· = p) nowhere

/-- The card context at p alone. -/
abbrev OfCard (p : Pos) : State → State → Prop := Touches nowhere (· = p)

section
variable {P Q P' Q' : Pos → Prop} {s t u : State}

theorem Works.refl (s : State) : Works P Q s s := ⟨rfl, fun _ => .refl _, fun _ _ => rfl, fun _ => id, fun _ _ => rfl⟩

theorem Works.trans (h : Works P Q s t) (k : Works P Q t u) : Works P Q s u :=
  ⟨k.dir.trans h.dir, fun l => (h.lines l).trans (k.lines l), fun p hp => (k.entry p hp).trans (h.entry p hp),
    fun p hp => k.sound p (h.sound p hp), fun p hp => (k.card p hp).trans (h.card p hp)⟩

theorem Works.mono (h : Works P Q s t) (hP : ∀ p, P p → P' p) (hQ : ∀ p, Q p → Q' p) : Works P' Q' s t :=
  ⟨h.dir, h.lines, fun p hp => h.entry p (mt (hP p) hp), h.sound, fun p hp => h.card p (mt (hQ p) hp)⟩

theorem Touches.refl (s : State) : Touches P Q s s := ⟨.refl s, rfl, rfl⟩

theorem Touches.trans (h : Touches P Q s t) (k : Touches P Q t u) : Touches P Q s u :=
  ⟨h.toWorks.trans k.toWorks, k.w2.trans h.w2, k.fanouts.trans h.fanouts⟩

theorem Touches.mono (h : Touches P Q s t) (hP : ∀ p, P p → P' p) (hQ : ∀ p, Q p → Q' p) : Touches P' Q' s t :=
  ⟨h.toWorks.mono hP hQ, h.w2, h.fanouts⟩

theorem Touches.ite {c : Prop} [Decidable c] (h : Touches P Q s t) (k : Touches P Q s u) :
    Touches P Q s (if c then t else u) := by
  split <;> assumption

theorem Works.ite {c : Prop} [Decidable c] (h : Works P Q s t) (k : Works P Q s u) : Works P Q s (if c then t else u) := by
  split <;> assumption

theorem Touches.foldl {α : Type} {f : State → α → State} (h : ∀ t x, Touches P Q t (f t x)) (l : List α) (s : State) :
    Touches P Q s (l.foldl f s) := by
  induction l generalizing s with
  | nil => exact .refl s
  | cons x l ih => exact (h s x).trans (ih _)

/-- What changes no context may stand in any engine's work. -/
theorem Touches.widen (h : Offered s t) : Touches P Q s t := h.mono (fun _ h => h.elim) (fun _ h => h.elim)

theorem Works.card_eq (h : Works P nowhere s t) (p : Pos) : t.card[p] = s.card[p] := h.card p id

theorem Works.entry_eq (h : Works nowhere Q s t) (p : Pos) : t.entry[p] = s.entry[p] := h.entry p id

theorem Works.slotOf (h : Works P Q s t) (k : UnitKind) (p : Pos) : slotOf t k p = slotOf s k p := by
  unfold Machine.slotOf
  rw [h.dir]

/-! ## Named updates -/

theorem touches_modPool (s : State) (f : Pool → Pool) : Touches P Q s (s.modPool f) :=
  ⟨⟨rfl, fun _ => .refl _, fun _ _ => rfl, fun _ => id, fun _ _ => rfl⟩, rfl, rfl⟩

theorem works_pushW (s : State) (q : Cls) (n : Notice) : Works P Q s (s.pushW q n) :=
  ⟨by simp, fun l => by rw [State.pushW_lines]; exact .refl _, fun _ _ => by simp, fun p => by simp, fun _ _ => by simp⟩

theorem touches_pushW (s : State) (q : Cls) (n : Notice) (hq : q ≠ 2) : Touches P Q s (s.pushW q n) :=
  ⟨works_pushW s q n, by simp [hq], by simp⟩

theorem ofEntry_modEntry (s : State) (p : Pos) (f : EntryCtx → EntryCtx) (h : entryCtxSound s.entry[p] → entryCtxSound (f s.entry[p])) :
    OfEntry p s (s.modEntry p f) := by
  refine ⟨⟨rfl, fun _ => .refl _, fun p' hp => ?_, fun p' => ?_, fun _ _ => rfl⟩, rfl, rfl⟩
  · rw [State.modEntry_get, if_neg (Ne.symm hp)]
  · rw [State.modEntry_get]
    split
    · rename_i hp
      subst hp
      exact h
    · exact id

theorem ofCard_modCard (s : State) (p : Pos) (f : CardCtx → CardCtx) : OfCard p s (s.modCard p f) := by
  refine ⟨⟨rfl, fun _ => .refl _, fun _ _ => rfl, fun p' => id, fun p' hp => ?_⟩, rfl, rfl⟩
  rw [State.modCard_get, if_neg (Ne.symm hp)]

/-! ## The pool's operations -/

theorem touches_admit (s : State) (a : Admission) : Touches P Q s (admitRec s a).1 := by
  rcases admit_cases s a with ⟨t, -, h⟩ | ⟨r, -, -, h⟩ <;> rw [h] <;> dsimp only <;> exact touches_modPool s _

theorem touches_dropRef (s : State) (r : RecId) : Touches P Q s (dropRef s r) := touches_modPool _ _

theorem touches_addRef (s : State) (r : RecId) : Touches P Q s (addRef s r).1 := by
  rcases addRef_cases s r with ⟨-, h⟩ | ⟨-, h⟩ <;> rw [h] <;> dsimp only <;> exact touches_modPool s _

theorem touches_admitBuilt (s : State) (c : Cls) (o : Origin) (k : RecKind) (u : Urgency) (b : List Byte) :
    Touches P Q s (admitBuilt s c o k u b).1 := by
  unfold admitBuilt
  have h : Touches P Q s (admitRec s _).1 := touches_admit s
    { cls := c, need := chunkNeed b.length, origin := o, kind := k, urg := u, arrival := s.now, state := .stored
      promise := none }
  split <;> rename_i heq <;> rw [heq] at h <;> dsimp only at h ⊢
  · exact h
  · exact h.trans (touches_modPool _ _)

theorem touches_reserve (s : State) (k : NoticeKind) (tag : Byte) : Touches P Q s (reserve s k tag).1 := touches_admit s _

theorem touches_completePromise (s : State) (r : RecId) (k : NoticeKind) (q : Cls) (pos : Option Pos) (b : List Byte) (hq : q ≠ 2) :
    Touches P Q s (completePromise s r k q pos b) :=
  ((touches_modPool s _).trans (touches_modPool _ _)).trans (touches_pushW _ _ _ hq)

/-! ## Offers -/

theorem touches_offerControl (s : State) (l : LineId) (k : FrameKind) (dest : Addr) (t : Option EntryId) (o : Owner)
    (b : List Byte) : Touches P Q s (offerControl s l k dest t o b).1 := by
  unfold offerControl
  split
  · exact .refl s
  · rename_i hl
    have h : Touches P Q s _ := touches_admitBuilt s (classOfUrgency (partUrgency k)) .part (.frame k) (partUrgency k) b
    split <;> rename_i heq <;> rw [heq] at h <;> dsimp only at h ⊢
    · exact h
    · rename_i s1 r
      refine h.trans ⟨⟨rfl, fun l' => ?_, fun _ _ => rfl, fun _ => id, fun _ _ => rfl⟩, rfl, rfl⟩
      rw [State.modLine_get]
      split
      · rename_i hll
        subst hll
        refine .append _ ?_
        rw [(h.lines l).state]
        simpa [State.lineStopped] using hl
      · exact .refl _

theorem touches_offerDisplay (s : State) (l : LineId) (dest : Addr) (e : EntryId) (p : Pos) (d : DisplayLines) (t : Tone) :
    Touches P Q s (offerDisplay s l dest e p d t).1 := by
  unfold offerDisplay
  split
  · exact .refl s
  · split
    · dsimp only
      exact touches_modPool s _
    · exact touches_offerControl _ _ _ _ _ _ _

theorem touches_keyNotice (s : State) (p : Pos) (e : EntryId) (codes : List Byte) : Touches P Q s (keyNotice s p e codes) := by
  unfold keyNotice
  have h : Touches P Q s _ := touches_admitBuilt s 1 .part (.notice .key) 0 codes
  split <;> rename_i heq <;> rw [heq] at h <;> dsimp only at h ⊢
  · exact h
  · exact h.trans (touches_pushW _ _ _ (by decide))

end

/-! ## The Entry Engine -/

theorem ofEntry_setDisplayPending (s : State) (p : Pos) (t : Tone) : OfEntry p s (setDisplayPending s p t) :=
  ofEntry_modEntry s p _ fun h => ⟨by dsimp only; split <;> simp_all [armMs], h.2⟩

theorem ofEntry_clearDisplayPending (s : State) (p : Pos) : OfEntry p s (clearDisplayPending s p) :=
  ofEntry_modEntry s p _ fun h => ⟨rfl, h.2⟩

theorem ofEntry_displayUpdate (s : State) (p : Pos) (d : DisplayLines) (t : Tone) : OfEntry p s (displayUpdate s p d t) := by
  have wanted : OfEntry p s (s.modEntry p fun c => { c with wanted := d }) := ofEntry_modEntry s p _ id
  unfold displayUpdate
  simp only
  split
  · exact (wanted.trans (ofEntry_clearDisplayPending _ _)).trans (ofEntry_modEntry _ _ _ id)
  · rename_i e l a _
    have h := wanted.trans (touches_offerDisplay (P := (· = p)) (Q := nowhere) _ l a e p d
      (strongerTone t (s.modEntry p fun c => { c with wanted := d }).entry[p].pendTone))
    split <;> rename_i heq <;> rw [heq] at h <;> dsimp only at h ⊢
    · exact h.trans (ofEntry_clearDisplayPending _ _)
    · exact h.trans (ofEntry_setDisplayPending _ _ _)

theorem ofEntry_displayOutcome (s : State) (p : Pos) (o : FrameOutcome) : OfEntry p s (displayOutcome s p o) := by
  unfold displayOutcome
  split
  · exact ofEntry_setDisplayPending _ _ _
  · exact ofEntry_setDisplayPending _ _ _
  · exact ofEntry_setDisplayPending _ _ _
  · exact .refl s

theorem displayUpdate_sess (s : State) (p : Pos) (d : DisplayLines) (t : Tone) :
    (displayUpdate s p d t).entry[p].sess = s.entry[p].sess ∧
      (displayUpdate s p d t).entry[p].guardTimer = s.entry[p].guardTimer := by
  unfold displayUpdate
  simp only
  split
  · simp [clearDisplayPending]
  · rename_i e l a _
    have h := (touches_offerDisplay (P := nowhere) (Q := nowhere) (s.modEntry p fun c => { c with wanted := d }) l a e p d
      (strongerTone t (s.modEntry p fun c => { c with wanted := d }).entry[p].pendTone)).entry_eq p
    split <;> rename_i heq <;> rw [heq] at h <;> dsimp only at h ⊢
    · simp [clearDisplayPending, h]
    · simp [setDisplayPending, h]

/-- R132: an update ends taken, or pending with the retry timer running. -/
theorem displayUpdate_pending (s : State) (p : Pos) (d : DisplayLines) (t : Tone) :
    (displayUpdate s p d t).entry[p].dispPending = (displayUpdate s p d t).entry[p].retryTimer.isSome := by
  unfold displayUpdate
  simp only
  split
  · simp [clearDisplayPending]
  · split
    · simp [clearDisplayPending]
    · simp only [setDisplayPending, State.modEntry_get, if_pos]
      split <;> simp_all [armMs]

/-- A changed context at p stands in the engine's work as long as its soundness is given anew at the end. -/
theorem OfEntry.of_modEntry {s t : State} {p : Pos} {f : EntryCtx → EntryCtx} (h : OfEntry p (s.modEntry p f) t)
    (hs : entryCtxSound s.entry[p] → entryCtxSound t.entry[p]) : OfEntry p s t := by
  have other : ∀ p' : Pos, p' ≠ p → t.entry[p'] = s.entry[p'] := fun p' hp => by
    rw [h.entry p' hp, State.modEntry_get, if_neg (Ne.symm hp)]
  refine ⟨⟨h.dir, h.lines, other, fun p' => ?_, h.card⟩, h.w2, h.fanouts⟩
  by_cases hp : p' = p
  · subst hp
    exact hs
  · rw [other p' hp]
    exact id

/-- R133: with its retry timer run out a context is taken up again, waits anew, or has nothing pending. -/
theorem ofEntry_displayRetry (s : State) (p : Pos) : OfEntry p s (displayRetry s p) := by
  have kept : ∀ {c : EntryCtx}, c.sess = s.entry[p].sess → c.guardTimer = s.entry[p].guardTimer →
      c.dispPending = c.retryTimer.isSome → entryCtxSound s.entry[p] → entryCtxSound c := fun h1 h2 h3 h => by
    refine ⟨h3, ?_⟩
    rw [h1, h2]
    exact h.2
  unfold displayRetry
  simp only
  split
  · rename_i hp
    exact OfEntry.of_modEntry (.refl _) (kept (by simp) (by simp) (by simpa using hp))
  · rename_i hp
    split
    · exact OfEntry.of_modEntry (ofEntry_modEntry _ _ _ fun h => ⟨by simpa [armMs] using hp, h.2⟩)
        (kept (by simp) (by simp) (by simpa [armMs] using hp))
    · have h := displayUpdate_sess (s.modEntry p fun c => { c with retryTimer := none }) p
        (s.modEntry p fun c => { c with retryTimer := none }).entry[p].wanted .none
      exact OfEntry.of_modEntry (ofEntry_displayUpdate _ _ _ _)
        (kept (h.1.trans (by simp)) (h.2.trans (by simp)) (displayUpdate_pending _ _ _ _))

/-- R126: the context after a session's end, but for its display: IDLE. -/
theorem endSession_sess (s : State) (p : Pos) (ss : Session) (o : EntryOutcome) (c : Cause) (t : Tone) :
    (endSession s p ss o c t).entry[p].sess = none := by
  unfold endSession
  simp only
  split
  · rw [State.modEntry_get, if_pos rfl]
    exact (displayUpdate_sess _ _ _ _).1.trans (by simp)
  · exact (displayUpdate_sess _ _ _ _).1.trans (by simp)

theorem ofEntry_endSession (s : State) (p : Pos) (ss : Session) (o : EntryOutcome) (c : Cause) (t : Tone) :
    OfEntry p s (endSession s p ss o c t) := by
  have sessNone := endSession_sess s p ss o c t
  have h := ((touches_completePromise (P := (· = p)) (Q := nowhere) s ss.result .entryResult 0 (some p)
    (entryResultBody p ss o c) (by decide)).trans
    (ofEntry_modEntry _ p (fun x => { x with sess := none }) fun h => ⟨h.1, trivial⟩)).trans
    (ofEntry_displayUpdate _ p (closingLines ((completePromise s ss.result .entryResult 0 (some p)
      (entryResultBody p ss o c)).modEntry p fun x => { x with sess := none }) c) t)
  unfold endSession at sessNone ⊢
  simp only at sessNone ⊢
  split at sessNone
  · rename_i hpin
    rw [if_pos hpin]
    refine h.trans (ofEntry_modEntry _ _ _ fun hc => ⟨hc.1, ?_⟩)
    rw [State.modEntry_get, if_pos rfl] at sessNone
    dsimp only at sessNone ⊢
    rw [sessNone]
    trivial
  · rename_i hpin
    rw [if_neg hpin]
    exact h

theorem ofEntry_abortSession (s : State) (p : Pos) (c : Cause) : OfEntry p s (abortSession s p c) := by
  unfold abortSession
  split
  · exact .refl s
  · exact ofEntry_endSession _ _ _ _ _ _

theorem abortSession_sess (s : State) (p : Pos) (c : Cause) : (abortSession s p c).entry[p].sess = none := by
  unfold abortSession
  split
  · assumption
  · exact endSession_sess _ _ _ _ _ _

/-! ## Keys -/

theorem valueSound_amountKey {ss s1 : Session} {d maxV minV : Nat} {k : Key} (hf : ss.field = .amount d maxV minV)
    (h : amountKey ss maxV minV k = .accepted s1) (hv : valueSound ss) : s1.field = ss.field ∧ valueSound s1 := by
  simp only [valueSound, hf] at hv
  cases k with
  | digit n =>
    simp only [amountKey] at h
    split at h <;> cases h
    exact ⟨rfl, by simpa only [valueSound, hf]⟩
  | doubleZero =>
    simp only [amountKey] at h
    split at h <;> cases h
    exact ⟨rfl, by simpa only [valueSound, hf]⟩
  | back =>
    cases h
    exact ⟨rfl, by simp only [valueSound, hf]; omega⟩
  | clear =>
    cases h
    exact ⟨rfl, by simp only [valueSound, hf]; omega⟩
  | enter =>
    simp only [amountKey] at h
    split at h <;> cases h
  | cancel => cases h

/-- R121, R122: the digits of a session stay within its longest length, and are decimal. -/
def digitsSound (hi : Nat) (ds : List Nat) : Prop := ds.length ≤ hi ∧ ∀ d ∈ ds, d ≤ 9

theorem digitsSound_digitsKey {ss s1 : Session} {lo hi : Nat} {pin : Bool} {k : Key} (hk : ∀ n, k = .digit n → n ≤ 9)
    (h : digitsKey ss lo hi pin k = .accepted s1) (hv : digitsSound hi ss.digits) :
    s1.field = ss.field ∧ digitsSound hi s1.digits := by
  obtain ⟨hlen, hdec⟩ := hv
  cases k with
  | digit n =>
    simp only [digitsKey] at h
    split at h <;> cases h
    refine ⟨rfl, by simp; omega, fun d hd => ?_⟩
    rcases List.mem_append.mp hd with hd | hd
    · exact hdec d hd
    · exact List.mem_singleton.mp hd ▸ hk n rfl
  | doubleZero =>
    simp only [digitsKey] at h
    split at h <;> cases h
    rename_i hroom
    refine ⟨rfl, by simp; omega, fun d hd => ?_⟩
    rcases List.mem_append.mp hd with hd | hd
    · exact hdec d hd
    · simp at hd
      omega
  | back =>
    cases h
    exact ⟨rfl, by simp; omega, fun d hd => hdec d (List.dropLast_subset _ hd)⟩
  | clear =>
    cases h
    exact ⟨rfl, by simp, by simp⟩
  | enter =>
    simp only [digitsKey] at h
    split at h <;> cases h
  | cancel => cases h

/-- R117: what an accepted key leaves keeps its field's kind and ranges, and a value within them. -/
theorem valueSound_keyFate {ss s1 : Session} {k : Key} (hk : ∀ n, k = .digit n → n ≤ 9) (h : keyFate ss k = .accepted s1)
    (hv : valueSound ss) : s1.field = ss.field ∧ valueSound s1 := by
  unfold keyFate at h
  split at h <;> rename_i hf
  · exact valueSound_amountKey hf h hv
  · obtain ⟨hfield, hd⟩ := digitsSound_digitsKey hk h (by simpa only [digitsSound, valueSound, hf] using hv)
    exact ⟨hfield, by simpa only [digitsSound, valueSound, hfield, hf] using hd⟩
  · obtain ⟨hfield, hd⟩ := digitsSound_digitsKey hk h (by simpa only [digitsSound, valueSound, hf] using hv)
    exact ⟨hfield, by simpa only [digitsSound, valueSound, hfield, hf] using hd⟩
  · cases k <;> cases h

theorem sessionSound_keyTaken {ss : Session} (hf : fieldSound ss.field) (hv : valueSound ss) : sessionSound (keyTaken ss) :=
  ⟨hf, hv, rfl, rfl⟩

/-- R198: the digit keys are those of the ten digits. -/
theorem keyOfCode_digit {b : Byte} {n : Nat} (h : keyOfCode b = .key (.digit n)) : n ≤ 9 := by
  unfold keyOfCode at h
  dsimp only at h
  split at h
  · cases h
    assumption
  · split_ifs at h <;> cases h

theorem ofEntry_pinRemainder (s : State) (p : Pos) (e : EntryId) (codes : List Byte) : OfEntry p s (pinRemainder s p e codes) := by
  induction codes generalizing s with
  | nil => exact .refl s
  | cons c cs ih =>
    unfold pinRemainder
    exact Touches.trans (.ite (touches_keyNotice _ _ _ _) (.refl s)) (ih _)

theorem ofEntry_frameRemainder (s : State) (p : Pos) (e : EntryId) (w : Bool) (codes : List Byte) :
    OfEntry p s (frameRemainder s p e w codes) := by
  unfold frameRemainder
  exact .ite (ofEntry_pinRemainder _ _ _ _) (.ite (.refl s) (touches_keyNotice _ _ _ _))

/-- A taken key leaves a context sound that was, when it leaves the session so. -/
theorem ofEntry_keyTaken (s : State) (p : Pos) {ss s1 : Session} (hs : s.entry[p].sess = some ss)
    (h : sessionSound ss → fieldSound s1.field ∧ valueSound s1) :
    OfEntry p s (s.modEntry p fun x => { x with sess := some (keyTaken s1) }) :=
  ofEntry_modEntry s p _ fun hc => by
    obtain ⟨hp, hm⟩ := hc
    rw [hs] at hm
    obtain ⟨hf, hv⟩ := h hm.1
    exact ⟨hp, sessionSound_keyTaken hf hv, hm.2⟩

theorem ofEntry_takeKeys (p : Pos) (e : EntryId) (codes : List Byte) (taken buzz : Bool) (s : State) :
    OfEntry p s (takeKeys p e codes taken buzz s) := by
  induction codes generalizing taken buzz s with
  | nil =>
    unfold takeKeys
    split
    · exact .ite (ofEntry_displayUpdate _ _ _ _) (.refl s)
    · exact .refl s
  | cons c cs ih =>
    unfold takeKeys
    split
    · exact .refl s
    · rename_i ss hs
      split
      · exact (touches_keyNotice _ _ _ _).trans (ih _ _ _)
      · exact ih _ _ _
      · rename_i k hk
        split
        · rename_i s1 hfate
          refine (ofEntry_keyTaken s p hs fun h => ?_).trans (ih _ _ _)
          obtain ⟨hfield, hv⟩ := valueSound_keyFate (fun n hn => keyOfCode_digit (hk.trans (congrArg _ hn))) hfate h.2.1
          exact ⟨hfield ▸ h.1, hv⟩
        · exact (ofEntry_keyTaken s p hs fun h => ⟨h.1, h.2.1⟩).trans (ih _ _ _)
        · exact (ofEntry_endSession _ _ _ _ _ _).trans (ofEntry_frameRemainder _ _ _ _ _)

theorem ofEntry_guardKeys (s : State) (p : Pos) (e : EntryId) (codes : List Byte) : OfEntry p s (guardKeys s p e codes) := by
  unfold guardKeys
  simp only
  have h : OfEntry p s (if (codes.filter fun b => !guarded b).isEmpty || !s.time.attended then s
      else keyNotice s p e (codes.filter fun b => !guarded b)) := .ite (.refl s) (touches_keyNotice _ _ _ _)
  exact .ite (h.trans (ofEntry_displayUpdate _ _ _ _)) h

/-! ## The Card Engine -/

theorem ofCard_releaseHolds (s : State) (p : Pos) : OfCard p s (releaseHolds s p) :=
  (ofCard_modCard _ _ _).trans (Touches.foldl (fun t r => touches_dropRef t r) _ _)

theorem ofCard_cardEnter (s : State) (p : Pos) (st : CardState) (c : Cause) (cur : Option (CardCommand × RecId)) (n : Nat) :
    OfCard p s (cardEnter s p st c cur n) := by
  unfold cardEnter
  exact Touches.trans (.ite (.refl s) (ofCard_releaseHolds s p)) (ofCard_modCard _ _ _)

theorem ofCard_cardTo (s : State) (p : Pos) (st : CardState) (c : Cause) : OfCard p s (cardTo s p st c) :=
  ofCard_cardEnter _ _ _ _ _ _

theorem offered_offerCommand (s : State) (p : Pos) (cmd : CardCommand) (m : BitVec 3) :
    Offered s (offerCommand s p cmd m).1 := by
  unfold offerCommand
  split
  · exact .refl s
  · exact touches_offerControl _ _ _ _ _ _ _

theorem ofCard_readEnd (s : State) (p : Pos) (o : ReadOutcome) (c : Cause) (b : Byte) : OfCard p s (readEnd s p o c b) := by
  unfold readEnd
  split
  · exact .refl s
  · exact (touches_completePromise _ _ _ _ _ _ (by decide)).trans (ofCard_modCard _ _ _)

theorem ofCard_readEnd_cardTo (s : State) (p : Pos) (o : ReadOutcome) (c c' : Cause) (b : Byte) (st : CardState) :
    OfCard p s (cardTo (readEnd s p o c b) p st c') :=
  (ofCard_readEnd _ _ _ _ _).trans (ofCard_cardTo _ _ _ _)

theorem ofCard_startRead (s : State) (p : Pos) (pr cmd : RecId) (m : BitVec 3) (tag : Byte) (sec : Nat) (c : Cause) :
    OfCard p s (startRead s p pr cmd m tag sec c) :=
  ((ofCard_releaseHolds s p).trans (ofCard_modCard _ _ _)).trans (ofCard_cardEnter _ _ _ _ _ _)

theorem ofCard_cardOutcome (s : State) (p : Pos) (r : RecId) (o : FrameOutcome) : OfCard p s (cardOutcome s p r o) := by
  unfold cardOutcome
  split
  · exact .refl s
  · split
    · exact .refl s
    · split
      · exact .refl s
      · exact .refl s
      · exact ofCard_readEnd_cardTo _ _ _ _ _ _ _
      · exact ofCard_readEnd_cardTo _ _ _ _ _ _ _
      · exact ofCard_readEnd_cardTo _ _ _ _ _ _ _
      · exact ofCard_cardTo _ _ _ _
      · exact ofCard_cardTo _ _ _ _
      · exact ofCard_cardTo _ _ _ _

theorem ofCard_ownCommand (s : State) (p : Pos) (cmd : CardCommand) (st : CardState) (c : Cause) :
    OfCard p s (ownCommand s p cmd st c) := by
  unfold ownCommand
  have h : OfCard p s _ := (offered_offerCommand s p cmd 0).widen
  split <;> rename_i heq <;> rw [heq] at h <;> dsimp only at h ⊢
  · exact h.trans (ofCard_cardEnter _ _ _ _ _ _)
  · exact h.trans (ofCard_cardTo _ _ _ _)
  · exact h.trans (ofCard_cardTo _ _ _ _)

theorem ofCard_readOnInsert (s : State) (p : Pos) : OfCard p s (readOnInsert s p) := by
  unfold readOnInsert
  have h : OfCard p s _ := touches_reserve s .readDone 0
  split <;> rename_i heq <;> rw [heq] at h <;> dsimp only at h ⊢
  · exact h.trans (ofCard_cardTo _ _ _ _)
  · rename_i s1 pr
    have k := h.trans (offered_offerCommand s1 p .read 7).widen
    split <;> rename_i heq2 <;> rw [heq2] at k <;> dsimp only at k ⊢
    · exact k.trans (ofCard_startRead _ _ _ _ _ _ _ _)
    · exact (k.trans (touches_dropRef _ _)).trans (ofCard_cardTo _ _ _ _)

/-- R143: a read in progress ends before what follows. -/
theorem ofCard_endRead (s : State) (p : Pos) (o : ReadOutcome) (c : Cause) :
    OfCard p s (if s.card[p].state = .reading then readEnd s p o c 0 else s) :=
  .ite (ofCard_readEnd _ _ _ _ _) (.refl s)

theorem ofCard_cardGone (s : State) (p : Pos) (c : Cause) : OfCard p s (cardGone s p c) := by
  unfold cardGone
  simp only
  exact .ite (.refl s) ((ofCard_endRead _ _ _ _).trans (ofCard_cardTo _ _ _ _))

theorem ofCard_cardMove (s : State) (p : Pos) (m : Movement) : OfCard p s (cardMove s p m) := by
  unfold cardMove
  split
  · unfold cardInserted
    simp only
    have h := ofCard_endRead s p .withdrawn .cardInserted
    exact .ite (h.trans (ofCard_ownCommand _ _ _ _ _))
      (.ite (h.trans (ofCard_readOnInsert _ _)) (h.trans (ofCard_cardTo _ _ _ _)))
  · exact ofCard_cardGone _ _ _
  · exact ofCard_cardGone _ _ _
  · exact .ite (ofCard_cardTo _ _ _ _) (.refl s)
  · exact (ofCard_endRead _ _ _ _).trans (ofCard_cardTo _ _ _ _)

theorem ofCard_cardMoveFrame (s : State) (p : Pos) (r : RecId) : OfCard p s (cardMoveFrame s p r) := by
  unfold cardMoveFrame
  refine Touches.trans ?_ (touches_dropRef _ _)
  split
  · split
    · exact ofCard_cardMove _ _ _
    · exact .refl s
  · exact .refl s

theorem offered_trackNotice (s : State) (p : Pos) (e : EntryId) (r : RecId) (b : Bool) : Offered s (trackNotice s p e r b) := by
  unfold trackNotice
  have h : Offered s _ := touches_addRef s r
  split <;> rename_i heq <;> rw [heq] at h <;> dsimp only at h ⊢
  · exact h
  · exact h.trans (touches_pushW _ _ _ (by decide))

theorem ofCard_trackFrame (s : State) (p : Pos) (e : EntryId) (r : RecId) : OfCard p s (trackFrame s p e r) := by
  unfold trackFrame
  split
  · exact touches_dropRef _ _
  · simp only
    split
    · rename_i i st _ _
      have h := (ofCard_modCard s p fun c => { c with holds := c.holds.set i (some (st, r)) }).trans
        (offered_trackNotice _ p e r false).widen
      exact .ite (h.trans (ofCard_readEnd_cardTo _ _ _ _ _ _ _)) h
    · exact touches_dropRef _ _

theorem ofCard_cardStatusReport (s : State) (p : Pos) (b : Bool) : OfCard p s (cardStatusReport s p b) := by
  unfold cardStatusReport
  exact .ite (.refl s) (.ite (ofCard_cardTo _ _ _ _) (.ite (ofCard_cardTo _ _ _ _) (ofCard_ownCommand _ _ _ _ _)))

theorem ofCard_cardServiceEnd (s : State) (p : Pos) (c : Cause) : OfCard p s (cardServiceEnd s p c) := by
  unfold cardServiceEnd
  simp only
  exact .ite (.refl s) ((ofCard_endRead _ _ _ _).trans (ofCard_cardTo _ _ _ _))

theorem ofCard_cardLineStopped (s : State) (p : Pos) : OfCard p s (cardLineStopped s p) :=
  (ofCard_endRead _ _ _ _).trans (ofCard_cardTo _ _ _ _)

theorem ofCard_cardUnattended (s : State) (p : Pos) : OfCard p s (cardUnattended s p) := by
  unfold cardUnattended
  split
  · exact ofCard_ownCommand _ _ _ _ _
  · exact ofCard_ownCommand _ _ _ _ _
  · exact (ofCard_readEnd _ _ _ _ _).trans (ofCard_ownCommand _ _ _ _ _)
  · exact .refl s

/-! ## What the Directory asks of the engines -/

theorem touches_endUnitSessions (s : State) (k : UnitKind) (pos : Option Pos) (c : Cause) :
    Touches (fun p => pos = some p) (fun p => pos = some p) s (endUnitSessions s k pos c) := by
  unfold endUnitSessions
  split
  · exact .refl s
  · split
    · exact (ofEntry_abortSession _ _ _).mono (fun _ h => congrArg some h.symm) (fun _ h => h.elim)
    · exact (ofCard_cardServiceEnd _ _ _).mono (fun _ h => h.elim) (fun _ h => congrArg some h.symm)

end Sys2Proof.Machine

/-! # Card contexts: how each change of state leaves them -/

namespace Sys2Proof.Machine

/-! ## Named updates of one context -/

theorem modCard_eq_atCard (s : State) (p : Pos) (f : CardCtx → CardCtx) : s.modCard p f = atCard s p (f s.card[p]) := rfl

@[simp] theorem atCard_get (s : State) (p p' : Pos) (c : CardCtx) :
    (atCard s p c).card[p'] = if p = p' then c else s.card[p'] := State.modCard_get s p p' fun _ => c

@[simp] theorem atCard_self (s : State) (p : Pos) (c : CardCtx) : (atCard s p c).card[p] = c := by
  rw [atCard_get, if_pos rfl]

@[simp] theorem atCard_atCard (s : State) (p : Pos) (c d : CardCtx) : atCard (atCard s p c) p d = atCard s p d := by
  simp [atCard]

@[simp] theorem atEntry_get (s : State) (p p' : Pos) (c : EntryCtx) :
    (atEntry s p c).entry[p'] = if p = p' then c else s.entry[p'] := State.modEntry_get s p p' fun _ => c

@[simp] theorem atEntry_self (s : State) (p : Pos) (c : EntryCtx) : (atEntry s p c).entry[p] = c := by
  rw [atEntry_get, if_pos rfl]

@[simp] theorem atEntry_atEntry (s : State) (p : Pos) (c d : EntryCtx) : atEntry (atEntry s p c) p d = atEntry s p d := by
  simp [atEntry]

theorem modEntry_eq_atEntry (s : State) (p : Pos) (f : EntryCtx → EntryCtx) : s.modEntry p f = atEntry s p (f s.entry[p]) := rfl

theorem dropRefs_eq (rs : List RecId) (s : State) : rs.foldl dropRef s = { s with pool := rs.foldl Pool.dropRef s.pool } := by
  induction rs generalizing s with
  | nil => rfl
  | cons r rs ih =>
    rw [List.foldl_cons, List.foldl_cons, ih]
    rfl

/-! ## A change of state (R137) -/

theorem heldRecords_eq (c : CardCtx) : heldRecords c = heldBy c := by
  unfold heldRecords heldBy
  generalize c.holds = v
  obtain ⟨⟨l⟩, h⟩ := v
  match l, h with
  | [a, b, d], _ => rfl

theorem releaseHolds_eq (s : State) (p : Pos) :
    releaseHolds s p = atCard { s with pool := (heldBy s.card[p]).foldl Pool.dropRef s.pool } p
      { s.card[p] with holds := Vector.replicate 3 none } := by
  rw [releaseHolds, dropRefs_eq, heldRecords_eq]
  rfl

theorem holdsTracks_iff (st : CardState) : st.holdsTracks = true ↔ st = .reading ∨ st = .read := by cases st <;> decide

theorem cardEnter_eq (s : State) (p : Pos) (st : CardState) (cause : Cause) (cur : Option (CardCommand × RecId)) (n : Nat) :
    cardEnter s p st cause cur n =
      atCard { s with pool := holdsDropped s p st } p (entered s s.card[p] st cause cur n) := by
  unfold cardEnter
  by_cases h : st.holdsTracks = true
  · have hst := (holdsTracks_iff st).mp h
    simp only [h, if_true, holdsDropped, entered, if_pos hst]
    rfl
  · have hst := mt (holdsTracks_iff st).mpr h
    simp only [h, if_false, Bool.false_eq_true, holdsDropped, entered, if_neg hst, releaseHolds_eq, modCard_eq_atCard, atCard_atCard,
      atCard_self]
    rfl

theorem cardTo_eq (s : State) (p : Pos) (st : CardState) (cause : Cause) :
    cardTo s p st cause = atCard { s with pool := holdsDropped s p st } p (entered s s.card[p] st cause none 0) :=
  cardEnter_eq _ _ _ _ _ _

/-- R138: a command is the current one of the state that it gives. -/
def commandOf : CardState → Option (CardCommand × RecId) → Prop
  | _, none => True
  | st, some (.read, _) => st = .reading
  | st, some (.eject, _) => st = .ejecting
  | st, some (.retain, _) => st = .retaining

theorem cardSound_entered {s : State} {c : CardCtx} {st : CardState} {cause : Cause} {cur : Option (CardCommand × RecId)} {n : Nat}
    (hr : c.result.isSome ↔ st = .reading) (hc : commandOf st cur) : cardSound (entered s c st cause cur n) := by
  refine ⟨?_, ?_, ?_, hr, ?_, ?_⟩
  · dsimp only [entered]; split <;> simp_all
  · dsimp only [entered]; split <;> simp_all
  · dsimp only [entered]; split <;> simp_all
  · intro hst
    have : ¬ (st = .reading ∨ st = .read) := mt (holdsTracks_iff st).mpr (by rw [show st.holdsTracks = false from hst]; decide)
    simp only [entered, if_neg this]
  · match cur with
    | none => trivial
    | some (.read, _) => exact hc
    | some (.eject, _) => exact hc
    | some (.retain, _) => exact hc

/-! ## The end of a read (R143) -/

theorem readEnd_card (s : State) (p : Pos) (o : ReadOutcome) (c : Cause) (b : Byte) :
    (readEnd s p o c b).card[p] = { s.card[p] with
      result := none
      readTimer := if s.card[p].result.isSome then none else s.card[p].readTimer } := by
  unfold readEnd
  split
  · rename_i h
    generalize s.card[p] = c at h ⊢
    cases c
    cases h
    rfl
  · rename_i r h
    rw [State.modCard_get, if_pos rfl, h]
    have k := (touches_completePromise (P := nowhere) (Q := nowhere) s r .readDone 1 (some p)
      (readDoneBody p s.card[p] o c false b) (by decide)).card_eq p
    rw [k]
    rfl

theorem readEnd_result (s : State) (p : Pos) (o : ReadOutcome) (c : Cause) (b : Byte) :
    (readEnd s p o c b).card[p].result = none := by rw [readEnd_card]

theorem cardEnter_sound {s : State} {p : Pos} {st : CardState} {cause : Cause} {cur : Option (CardCommand × RecId)} {n : Nat}
    (hr : s.card[p].result.isSome ↔ st = .reading) (hc : commandOf st cur) : cardSound (cardEnter s p st cause cur n).card[p] := by
  rw [cardEnter_eq, atCard_self]
  exact cardSound_entered hr hc

theorem cardTo_sound {s : State} {p : Pos} {st : CardState} {cause : Cause} (hr : s.card[p].result = none) (hst : st ≠ .reading) :
    cardSound (cardTo s p st cause).card[p] :=
  cardEnter_sound (by rw [hr]; simp [hst]) trivial

/-- R137, R147: outside READING a sound context has no result record. -/
theorem cardSound.result_none {c : CardCtx} (h : cardSound c) (hs : c.state ≠ .reading) : c.result = none := by
  have hr := h.2.2.2.1
  cases hc : c.result with
  | none => rfl
  | some r => exact absurd (hr.mp (by simp [hc])) hs

/-- R143: once a read in progress, if one is, has ended, the context has no result record. -/
theorem endRead_result {s : State} {p : Pos} (h : cardSound s.card[p]) (o : ReadOutcome) (c : Cause) :
    (if s.card[p].state = .reading then readEnd s p o c 0 else s).card[p].result = none := by
  split
  · exact readEnd_result _ _ _ _ _
  · rename_i hs
    exact h.result_none hs

/-! ## The engine's operations keep the context sound -/

/-- The card contexts that were sound are sound. -/
def CardsKept (s t : State) : Prop := ∀ p : Pos, cardSound s.card[p] → cardSound t.card[p]

theorem CardsKept.refl (s : State) : CardsKept s s := fun _ => id

theorem CardsKept.trans {s t u : State} (h : CardsKept s t) (k : CardsKept t u) : CardsKept s u := fun p hp => k p (h p hp)

theorem CardsKept.ite {s t u : State} {c : Prop} [Decidable c] (h : CardsKept s t) (k : CardsKept s u) :
    CardsKept s (if c then t else u) := by
  split <;> assumption

theorem CardsKept.foldl {α : Type} {f : State → α → State} (h : ∀ t x, CardsKept t (f t x)) (l : List α) (s : State) :
    CardsKept s (l.foldl f s) := by
  induction l generalizing s with
  | nil => exact .refl s
  | cons x l ih => exact (h s x).trans (ih _)

theorem CardsKept.of_eq {s t : State} (h : t.card = s.card) : CardsKept s t := fun p hp => by rw [h]; exact hp

/-- Nothing but entry contexts and queues has changed. -/
theorem Works.cardsKept {P : Pos → Prop} {s t : State} (h : Works P nowhere s t) : CardsKept s t := fun p hp => by
  rw [h.card_eq p]; exact hp

/-- What works on the card context at p alone keeps all sound when it keeps that one. -/
theorem Touches.cardsKept {s t : State} {p : Pos} (h : OfCard p s t) (hp : cardSound s.card[p] → cardSound t.card[p]) :
    CardsKept s t := fun p' hp' => by
  by_cases hpp : p' = p
  · subst hpp
    exact hp hp'
  · rw [h.card p' hpp]
    exact hp'

theorem cardsKept_readEnd_cardTo (s : State) (p : Pos) (o : ReadOutcome) (c c' : Cause) (b : Byte) {st : CardState}
    (hst : st ≠ .reading) : CardsKept s (cardTo (readEnd s p o c b) p st c') :=
  (ofCard_readEnd_cardTo _ _ _ _ _ _ _).cardsKept fun _ => cardTo_sound (readEnd_result _ _ _ _ _) hst

theorem startRead_sound (s : State) (p : Pos) (pr cmd : RecId) (m : BitVec 3) (tag : Byte) (sec : Nat) (c : Cause) :
    cardSound (startRead s p pr cmd m tag sec c).card[p] :=
  cardEnter_sound (by simp) rfl

theorem cardsKept_startRead (s : State) (p : Pos) (pr cmd : RecId) (m : BitVec 3) (tag : Byte) (sec : Nat) (c : Cause) :
    CardsKept s (startRead s p pr cmd m tag sec c) :=
  (ofCard_startRead _ _ _ _ _ _ _ _).cardsKept fun _ => startRead_sound _ _ _ _ _ _ _ _

theorem cardsKept_cardOutcome (s : State) (p : Pos) (r : RecId) (o : FrameOutcome) : CardsKept s (cardOutcome s p r o) := by
  refine (ofCard_cardOutcome s p r o).cardsKept fun h => ?_
  unfold cardOutcome
  split
  · exact h
  · rename_i cmd r1 hcur
    have other : cmd ≠ .read → s.card[p].result = none := fun hcmd => by
      refine h.result_none fun hs => ?_
      have k := h.2.2.2.2.2
      unfold currentSound at k
      rw [hcur] at k
      cases cmd with
      | read => exact hcmd rfl
      | eject => cases hs.symm.trans k
      | retain => cases hs.symm.trans k
    split
    · exact h
    · split
      · exact h
      · exact h
      · exact cardTo_sound (readEnd_result _ _ _ _ _) (by decide)
      · exact cardTo_sound (readEnd_result _ _ _ _ _) (by decide)
      · exact cardTo_sound (readEnd_result _ _ _ _ _) (by decide)
      · rename_i hcmd
        exact cardTo_sound (other hcmd) (by decide)
      · rename_i hcmd
        exact cardTo_sound (other hcmd) (by decide)
      · rename_i hcmd _ _ _ _ _ _
        exact cardTo_sound (other hcmd) (by decide)

theorem ownCommand_sound {s : State} {p : Pos} {cmd : CardCommand} {st : CardState} {c : Cause} (hr : s.card[p].result = none)
    (hst : st ≠ .reading) (hc : ∀ r, commandOf st (some (cmd, r))) : cardSound (ownCommand s p cmd st c).card[p] := by
  have h := (offered_offerCommand s p cmd 0).card_eq p
  unfold ownCommand
  split <;> rename_i heq <;> rw [heq] at h <;> dsimp only at h ⊢
  · exact cardEnter_sound (by rw [h, hr]; simp [hst]) (hc _)
  · exact cardTo_sound (by rw [h, hr]) (by decide)
  · exact cardTo_sound (by rw [h, hr]) (by decide)

theorem readOnInsert_sound {s : State} {p : Pos} (hr : s.card[p].result = none) : cardSound (readOnInsert s p).card[p] := by
  have h := (touches_reserve (P := nowhere) (Q := nowhere) s .readDone 0).card_eq p
  unfold readOnInsert
  split <;> rename_i heq <;> rw [heq] at h <;> dsimp only at h ⊢
  · exact cardTo_sound (by rw [h, hr]) (by decide)
  · rename_i s1 pr
    have k := (offered_offerCommand s1 p .read 7).card_eq p
    split <;> rename_i heq2 <;> rw [heq2] at k <;> dsimp only at k ⊢
    · exact startRead_sound _ _ _ _ _ _ _ _
    · exact cardTo_sound (show (dropRef _ pr).card[p].result = none by rw [(touches_dropRef (P := nowhere) (Q := nowhere) _ pr).card_eq p, k, h, hr]) (by decide)

theorem cardsKept_cardGone (s : State) (p : Pos) (c : Cause) : CardsKept s (cardGone s p c) := by
  refine (ofCard_cardGone s p c).cardsKept fun h => ?_
  unfold cardGone
  dsimp only
  split
  · exact h
  · exact cardTo_sound (endRead_result h _ _) (by decide)

theorem cardsKept_cardMove (s : State) (p : Pos) (m : Movement) : CardsKept s (cardMove s p m) := by
  refine (ofCard_cardMove s p m).cardsKept fun h => ?_
  unfold cardMove
  split
  · have hr := endRead_result h .withdrawn .cardInserted
    unfold cardInserted
    dsimp only
    generalize (if s.card[p].state = .reading then readEnd s p .withdrawn .cardInserted 0 else s) = u at hr ⊢
    split
    · exact ownCommand_sound hr (by decide) fun _ => rfl
    · split
      · exact readOnInsert_sound hr
      · exact cardTo_sound hr (by decide)
  · exact cardsKept_cardGone s p _ p h
  · exact cardsKept_cardGone s p _ p h
  · split
    · rename_i hs
      exact cardTo_sound (h.result_none (by rw [hs]; decide)) (by decide)
    · exact h
  · exact cardTo_sound (endRead_result h _ _) (by decide)

theorem cardsKept_cardMoveFrame (s : State) (p : Pos) (r : RecId) : CardsKept s (cardMoveFrame s p r) := by
  unfold cardMoveFrame
  refine CardsKept.trans ?_ (.of_eq rfl)
  split
  · split
    · exact cardsKept_cardMove _ _ _
    · exact .refl s
  · exact .refl s

/-- R142: a track more is held by a context in READING. -/
theorem cardSound_hold {c : CardCtx} (h : cardSound c) (hs : c.state = .reading) (i : Fin 3) (x : TrackStatus × RecId) :
    cardSound { c with holds := c.holds.set i (some x) } := by
  obtain ⟨h1, h2, h3, h4, -, h6⟩ := h
  exact ⟨h1, h2, h3, h4, fun k => absurd (hs ▸ k : CardState.holdsTracks .reading = false) (by decide), h6⟩

theorem cardsKept_trackFrame (s : State) (p : Pos) (e : EntryId) (r : RecId) : CardsKept s (trackFrame s p e r) := by
  refine (ofCard_trackFrame s p e r).cardsKept fun h => ?_
  unfold trackFrame
  split
  · exact h
  · simp only
    split
    · rename_i i st _ hc
      split
      · exact cardTo_sound (readEnd_result _ _ _ _ _) (by decide)
      · have k := (offered_trackNotice (s.modCard p fun c => { c with holds := c.holds.set i (some (st, r)) }) p e r false).card_eq p
        rw [k, State.modCard_get, if_pos rfl]
        exact cardSound_hold h hc.1 i (st, r)
    · exact h

theorem cardsKept_cardStatusReport (s : State) (p : Pos) (b : Bool) : CardsKept s (cardStatusReport s p b) := by
  refine (ofCard_cardStatusReport s p b).cardsKept fun h => ?_
  unfold cardStatusReport
  split
  · exact h
  · rename_i hs
    have hr := h.result_none (by rw [not_not.mp hs]; decide)
    split
    · exact cardTo_sound hr (by decide)
    · split
      · exact cardTo_sound hr (by decide)
      · exact ownCommand_sound hr (by decide) fun _ => rfl

theorem cardsKept_cardServiceEnd (s : State) (p : Pos) (c : Cause) : CardsKept s (cardServiceEnd s p c) := by
  refine (ofCard_cardServiceEnd s p c).cardsKept fun h => ?_
  unfold cardServiceEnd
  dsimp only
  split
  · exact h
  · exact cardTo_sound (endRead_result h _ _) (by decide)

theorem cardsKept_cardLineStopped (s : State) (p : Pos) : CardsKept s (cardLineStopped s p) :=
  (ofCard_cardLineStopped s p).cardsKept fun h => cardTo_sound (endRead_result h _ _) (by decide)

theorem cardsKept_cardUnattended (s : State) (p : Pos) : CardsKept s (cardUnattended s p) := by
  refine (ofCard_cardUnattended s p).cardsKept fun h => ?_
  unfold cardUnattended
  split
  · rename_i hs
    exact ownCommand_sound (h.result_none (by rw [hs]; decide)) (by decide) fun _ => rfl
  · rename_i hs
    exact ownCommand_sound (h.result_none (by rw [hs]; decide)) (by decide) fun _ => rfl
  · exact ownCommand_sound (readEnd_result _ _ _ _ _) (by decide) fun _ => rfl
  · exact h

theorem cardsKept_endUnitSessions (s : State) (k : UnitKind) (pos : Option Pos) (c : Cause) :
    CardsKept s (endUnitSessions s k pos c) := by
  unfold endUnitSessions
  split
  · exact .refl s
  · split
    · exact (ofEntry_abortSession s _ c).toWorks.cardsKept
    · exact cardsKept_cardServiceEnd _ _ _

end Sys2Proof.Machine

/-! # The end of a queue entry, and of all entries of a line -/

namespace Sys2Proof.Machine

/-! ## What is told to an owner leaves the lines alone -/

theorem completePromise_frame (s : State) (r : RecId) (k : NoticeKind) (q : Cls) (pos : Option Pos) (b : List Byte) :
    completePromise s r k q pos b =
      { s with
        pool := (completePromise s r k q pos b).pool, w0 := (completePromise s r k q pos b).w0
        w1 := (completePromise s r k q pos b).w1, w2 := (completePromise s r k q pos b).w2 } := by
  match q with
  | 0 => rfl
  | 1 => rfl
  | 2 => rfl

theorem readEnd_frame (s : State) (p : Pos) (o : ReadOutcome) (c : Cause) (b : Byte) :
    readEnd s p o c b =
      { s with pool := (readEnd s p o c b).pool, w1 := (readEnd s p o c b).w1, card := (readEnd s p o c b).card } := by
  unfold readEnd
  split
  · rfl
  · rename_i r _
    have h : ∀ b, completePromise s r .readDone 1 (some p) b = { s with
      pool := (completePromise s r .readDone 1 (some p) b).pool, w1 := (completePromise s r .readDone 1 (some p) b).w1 } :=
      fun _ => rfl
    have h := h (readDoneBody p s.card[p] o c false b)
    generalize completePromise s r .readDone 1 (some p) (readDoneBody p s.card[p] o c false b) = u at h ⊢
    rw [h]
    rfl

theorem cardTo_frame (s : State) (p : Pos) (st : CardState) (c : Cause) :
    cardTo s p st c = { s with pool := (cardTo s p st c).pool, card := (cardTo s p st c).card } := by
  rw [cardTo_eq]
  rfl

theorem displayOutcome_frame (s : State) (p : Pos) (o : FrameOutcome) :
    displayOutcome s p o = { s with entry := (displayOutcome s p o).entry } := by
  unfold displayOutcome
  split <;> rfl

theorem cardTo_readEnd_frame (s : State) (p : Pos) (o : ReadOutcome) (c c' : Cause) (b : Byte) (st : CardState) :
    cardTo (readEnd s p o c b) p st c' = { s with
      pool := (cardTo (readEnd s p o c b) p st c').pool, w1 := (cardTo (readEnd s p o c b) p st c').w1
      card := (cardTo (readEnd s p o c b) p st c').card } := by
  rw [cardTo_frame, readEnd_frame]

theorem cardOutcome_frame (s : State) (p : Pos) (r : RecId) (o : FrameOutcome) :
    cardOutcome s p r o =
      { s with pool := (cardOutcome s p r o).pool, w1 := (cardOutcome s p r o).w1, card := (cardOutcome s p r o).card } := by
  unfold cardOutcome
  split
  · rfl
  · split
    · rfl
    · split
      · rfl
      · rfl
      · exact cardTo_readEnd_frame _ _ _ _ _ _ _
      · exact cardTo_readEnd_frame _ _ _ _ _ _ _
      · exact cardTo_readEnd_frame _ _ _ _ _ _ _
      · rw [cardTo_frame]
      · rw [cardTo_frame]
      · rw [cardTo_frame]

theorem copyOutcome_frame (s : State) (r : RecId) (e : EntryId) (o : FrameOutcome) :
    copyOutcome s r e o = { s with
      pool := (copyOutcome s r e o).pool, w0 := (copyOutcome s r e o).w0, fanouts := (copyOutcome s r e o).fanouts } := by
  unfold copyOutcome
  split
  · rfl
  · split
    · rfl
    · simp only
      split <;> rfl

/-- R67: telling the owner changes the pool, W0, W1, the bookkeeping of the UNIT_SENDs and the contexts, and nothing else. -/
theorem tellOwner_frame (s : State) (q : QEntry) (o : FrameOutcome) :
    tellOwner s q o = { s with
      pool := (tellOwner s q o).pool, w0 := (tellOwner s q o).w0, w1 := (tellOwner s q o).w1
      fanouts := (tellOwner s q o).fanouts, entry := (tellOwner s q o).entry, card := (tellOwner s q o).card } := by
  unfold tellOwner
  split
  · rfl
  · rfl
  · rw [displayOutcome_frame]
  · rw [cardOutcome_frame]
  · split
    · rfl
    · rw [copyOutcome_frame]

/-! ## The line of an ended entry -/

/-- R67: a line that an entry has left; its transmission, if it is in one, runs on under the record. -/
def Line.left (ln : Line) (q : QEntry) : Line :=
  { ln with
    control := ln.control.filter fun x => !sameEntry x q
    pass := ln.pass.filter fun x => !sameEntry x q
    tx := if q.inTx then ln.tx.map fun t => { t with src := .detached q.record } else ln.tx }

theorem endEntry_lines (s : State) (l : LineId) (q : QEntry) (o : FrameOutcome) :
    (endEntry s l q o).lines = s.lines.set l (s.lines[l].left q) := by
  have toggled : ∀ (u : State) (t : Option EntryId), (toggleOut u t).lines = u.lines := fun u t => by
    unfold toggleOut
    split <;> rfl
  unfold endEntry
  rw [tellOwner_frame]
  dsimp only
  have left : (leaveQueue s l q).lines = s.lines.set l (s.lines[l].left q) := by
    unfold leaveQueue Line.left
    split <;> rfl
  split
  · rw [toggled, left]
  · exact left

/-- What an ending of entries of line l leaves: the line without some of its entries, the other lines as they were; sessions, and the
reads of the cards, as they were but for their endings. -/
structure Ends (l : LineId) (s t : State) : Prop where
  w2 : t.w2 = s.w2
  other : ∀ k : LineId, k ≠ l → t.lines[k] = s.lines[k]
  line : t.lines[l] = { s.lines[l] with control := t.lines[l].control, pass := t.lines[l].pass, tx := t.lines[l].tx }
  control : t.lines[l].control.Sublist s.lines[l].control
  pass : t.lines[l].pass.Sublist s.lines[l].pass
  tx : s.lines[l].tx = none → t.lines[l].tx = none
  sess : ∀ p : Pos, t.entry[p].sess = s.entry[p].sess
  sound : ∀ p : Pos, entryCtxSound s.entry[p] → entryCtxSound t.entry[p]
  cards : CardsKept s t
  asked : ∀ p : Pos, t.card[p].mask = s.card[p].mask ∧ t.card[p].tag = s.card[p].tag ∧ t.card[p].reader = s.card[p].reader

theorem Ends.refl (l : LineId) (s : State) : Ends l s s :=
  ⟨rfl, fun _ _ => rfl, rfl, .refl _, .refl _, id, fun _ => rfl, fun _ => id, .refl s, fun _ => ⟨rfl, rfl, rfl⟩⟩

theorem Ends.trans {l : LineId} {s t u : State} (h : Ends l s t) (k : Ends l t u) : Ends l s u where
  w2 := k.w2.trans h.w2
  other j hj := (k.other j hj).trans (h.other j hj)
  line := by rw [k.line, h.line]
  control := k.control.trans h.control
  pass := k.pass.trans h.pass
  tx hs := k.tx (h.tx hs)
  sess p := (k.sess p).trans (h.sess p)
  sound p hp := k.sound p (h.sound p hp)
  cards := h.cards.trans k.cards
  asked p := by
    obtain ⟨h1, h2, h3⟩ := h.asked p
    obtain ⟨k1, k2, k3⟩ := k.asked p
    exact ⟨k1.trans h1, k2.trans h2, k3.trans h3⟩

/-- The fields of a read that no ending changes. -/
def SameAsked (s t : State) : Prop :=
  ∀ p : Pos, t.card[p].mask = s.card[p].mask ∧ t.card[p].tag = s.card[p].tag ∧ t.card[p].reader = s.card[p].reader

theorem SameAsked.refl (s : State) : SameAsked s s := fun _ => ⟨rfl, rfl, rfl⟩

theorem SameAsked.trans {s t u : State} (h : SameAsked s t) (k : SameAsked t u) : SameAsked s u := fun p => by
  obtain ⟨h1, h2, h3⟩ := h p
  obtain ⟨k1, k2, k3⟩ := k p
  exact ⟨k1.trans h1, k2.trans h2, k3.trans h3⟩

theorem Touches.sameAsked {s t : State} {p : Pos} (h : OfCard p s t)
    (hp : t.card[p].mask = s.card[p].mask ∧ t.card[p].tag = s.card[p].tag ∧ t.card[p].reader = s.card[p].reader) :
    SameAsked s t := fun p' => by
  by_cases hpp : p' = p
  · subst hpp
    exact hp
  · rw [h.card p' hpp]
    exact ⟨rfl, rfl, rfl⟩

theorem sameAsked_readEnd (s : State) (p : Pos) (o : ReadOutcome) (c : Cause) (b : Byte) : SameAsked s (readEnd s p o c b) :=
  (ofCard_readEnd _ _ _ _ _).sameAsked (by rw [readEnd_card]; exact ⟨rfl, rfl, rfl⟩)

theorem sameAsked_cardTo (s : State) (p : Pos) (st : CardState) (c : Cause) : SameAsked s (cardTo s p st c) :=
  (ofCard_cardTo _ _ _ _).sameAsked (by rw [cardTo_eq, atCard_self]; exact ⟨rfl, rfl, rfl⟩)

theorem sameAsked_cardOutcome (s : State) (p : Pos) (r : RecId) (o : FrameOutcome) : SameAsked s (cardOutcome s p r o) := by
  unfold cardOutcome
  split
  · exact .refl s
  · split
    · exact .refl s
    · split
      · exact .refl s
      · exact .refl s
      · exact (sameAsked_readEnd _ _ _ _ _).trans (sameAsked_cardTo _ _ _ _)
      · exact (sameAsked_readEnd _ _ _ _ _).trans (sameAsked_cardTo _ _ _ _)
      · exact (sameAsked_readEnd _ _ _ _ _).trans (sameAsked_cardTo _ _ _ _)
      · exact sameAsked_cardTo _ _ _ _
      · exact sameAsked_cardTo _ _ _ _
      · exact sameAsked_cardTo _ _ _ _

/-- R67: what the owner's being told leaves of the contexts. -/
theorem tellOwner_contexts (s : State) (q : QEntry) (o : FrameOutcome) :
    (∀ p : Pos, (tellOwner s q o).entry[p].sess = s.entry[p].sess) ∧
      (∀ p : Pos, entryCtxSound s.entry[p] → entryCtxSound (tellOwner s q o).entry[p]) ∧ CardsKept s (tellOwner s q o) ∧
      SameAsked s (tellOwner s q o) := by
  have same : ∀ {t : State}, t.entry = s.entry → t.card = s.card → (∀ p : Pos, t.entry[p].sess = s.entry[p].sess) ∧
      (∀ p : Pos, entryCtxSound s.entry[p] → entryCtxSound t.entry[p]) ∧ CardsKept s t ∧ SameAsked s t := fun he hc => by
    unfold CardsKept SameAsked
    rw [he, hc]
    exact ⟨fun _ => rfl, fun _ => id, fun _ => id, fun _ => ⟨rfl, rfl, rfl⟩⟩
  unfold tellOwner
  split
  · exact same rfl rfl
  · exact same rfl rfl
  · rename_i p _
    have h := ofEntry_displayOutcome s p o
    refine ⟨fun p' => ?_, h.sound, h.toWorks.cardsKept, fun p' => by rw [h.card_eq p']; exact ⟨rfl, rfl, rfl⟩⟩
    unfold displayOutcome
    split
    · rw [setDisplayPending, State.modEntry_get]; split <;> rfl
    · rw [setDisplayPending, State.modEntry_get]; split <;> rfl
    · rw [setDisplayPending, State.modEntry_get]; split <;> rfl
    · rfl
  · rename_i p _
    have h := ofCard_cardOutcome s p q.record o
    exact ⟨fun p' => by rw [h.entry_eq p'], h.sound, cardsKept_cardOutcome _ _ _ _, sameAsked_cardOutcome _ _ _ _⟩
  · split
    · exact same rfl rfl
    · rw [copyOutcome_frame]
      exact same rfl rfl

/-- What leaves W2 and the contexts alone before the owner is told. -/
theorem endEntry_before (s : State) (l : LineId) (q : QEntry) (o : FrameOutcome) :
    ∃ u : State, endEntry s l q o = tellOwner u q o ∧ u.entry = s.entry ∧ u.card = s.card ∧ u.w2 = s.w2 := by
  refine ⟨_, rfl, ?_, ?_, ?_⟩ <;>
  · unfold leaveQueue toggleOut
    split <;> split <;> try split
    all_goals rfl

theorem ends_endEntry (s : State) (l : LineId) (q : QEntry) (o : FrameOutcome) : Ends l s (endEntry s l q o) := by
  obtain ⟨u, hu, he, hc, hw⟩ := endEntry_before s l q o
  obtain ⟨k1, k2, k3, k4⟩ := tellOwner_contexts u q o
  unfold CardsKept at k3
  unfold SameAsked at k4
  rw [← hu, he] at k1 k2
  rw [← hu, hc] at k3 k4
  have self : (endEntry s l q o).lines[l] = s.lines[l].left q := by rw [endEntry_lines]; simp
  refine ⟨?_, fun k hk => ?_, ?_, ?_, ?_, ?_, k1, k2, k3, k4⟩
  · rw [hu, tellOwner_frame]
    exact hw
  · rw [endEntry_lines]
    simp [Fin.val_ne_of_ne hk.symm]
  · rw [self]
    rfl
  · rw [self]
    exact List.filter_sublist
  · rw [self]
    exact List.filter_sublist
  · rw [self]
    intro h
    dsimp only [Line.left]
    rw [h]
    split <;> rfl

theorem ends_endEntries (s : State) (l : LineId) (qs : List QEntry) (o : FrameOutcome) : Ends l s (endEntries s l qs o) := by
  unfold endEntries
  induction qs generalizing s with
  | nil => exact .refl l s
  | cons q qs ih => exact (ends_endEntry s l q o).trans (ih _)

/-- R67: of the queues of the line those entries are left that none of the ended ones is. -/
theorem endEntries_queues (s : State) (l : LineId) (qs : List QEntry) (o : FrameOutcome) :
    (endEntries s l qs o).lines[l].control = s.lines[l].control.filter (fun x => qs.all fun q => !sameEntry x q) ∧
      (endEntries s l qs o).lines[l].pass = s.lines[l].pass.filter (fun x => qs.all fun q => !sameEntry x q) := by
  unfold endEntries
  induction qs generalizing s with
  | nil => exact ⟨by simp, by simp⟩
  | cons q qs ih =>
    obtain ⟨hc, hp⟩ := ih (endEntry s l q o)
    have self : (endEntry s l q o).lines[l] = s.lines[l].left q := by rw [endEntry_lines]; simp
    rw [self] at hc hp
    rw [List.foldl_cons, hc, hp]
    simp only [Line.left, List.filter_filter, List.all_cons, Bool.and_comm, and_self]

theorem sameEntry_self (q : QEntry) : sameEntry q q = true := by simp [sameEntry]

/-- R43: when every entry of a line has ended, its queues are empty. -/
theorem endEntries_all (s : State) (l : LineId) (o : FrameOutcome) :
    (endEntries s l s.lines[l].queued o).lines[l].control = [] ∧ (endEntries s l s.lines[l].queued o).lines[l].pass = [] := by
  have gone : ∀ {x : QEntry}, x ∈ s.lines[l].queued → ¬ (s.lines[l].queued.all fun q => !sameEntry x q) = true := fun hx h => by
    have := List.all_eq_true.mp h _ hx
    rw [sameEntry_self] at this
    cases this
  obtain ⟨hc, hp⟩ := endEntries_queues s l s.lines[l].queued o
  rw [hc, hp]
  exact ⟨List.filter_eq_nil_iff.mpr fun x hx => gone (List.mem_append_left _ hx),
    List.filter_eq_nil_iff.mpr fun x hx => gone (List.mem_append_right _ hx)⟩

end Sys2Proof.Machine

/-! # A line enters STOPPED (R43) -/

namespace Sys2Proof.Machine

/-! ## The stages -/

/-- R42, R43: traffic cut off, the line STOPPED. -/
def trafficCut (s : State) (l : LineId) : State :=
  (dropReception (cutTransmission s l) l).modLine l fun ln => { ln with state := .stopped, idle := false }

/-- R43, steps 1 and 2: its queue entries and its acknowledgements gone. -/
def lineEmptied (s : State) (l : LineId) : State :=
  (endEntries s l s.lines[l].queued .lineStopped).modLine l fun ln => { ln with acks := [] }

/-- R43, step 3. -/
def unitsSuspended (s : State) (l : LineId) : State := allEntries.foldl (fun t e => suspendEntry t l e) s

/-- R43: the sessions of the keypads on the line end. -/
def sessionsStopped (s : State) (l : LineId) : State :=
  allPos.foldl (fun t p => if boundOnLine t .keypad p l then abortSession t p .lineStopped else t) s

/-- R43, R150: the card contexts of the readers on the line enter FAULT. -/
def cardsStopped (s : State) (l : LineId) : State :=
  allPos.foldl (fun t p => if boundOnLine t .reader p l then cardLineStopped t p else t) s

theorem enterStopped_eq (s : State) (l : LineId) :
    enterStopped s l =
      setLineMark (cardsStopped (sessionsStopped (unitsSuspended (lineEmptied (trafficCut s l) l) l) l) l) l := rfl

/-! ## Traffic cut off -/

theorem releaseReception_eq (s : State) (l : LineId) :
    releaseReception s l = { s with pool := receptionDropped s.pool s.lines[l] } := by
  unfold releaseReception receptionDropped
  cases s.lines[l].rx with
  | hunting => rfl
  | abandoned => rfl
  | completing a d => rfl
  | inFrame f =>
    obtain ⟨st, hd, sc, su, bd, di, dr, ar, dest, buf⟩ := f
    cases dest <;> rfl

theorem dropReception_eq (s : State) (l : LineId) :
    dropReception s l =
      onLine { s with pool := receptionDropped s.pool s.lines[l] } l { s.lines[l] with rx := .hunting } := by
  unfold dropReception
  rw [releaseReception_eq]
  rfl

/-- The line whose transmission is cut off. -/
def Line.cut (ln : Line) : Line :=
  { ln with
    tx := none
    control := ln.control.map fun q => { q with inTx := false }
    pass := ln.pass.map fun q => { q with inTx := false } }

/-- The pool once a transmission that outlived its entry is cut off. -/
def cutPool (p : Pool) (ln : Line) : Pool :=
  match ln.tx with
  | some { src := .detached r, .. } => p.dropRef r
  | _ => p

theorem cutTransmission_eq (s : State) (l : LineId) :
    cutTransmission s l = onLine { s with pool := cutPool s.pool s.lines[l] } l s.lines[l].cut := by
  unfold cutTransmission cutPool
  cases h : s.lines[l].tx with
  | none => rfl
  | some x =>
    obtain ⟨src, c, a, d⟩ := x
    cases src <;> rfl

@[simp] theorem onLine_get (s : State) (l k : LineId) (ln : Line) :
    (onLine s l ln).lines[k] = if l = k then ln else s.lines[k] := State.modLine_get s l k fun _ => ln

@[simp] theorem onLine_self (s : State) (l : LineId) (ln : Line) : (onLine s l ln).lines[l] = ln := by
  rw [onLine_get, if_pos rfl]

theorem modLine_eq_onLine (s : State) (l : LineId) (f : Line → Line) : s.modLine l f = onLine s l (f s.lines[l]) := rfl

@[simp] theorem onLine_onLine (s : State) (l : LineId) (a b : Line) : onLine (onLine s l a) l b = onLine s l b := by
  simp [onLine]

theorem trafficCut_eq (s : State) (l : LineId) :
    trafficCut s l =
      onLine { s with pool := (trafficCut s l).pool } l { s.lines[l].cut with rx := .hunting, state := .stopped, idle := false } := by
  unfold trafficCut
  rw [dropReception_eq, cutTransmission_eq, modLine_eq_onLine, onLine_self, onLine_self]
  simp [onLine]

/-! ## The line, emptied -/

/-- R43: what the line is when nothing stands on it. -/
def Line.stoppedBare (ln : Line) : Line :=
  { ln with state := .stopped, idle := false, rx := .hunting, acks := [], control := [], pass := [], tx := none }

/-- What the emptying of a line leaves: the other lines, sessions, directory entries but for an outbound bit, and the reads as they
were; the line bare. -/
structure EmptiedLine (l : LineId) (s t : State) : Prop where
  calm : Calm s t
  w2 : t.w2 = s.w2
  other : ∀ k : LineId, k ≠ l → t.lines[k] = s.lines[k]
  line : t.lines[l] = s.lines[l].stoppedBare
  sess : ∀ p : Pos, t.entry[p].sess = s.entry[p].sess
  sound : ∀ p : Pos, entryCtxSound s.entry[p] → entryCtxSound t.entry[p]
  cards : CardsKept s t
  asked : SameAsked s t

theorem emptiedLine (s : State) (l : LineId) : EmptiedLine l s (lineEmptied (trafficCut s l) l) := by
  have hcut := trafficCut_eq s l
  have calmCut : Calm s (trafficCut s l) :=
    ((calm_cutTransmission s l).trans (calm_dropReception _ l)).trans (calm_modLine _ _ _)
  generalize trafficCut s l = u at hcut calmCut
  have h := ends_endEntries u l u.lines[l].queued .lineStopped
  obtain ⟨hcontrol, hpass⟩ := endEntries_all u l .lineStopped
  have uline : u.lines[l] = { s.lines[l].cut with rx := .hunting, state := .stopped, idle := false } := by
    rw [hcut, onLine_self]
  refine ⟨(calmCut.trans (calm_endEntries _ _ _ _)).trans (calm_modLine _ _ _), ?_, fun k hk => ?_, ?_, ?_, ?_, ?_, ?_⟩
  · refine h.w2.trans ?_
    rw [hcut]
    rfl
  · unfold lineEmptied
    rw [State.modLine_get, if_neg hk.symm, h.other k hk, hcut, onLine_get, if_neg hk.symm]
  · unfold lineEmptied
    rw [State.modLine_get, if_pos rfl, h.line, hcontrol, hpass, h.tx (by rw [uline]; rfl), uline]
    rfl
  · intro p
    refine (h.sess p).trans ?_
    rw [hcut]
    rfl
  · intro p hp
    refine h.sound p ?_
    rw [hcut]
    exact hp
  · refine CardsKept.trans ?_ h.cards
    rw [hcut]
    exact .of_eq rfl
  · refine SameAsked.trans ?_ h.asked
    rw [hcut]
    exact fun _ => ⟨rfl, rfl, rfl⟩

/-! ## Units suspended -/

/-- R43, step 3: a directory entry once line l has stopped. -/
def DirEntry.suspended (d : DirEntry) (l : LineId) (now : Ms) : DirEntry :=
  if d.present = true ∧ d.line = l then
    { d with
      state := .silent, grantTimer := none, silenceTimer := none, lostTimer := none
      mark := d.mark || decide (d.state ≠ .silent), latest := if d.state = .silent then d.latest else now }
  else d

theorem suspendEntry_eq (s : State) (l : LineId) (e : EntryId) :
    suspendEntry s l e = atUnit s e (s.dir[e].suspended l s.now) := by
  have self : s = atUnit s e s.dir[e] := by
    unfold atUnit
    simp
  unfold suspendEntry DirEntry.suspended
  simp only [Bool.and_eq_true, beq_iff_eq]
  split
  · split
    · rename_i hs
      simp only [hs, ne_eq, not_true_eq_false, decide_false, Bool.or_false]
      rfl
    · rename_i hs
      simp only [hs, ne_eq, not_false_eq_true, decide_true, Bool.or_true]
      simp [setDirMark, State.modDir, atUnit, State.now]
  · exact self

@[simp] theorem atUnit_get (s : State) (e x : EntryId) (d : DirEntry) :
    (atUnit s e d).dir[x] = if e = x then d else s.dir[x] := State.modDir_get s e x fun _ => d

theorem atUnit_self (s : State) (e : EntryId) (d : DirEntry) : (atUnit s e d).dir[e] = d := by
  rw [atUnit_get, if_pos rfl]

theorem suspendAll_eq (s : State) (l : LineId) (es : List EntryId) (hes : es.Nodup) :
    ∃ d, es.foldl (fun t e => suspendEntry t l e) s = { s with dir := d } ∧
      ∀ x : EntryId, d[x] = if x ∈ es then s.dir[x].suspended l s.now else s.dir[x] := by
  induction es generalizing s with
  | nil => exact ⟨s.dir, rfl, fun x => by simp⟩
  | cons e es ih =>
    obtain ⟨hne, hes⟩ := List.nodup_cons.mp hes
    obtain ⟨d, hd, hx⟩ := ih (suspendEntry s l e) hes
    refine ⟨d, ?_, fun x => ?_⟩
    · rw [List.foldl_cons, hd, suspendEntry_eq]
      rfl
    · rw [hx, suspendEntry_eq, atUnit_get]
      by_cases hxe : e = x
      · subst hxe
        simp [hne]
      · simp [hxe, Ne.symm hxe]
        rfl

theorem unitsSuspended_eq (s : State) (l : LineId) :
    ∃ d, unitsSuspended s l = { s with dir := d } ∧ ∀ x : EntryId, d[x] = s.dir[x].suspended l s.now := by
  obtain ⟨d, hd, hx⟩ := suspendAll_eq s l allEntries (by decide)
  refine ⟨d, hd, fun x => ?_⟩
  rw [hx, if_pos (by revert x; decide)]

/-! ## One position of a round over all -/

theorem mem_allPos (p : Pos) : p ∈ allPos := by
  revert p
  decide

/-- A round in which each step works on one position's contexts: position p gets its step at a state that differs from the first in
other positions' contexts at most. -/
theorem round_at {f : State → Pos → State} {P Q : Pos → Pos → Prop} (h : ∀ t p, Touches (P p) (Q p) t (f t p))
    (hq : ∀ t p, Quiet t (f t p)) (hP : ∀ p p', P p p' → p' = p) (hQ : ∀ p p', Q p p' → p' = p) (s : State) (p : Pos) :
    ∃ u : State, Touches (· ≠ p) (· ≠ p) s u ∧ Quiet s u ∧
      (allPos.foldl f s).entry[p] = (f u p).entry[p] ∧ (allPos.foldl f s).card[p] = (f u p).card[p] := by
  have others : ∀ (ps : List Pos) (t : State), p ∉ ps → Touches (· ≠ p) (· ≠ p) t (ps.foldl f t) := fun ps => by
    induction ps with
    | nil => exact fun t _ => .refl t
    | cons x ps ih =>
      intro t hp
      obtain ⟨hx, hp⟩ := not_or.mp (fun k => hp (List.mem_cons.mpr k))
      exact ((h t x).mono (fun p' k => (hP x p' k).symm ▸ Ne.symm hx) (fun p' k => (hQ x p' k).symm ▸ Ne.symm hx)).trans (ih _ hp)
  obtain ⟨before, after, hall⟩ := List.append_of_mem (mem_allPos p)
  have hnd : (p :: (before ++ after)).Nodup := List.nodup_middle.mp (hall ▸ (by decide : allPos.Nodup))
  obtain ⟨hb, ha⟩ := not_or.mp (mt List.mem_append.mpr (List.nodup_cons.mp hnd).1)
  refine ⟨before.foldl f s, others before s hb, Quiet.foldl hq before s, ?_, ?_⟩
  · rw [hall, List.foldl_append, List.foldl_cons]
    exact (others after _ ha).entry p (by simp)
  · rw [hall, List.foldl_append, List.foldl_cons]
    exact (others after _ ha).card p (by simp)

theorem boundOnLine_of_dir {s t : State} (h : t.dir = s.dir) (k : UnitKind) (p : Pos) (l : LineId) :
    boundOnLine t k p l = boundOnLine s k p l := by
  unfold boundOnLine slotOf
  rw [h]

/-! ## Sessions and cards of a stopped line -/

theorem ofEntry_stopSession (l : LineId) (t : State) (p : Pos) :
    OfEntry p t (if boundOnLine t .keypad p l then abortSession t p .lineStopped else t) :=
  .ite (ofEntry_abortSession _ _ _) (.refl t)

theorem ofCard_stopCard (l : LineId) (t : State) (p : Pos) :
    OfCard p t (if boundOnLine t .reader p l then cardLineStopped t p else t) :=
  .ite (ofCard_cardLineStopped _ _) (.refl t)

theorem touches_sessionsStopped (s : State) (l : LineId) : Touches (fun _ => True) nowhere s (sessionsStopped s l) :=
  Touches.foldl (fun t p => (ofEntry_stopSession l t p).mono (fun _ _ => trivial) fun _ h => h) _ _

theorem touches_cardsStopped (s : State) (l : LineId) : Touches nowhere (fun _ => True) s (cardsStopped s l) :=
  Touches.foldl (fun t p => (ofCard_stopCard l t p).mono (fun _ h => h) fun _ _ => trivial) _ _

theorem calm_sessionsStopped (s : State) (l : LineId) : Calm s (sessionsStopped s l) :=
  Calm.foldl (fun t _ => .ite (calm_abortSession _ _ _) (.refl t)) _ _

theorem calm_cardsStopped (s : State) (l : LineId) : Calm s (cardsStopped s l) :=
  Calm.foldl (fun t _ => .ite (calm_cardLineStopped _ _) (.refl t)) _ _

theorem cardsKept_cardsStopped (s : State) (l : LineId) : CardsKept s (cardsStopped s l) :=
  CardsKept.foldl (fun t _ => .ite (cardsKept_cardLineStopped _ _) (.refl t)) _ _

theorem sessionsStopped_sess (s : State) (l : LineId) (p : Pos) :
    (sessionsStopped s l).entry[p].sess = if boundOnLine s .keypad p l then none else s.entry[p].sess := by
  obtain ⟨u, hu, -, he, -⟩ := round_at (P := fun p q => q = p) (Q := fun _ => nowhere) (ofEntry_stopSession l)
    (fun t p => Quiet.ite (calm_abortSession t p .lineStopped).toQuiet (.refl t)) (fun _ _ h => h) (fun _ _ h => h.elim) s p
  unfold sessionsStopped
  rw [he, boundOnLine_of_dir hu.dir]
  split
  · exact abortSession_sess _ _ _
  · rw [hu.entry p (by simp)]

/-- R150: a context whose reader's line has stopped. -/
theorem cardLineStopped_card (s : State) (p : Pos) :
    (cardLineStopped s p).card[p] =
      { s.card[p] with
        state := .fault, cause := .lineStopped, holds := Vector.replicate 3 none, readTimer := none, takeTimer := none
        moveTimer := none, result := (cardLineStopped s p).card[p].result, current := none, mark := true, latest := s.time.mono } := by
  have h : ∀ u : State, u.time = s.time →
      u.card[p] = { s.card[p] with result := u.card[p].result, readTimer := u.card[p].readTimer } →
      (cardTo u p .fault .lineStopped).card[p] =
        { s.card[p] with
          state := .fault, cause := .lineStopped, holds := Vector.replicate 3 none, readTimer := none, takeTimer := none
          moveTimer := none, result := (cardTo u p .fault .lineStopped).card[p].result, current := none, mark := true
          latest := s.time.mono } := fun u ht hu => by
    have k : (cardTo u p .fault .lineStopped).card[p] = entered u u.card[p] .fault .lineStopped none 0 := by
      rw [cardTo_eq, atCard_self]
    rw [congrArg CardCtx.result k, k, hu, entered, ht]
    rfl
  unfold cardLineStopped
  dsimp only
  refine h _ ?_ ?_
  · split
    · exact (calm_readEnd _ _ _ _ _).time
    · rfl
  · split
    · rw [readEnd_card]
    · rfl

theorem cardsStopped_card (s : State) (l : LineId) (p : Pos) :
    (boundOnLine s .reader p l = true → (cardsStopped s l).card[p] =
      { s.card[p] with
        state := .fault, cause := .lineStopped, holds := Vector.replicate 3 none, readTimer := none, takeTimer := none
        moveTimer := none, result := (cardsStopped s l).card[p].result, current := none, mark := true, latest := s.time.mono }) ∧
      (boundOnLine s .reader p l = false → (cardsStopped s l).card[p] = s.card[p]) := by
  obtain ⟨u, hu, hq, -, hc⟩ := round_at (P := fun _ => nowhere) (Q := fun p q => q = p) (ofCard_stopCard l)
    (fun t p => Quiet.ite (calm_cardLineStopped t p).toQuiet (.refl t)) (fun _ _ h => h.elim) (fun _ _ h => h) s p
  have same : u.card[p] = s.card[p] := hu.card p (by simp)
  unfold cardsStopped
  rw [hc, boundOnLine_of_dir hu.dir]
  constructor
  · intro hb
    rw [if_pos hb, cardLineStopped_card, hq.time, same]
  · intro hb
    rw [if_neg (by rw [hb]; decide), same]

theorem cardLineStopped_sound {s : State} {p : Pos} (h : cardSound s.card[p]) : (cardLineStopped s p).card[p].result = none :=
  have k := cardsKept_cardLineStopped s p p h
  k.result_none (by rw [cardLineStopped_card]; exact CardState.noConfusion)

/-! ## The whole -/

theorem Quiet.frame {s t : State} (h : Quiet s t) (hh : t.hits = s.hits) (hw : t.w2 = s.w2) :
    t = { s with
      pool := t.pool, lines := t.lines, dir := t.dir, w0 := t.w0, w1 := t.w1, fanouts := t.fanouts, entry := t.entry
      card := t.card } := by
  obtain ⟨h1, h2, h3, h4, h5, h6, h7, h8, h9, h10, h11, h12, h13, -⟩ := h
  cases s
  cases t
  dsimp only at *
  subst h1 h2 h3 h4 h5 h6 h7 h8 h9 h10 h11 h12 h13 hh hw
  rfl

/-- What R43 leaves, stage by stage: the bare line, other lines at most grown, the directory, sessions and cards. -/
structure StoppedAt (l : LineId) (s t : State) : Prop where
  quiet : Quiet s t
  hits : t.hits = s.hits
  w2 : t.w2 = s.w2
  line : t.lines[l] = { s.lines[l].stoppedBare with mark := true, latest := s.time.mono }
  other : ∀ k : LineId, k ≠ l → Grown s.lines[k] t.lines[k]
  dir : ∀ e : EntryId, ∃ b : Bool, t.dir[e] = { s.dir[e].suspended l s.time.mono with outBit := b }
  sess : ∀ p : Pos, t.entry[p].sess = if boundOnLine s .keypad p l then none else s.entry[p].sess
  sound : ∀ p : Pos, entryCtxSound s.entry[p] → entryCtxSound t.entry[p]
  cards : CardsKept s t
  fault : ∀ p : Pos, boundOnLine s .reader p l = true → t.card[p] =
    { s.card[p] with
      state := .fault, cause := .lineStopped, holds := Vector.replicate 3 none, readTimer := none, takeTimer := none
      moveTimer := none, result := t.card[p].result, current := none, mark := true, latest := s.time.mono }

theorem suspended_outBit (d : DirEntry) (l : LineId) (now : Ms) (b : Bool) :
    ({ d with outBit := b } : DirEntry).suspended l now = { d.suspended l now with outBit := b } := by
  by_cases h : d.present = true ∧ d.line = l
  · have h' : ({ d with outBit := b } : DirEntry).present = true ∧ ({ d with outBit := b } : DirEntry).line = l := h
    simp only [DirEntry.suspended, if_pos h, if_pos h']
  · have h' : ¬ (({ d with outBit := b } : DirEntry).present = true ∧ ({ d with outBit := b } : DirEntry).line = l) := h
    simp only [DirEntry.suspended, if_neg h, if_neg h']

/-- R71: neither an outbound bit nor the suspension moves a unit from its slot. -/
theorem inSlot_suspended (d : DirEntry) (l : LineId) (now : Ms) (k : UnitKind) (p : Pos) :
    inSlot (d.suspended l now) k p = inSlot d k p := by
  unfold DirEntry.suspended
  split
  · rename_i h
    have : (d.state != .free) = true := bne_iff_ne.mpr fun hs => by
      have := h.1
      unfold DirEntry.present at this
      rw [hs] at this
      cases this
    unfold inSlot
    rw [this]
    rfl
  · rfl

theorem line_suspended (d : DirEntry) (l : LineId) (now : Ms) : (d.suspended l now).line = d.line := by
  unfold DirEntry.suspended
  split <;> rfl

theorem slotOf_congr {s t : State} {k : UnitKind} {p : Pos} (h : ∀ e : EntryId, inSlot t.dir[e] k p = inSlot s.dir[e] k p) :
    slotOf t k p = slotOf s k p := by
  unfold slotOf
  simp only [h]

theorem boundOnLine_congr {s t : State} {k : UnitKind} {p : Pos} {l : LineId}
    (h : ∀ e : EntryId, inSlot t.dir[e] k p = inSlot s.dir[e] k p) (hl : ∀ e : EntryId, t.dir[e].line = s.dir[e].line) :
    boundOnLine t k p l = boundOnLine s k p l := by
  unfold boundOnLine
  rw [slotOf_congr h]
  simp only [hl]

theorem stoppedAt (s : State) (l : LineId) : StoppedAt l s (enterStopped s l) := by
  have h1 := emptiedLine s l
  rw [enterStopped_eq]
  generalize lineEmptied (trafficCut s l) l = a at h1 ⊢
  obtain ⟨d, hb, hd⟩ := unitsSuspended_eq a l
  generalize unitsSuspended a l = b at hb ⊢
  have bdir : ∀ e : EntryId, ∃ x : Bool, b.dir[e] = { s.dir[e].suspended l s.time.mono with outBit := x } := fun e => by
    refine ⟨a.dir[e].outBit, ?_⟩
    have : b.dir[e] = d[e] := by rw [hb]
    rw [this, hd, h1.calm.dir e, suspended_outBit, State.now, h1.calm.time]
  have bound : ∀ (k : UnitKind) (p : Pos), boundOnLine b k p l = boundOnLine s k p l := fun k p =>
    boundOnLine_congr (fun e => by obtain ⟨x, hx⟩ := bdir e; rw [hx]; exact inSlot_suspended _ _ _ _ _)
      (fun e => by obtain ⟨x, hx⟩ := bdir e; rw [hx]; exact line_suspended _ _ _)
  have hs := touches_sessionsStopped b l
  have hss := sessionsStopped_sess b l
  have cs := calm_sessionsStopped b l
  generalize sessionsStopped b l = c at hs hss cs ⊢
  have hc := touches_cardsStopped c l
  have hcc := cardsStopped_card c l
  have cc := calm_cardsStopped c l
  have kc := cardsKept_cardsStopped c l
  generalize cardsStopped c l = e at hc hcc cc kc ⊢
  have quietB : Quiet a b := by rw [hb]; exact ⟨rfl, rfl, rfl, rfl, rfl, rfl, rfl, rfl, rfl, rfl, rfl, rfl, rfl, .refl⟩
  have quiet : Quiet s e := ((h1.calm.toQuiet.trans quietB).trans cs.toQuiet).trans cc.toQuiet
  have timeC : c.time = s.time := ((h1.calm.toQuiet.trans quietB).trans cs.toQuiet).time
  have grown : ∀ k : LineId, Grown a.lines[k] e.lines[k] := fun k => by
    have : b.lines[k] = a.lines[k] := by rw [hb]
    exact this ▸ (hs.lines k).trans (hc.lines k)
  have bentry : b.entry = a.entry := by rw [hb]
  have bcard : b.card = a.card := by rw [hb]
  refine ⟨quiet.trans (calm_setLineMark e l).toQuiet, ?_, ?_, ?_, fun k hk => ?_, fun x => ?_, fun p => ?_, fun p hp => ?_, ?_,
    fun p hp => ?_⟩
  · exact cc.hits.trans (cs.hits.trans ((by rw [hb] : b.hits = a.hits).trans h1.calm.hits))
  · exact hc.w2.trans (hs.w2.trans ((by rw [hb] : b.w2 = a.w2).trans h1.w2))
  · have line : e.lines[l] = s.lines[l].stoppedBare := by
      rw [(grown l).stopped (by rw [h1.line]; rfl), h1.line]
    rw [setLineMark, State.modLine_get, if_pos rfl, line, State.now, quiet.time]
  · have line : e.lines[k] = (setLineMark e l).lines[k] := by rw [setLineMark, State.modLine_get, if_neg hk.symm]
    rw [← line, ← h1.other k hk]
    exact grown k
  · have dir : (setLineMark e l).dir = b.dir := hc.dir.trans hs.dir
    rw [dir]
    exact bdir x
  · refine (congrArg EntryCtx.sess (hc.entry_eq p)).trans ?_
    rw [hss, bound, bentry, h1.sess]
  · refine hc.sound p (hs.sound p ?_)
    rw [bentry]
    exact h1.sound p hp
  · have kb : CardsKept a c := fun p hp => by
      rw [hs.card_eq p, bcard]
      exact hp
    exact (h1.cards.trans kb).trans kc
  · have same : c.card[p] = a.card[p] := by rw [hs.card_eq p, bcard]
    obtain ⟨k1, k2, k3⟩ := h1.asked p
    have hp' : boundOnLine c .reader p l = true := by rw [boundOnLine_of_dir hs.dir, bound, hp]
    have := (hcc p).1 hp'
    rw [same, timeC] at this
    dsimp only at this
    rw [k1, k2, k3] at this
    exact this

/-- Settles O22: `stoppedAt`, in the statement's terms. -/
theorem stoppedLineEffects : Obligations.StoppedLineEffects := by
  intro s l
  have h := stoppedAt s l
  have boundKeypad : ∀ {k : UnitKind} {p : Pos} {e : EntryId}, slotOf s k p = some e → (boundOnLine s k p l = true ↔ s.dir[e].line = l) :=
    fun hs => by simp [boundOnLine, hs]
  refine ⟨_, rfl, h.quiet.frame h.hits h.w2, h.line, fun k hk => ⟨(h.other k hk).same, (h.other k hk).front⟩, fun e hp hl => ?_,
    fun e hn => ?_, fun p e hs hl => ?_, fun p hn => ?_, fun p e hs hl => ⟨h.fault p ((boundKeypad hs).mpr hl), fun hc => ?_⟩⟩
  · obtain ⟨b, hb⟩ := h.dir e
    rw [congrArg DirEntry.outBit hb, hb, DirEntry.suspended, if_pos ⟨hp, hl⟩]
  · obtain ⟨b, hb⟩ := h.dir e
    rw [congrArg DirEntry.outBit hb, hb, DirEntry.suspended, if_neg fun k => hn.elim (fun hn => by rw [hn] at k; cases k.1) fun hn => hn k.2]
  · rw [h.sess, if_pos ((boundKeypad hs).mpr hl)]
  · rw [h.sess, if_neg]
    unfold boundOnLine
    split
    · decide
    · rename_i e hs
      simpa using hn e hs
  · have k := h.cards p hc
    refine k.result_none ?_
    rw [h.fault p ((boundKeypad hs).mpr hl)]
    exact CardState.noConfusion

end Sys2Proof.Machine

/-! # Lines, entry contexts and card contexts stay sound

One relation for the three blocks, each operation of the model keeping it. -/

namespace Sys2Proof.Machine

/-- What was sound of the lines, the entry contexts and the card contexts is sound. -/
structure Kept (s t : State) : Prop where
  lines : ∀ l : LineId, lineSound s.lines[l] → lineSound t.lines[l]
  entry : ∀ p : Pos, entryCtxSound s.entry[p] → entryCtxSound t.entry[p]
  card : CardsKept s t

theorem Kept.refl (s : State) : Kept s s := ⟨fun _ => id, fun _ => id, .refl s⟩

theorem Kept.trans {s t u : State} (h : Kept s t) (k : Kept t u) : Kept s u :=
  ⟨fun l hl => k.lines l (h.lines l hl), fun p hp => k.entry p (h.entry p hp), h.card.trans k.card⟩

theorem Kept.ite {s t u : State} {c : Prop} [Decidable c] (h : Kept s t) (k : Kept s u) : Kept s (if c then t else u) := by
  split <;> assumption

theorem Kept.foldl {α : Type} {f : State → α → State} (h : ∀ t x, Kept t (f t x)) (l : List α) (s : State) :
    Kept s (l.foldl f s) := by
  induction l generalizing s with
  | nil => exact .refl s
  | cons x l ih => exact (h s x).trans (ih _)

/-- The three blocks stand. -/
theorem Kept.of_eq {s t : State} (hl : t.lines = s.lines) (he : t.entry = s.entry) (hc : t.card = s.card) : Kept s t :=
  ⟨fun l h => by rw [hl]; exact h, fun p h => by rw [he]; exact h, .of_eq hc⟩

theorem lineSound_grown {a b : Line} (h : Grown a b) (ha : lineSound a) : lineSound b := by
  obtain ⟨hs, hk, hc⟩ := ha
  refine ⟨fun hb => ?_, by rw [h.same]; exact hk, by rw [h.same]; exact hc⟩
  have ha : a.state = .stopped := h.state.symm.trans hb
  rw [h.stopped ha]
  exact hs ha

theorem Works.kept {P Q : Pos → Prop} {s t : State} (h : Works P Q s t) (hc : CardsKept s t) : Kept s t :=
  ⟨fun l => lineSound_grown (h.lines l), h.sound, hc⟩

/-- The Entry Engine's work keeps all three. -/
theorem Works.keptEntry {P : Pos → Prop} {s t : State} (h : Works P nowhere s t) : Kept s t := h.kept h.cardsKept

theorem Ends.kept {l : LineId} {s t : State} (h : Ends l s t) : Kept s t := by
  refine ⟨fun k hk => ?_, h.sound, h.cards⟩
  by_cases hkl : k = l
  · subst hkl
    obtain ⟨hs, ha, hc⟩ := hk
    rw [h.line]
    refine ⟨fun hst => ?_, ha, hc⟩
    obtain ⟨h1, h2, h3, h4, h5, h6⟩ := hs hst
    exact ⟨List.sublist_nil.mp (h1 ▸ h.control), List.sublist_nil.mp (h2 ▸ h.pass), h3, h.tx h4, h5, h6⟩
  · rw [h.other k hkl]
    exact hk

/-! ## Named updates -/

theorem kept_modLine (s : State) (l : LineId) (f : Line → Line) (h : lineSound s.lines[l] → lineSound (f s.lines[l])) :
    Kept s (s.modLine l f) := by
  refine ⟨fun k hk => ?_, fun _ => id, .of_eq rfl⟩
  rw [State.modLine_get]
  split
  · rename_i hkl
    subst hkl
    exact h hk
  · exact hk

theorem kept_modDir (s : State) (e : EntryId) (f : DirEntry → DirEntry) : Kept s (s.modDir e f) := .of_eq rfl rfl rfl

theorem kept_modPool (s : State) (f : Pool → Pool) : Kept s (s.modPool f) := .of_eq rfl rfl rfl

theorem kept_setDirMark (s : State) (e : EntryId) : Kept s (setDirMark s e) := kept_modDir _ _ _

/-- A line that is not STOPPED is sound when its ack list and counters are. -/
theorem lineSound_of_live {a b : Line} (hb : b.state ≠ .stopped) (ha : lineSound a) (hacks : b.acks = a.acks)
    (hc : b.counters = a.counters) : lineSound b :=
  ⟨fun h => absurd h hb, by rw [hacks]; exact ha.2.1, by rw [hc]; exact ha.2.2⟩

/-- A line on which the same or less stands. -/
theorem lineSound_of_less {a b : Line} (ha : lineSound a) (hstate : b.state = a.state) (hq : a.control = [] → b.control = [])
    (hp : a.pass = [] → b.pass = []) (hacks : b.acks = a.acks) (htx : a.tx = none → b.tx = none)
    (hrx : a.rx = .hunting → b.rx = .hunting) (hidle : a.idle = false → b.idle = false) (hc : b.counters = a.counters) :
    lineSound b := by
  refine ⟨fun h => ?_, by rw [hacks]; exact ha.2.1, by rw [hc]; exact ha.2.2⟩
  obtain ⟨h1, h2, h3, h4, h5, h6⟩ := ha.1 (hstate ▸ h)
  exact ⟨hq h1, hp h2, hacks.trans h3, htx h4, hrx h5, hidle h6⟩

theorem kept_setLineMark (s : State) (l : LineId) : Kept s (setLineMark s l) := kept_modLine _ _ _ id

/-- R47: a counter operation that keeps the counters' range. -/
def Counts (f : LineCounters → LineCounters) : Prop := ∀ c, countersSound c → countersSound (f c)

theorem countersSound_iff (c : LineCounters) :
    countersSound c ↔ (c.parity ≤ 65535 ∧ c.framing ≤ 65535 ∧ c.noisy ≤ 65535 ∧ c.falseStart ≤ 65535) ∧
      (c.check ≤ 65535 ∧ c.oversize ≤ 65535 ∧ c.gap ≤ 65535 ∧ c.busy ≤ 65535) ∧
      c.stray ≤ 65535 ∧ c.arbLoss ≤ 65535 ∧ c.bitError ≤ 65535 ∧ c.stuck ≤ 65535 := by
  simp only [countersSound, LineCounters.toList, List.forall_mem_cons, Config.count16, List.not_mem_nil, false_implies,
    implies_true, and_true]
  tauto

theorem satInc16_le (n : Nat) : satInc Config.count16 n ≤ 65535 := by
  unfold satInc Config.count16
  omega

theorem counts_addParity : Counts LineCounters.addParity := fun c h => by
  rw [countersSound_iff] at h ⊢
  exact ⟨⟨satInc16_le _, h.1.2⟩, h.2⟩

theorem counts_addFraming : Counts LineCounters.addFraming := fun c h => by
  rw [countersSound_iff] at h ⊢
  exact ⟨⟨h.1.1, satInc16_le _, h.1.2.2⟩, h.2⟩

theorem counts_addNoisy : Counts LineCounters.addNoisy := fun c h => by
  rw [countersSound_iff] at h ⊢
  exact ⟨⟨h.1.1, h.1.2.1, satInc16_le _, h.1.2.2.2⟩, h.2⟩

theorem counts_addFalseStart : Counts LineCounters.addFalseStart := fun c h => by
  rw [countersSound_iff] at h ⊢
  exact ⟨⟨h.1.1, h.1.2.1, h.1.2.2.1, satInc16_le _⟩, h.2⟩

theorem counts_addCheck : Counts LineCounters.addCheck := fun c h => by
  rw [countersSound_iff] at h ⊢
  exact ⟨h.1, ⟨satInc16_le _, h.2.1.2⟩, h.2.2⟩

theorem counts_addOversize : Counts LineCounters.addOversize := fun c h => by
  rw [countersSound_iff] at h ⊢
  exact ⟨h.1, ⟨h.2.1.1, satInc16_le _, h.2.1.2.2⟩, h.2.2⟩

theorem counts_addGap : Counts LineCounters.addGap := fun c h => by
  rw [countersSound_iff] at h ⊢
  exact ⟨h.1, ⟨h.2.1.1, h.2.1.2.1, satInc16_le _, h.2.1.2.2.2⟩, h.2.2⟩

theorem counts_addBusy : Counts LineCounters.addBusy := fun c h => by
  rw [countersSound_iff] at h ⊢
  exact ⟨h.1, ⟨h.2.1.1, h.2.1.2.1, h.2.1.2.2.1, satInc16_le _⟩, h.2.2⟩

theorem counts_addStray : Counts LineCounters.addStray := fun c h => by
  rw [countersSound_iff] at h ⊢
  exact ⟨h.1, h.2.1, satInc16_le _, h.2.2.2⟩

theorem counts_addArbLoss : Counts LineCounters.addArbLoss := fun c h => by
  rw [countersSound_iff] at h ⊢
  exact ⟨h.1, h.2.1, h.2.2.1, satInc16_le _, h.2.2.2.2⟩

theorem counts_addBitError : Counts LineCounters.addBitError := fun c h => by
  rw [countersSound_iff] at h ⊢
  exact ⟨h.1, h.2.1, h.2.2.1, h.2.2.2.1, satInc16_le _, h.2.2.2.2.2⟩

theorem counts_addStuck : Counts LineCounters.addStuck := fun c h => by
  rw [countersSound_iff] at h ⊢
  exact ⟨h.1, h.2.1, h.2.2.1, h.2.2.2.1, h.2.2.2.2.1, satInc16_le _⟩

theorem kept_countLine (s : State) (l : LineId) {f : LineCounters → LineCounters} (hf : Counts f) : Kept s (countLine s l f) :=
  kept_modLine _ _ _ fun h => ⟨h.1, h.2.1, hf _ h.2.2⟩

theorem kept_countStray (s : State) (l : LineId) : Kept s (countLine s l LineCounters.addStray) := kept_countLine s l counts_addStray

/-! ## Pool and offers -/

theorem kept_dropRef (s : State) (r : RecId) : Kept s (dropRef s r) := kept_modPool _ _

theorem kept_offerControl (s : State) (l : LineId) (k : FrameKind) (dest : Addr) (t : Option EntryId) (o : Owner)
    (b : List Byte) : Kept s (offerControl s l k dest t o b).1 :=
  (touches_offerControl (P := nowhere) s l k dest t o b).toWorks.keptEntry

theorem kept_offerStrayWho (s : State) (l : LineId) (a : Addr) : Kept s (offerStrayWho s l a) := by
  unfold offerStrayWho
  refine .ite (.refl s) ?_
  have h := kept_offerControl s l .who a none .directory []
  split <;> rename_i heq <;> rw [heq] at h <;> dsimp only at h ⊢
  · exact h.trans (kept_modLine _ _ _ id)
  · exact h

theorem kept_endUnitSessions (s : State) (k : UnitKind) (pos : Option Pos) (c : Cause) : Kept s (endUnitSessions s k pos c) :=
  (touches_endUnitSessions s k pos c).toWorks.kept (cardsKept_endUnitSessions _ _ _ _)

theorem kept_endEntry (s : State) (l : LineId) (q : QEntry) (o : FrameOutcome) : Kept s (endEntry s l q o) :=
  (ends_endEntry s l q o).kept

/-! ## Unit Directory -/

theorem kept_releaseAddress (s : State) (e : EntryId) : Kept s (releaseAddress s e) := by
  unfold releaseAddress
  exact ((kept_modDir s e _).trans (ends_endEntries _ _ _ _).kept).trans (kept_modDir _ _ _)

theorem kept_grantAddress (s : State) (e : EntryId) (l : LineId) (a : Addr) : Kept s (grantAddress s e l a) := by
  unfold grantAddress
  exact ((kept_modDir s e _).trans (kept_offerControl _ _ _ _ _ _ _)).trans (kept_modDir _ _ _)

theorem kept_pinCheck (s : State) (e : EntryId) : Kept s (pinCheck s e) := by
  unfold pinCheck
  split
  · exact .refl s
  · split
    · exact kept_modDir _ _ _
    · exact .ite (.refl s) ((((kept_modDir _ _ _).trans (kept_modDir _ _ _)).trans (kept_endUnitSessions _ _ _ _)).trans (kept_modDir _ _ _))

theorem kept_helloNew (s : State) (l : LineId) (i : Identity) (k : UnitKind) : Kept s (helloNew s l i k) := by
  unfold helloNew
  split
  · exact kept_offerControl _ _ _ _ _ _ _
  · split
    · exact kept_offerControl _ _ _ _ _ _ _
    · exact (((kept_modDir s _ _).trans (kept_grantAddress _ _ _ _)).trans (kept_pinCheck _ _)).trans (kept_setDirMark _ _)

theorem kept_helloKind (s : State) (e : EntryId) (k : UnitKind) : Kept s (helloKind s e k) := by
  unfold helloKind
  exact Kept.trans (.ite (((kept_modDir _ _ _).trans (kept_setDirMark _ _)).trans (kept_endUnitSessions _ _ _ _)) (.refl s))
    (kept_modDir _ _ _)

theorem kept_regrant (s : State) (e : EntryId) (l : LineId) (a : Addr) (c : Cause) {b : Prop} [Decidable b] :
    Kept s (setDirMark (endUnitSessions (grantAddress (if b then releaseAddress s e else s) e l a)
      (grantAddress (if b then releaseAddress s e else s) e l a).dir[e].kind
      (grantAddress (if b then releaseAddress s e else s) e l a).dir[e].pos c) e) :=
  (Kept.trans (.ite (kept_releaseAddress s e) (.refl s)) (kept_grantAddress _ _ _ _)).trans
    ((kept_endUnitSessions _ _ _ _).trans (kept_setDirMark _ _))

theorem kept_helloRestart (s : State) (e : EntryId) : Kept s (helloRestart s e) := by
  unfold helloRestart
  simp only
  split
  · exact kept_offerControl _ _ _ _ _ _ _
  · exact kept_regrant s e _ _ _

theorem kept_helloValid (s : State) (l : LineId) (i : Identity) (k : UnitKind) : Kept s (helloValid s l i k) := by
  unfold helloValid
  split
  · exact kept_helloNew _ _ _ _
  · split
    · split
      · exact kept_offerControl _ _ _ _ _ _ _
      · exact (kept_helloKind _ _ _).trans (kept_regrant _ _ _ _ _)
    · exact .ite ((kept_helloKind _ _ _).trans (kept_offerControl _ _ _ _ _ _ _))
        ((kept_helloKind _ _ _).trans (kept_helloRestart _ _))

theorem armSupervision_frame (s : State) (e : EntryId) : armSupervision s e = { s with dir := (armSupervision s e).dir } := by
  unfold armSupervision
  split <;> rfl

/-- R81: a frame's being heard changes the Directory alone. -/
theorem heardEntry_frame (s : State) (e : EntryId) : heardEntry s e = { s with dir := (heardEntry s e).dir } := by
  unfold heardEntry
  rw [armSupervision_frame]
  dsimp only
  split <;> rfl

theorem heard_frame (s : State) (l : LineId) (a : Addr) : heard s l a = { s with dir := (heard s l a).dir } := by
  unfold heard
  split
  · rfl
  · rw [heardEntry_frame]

theorem kept_of_dir {s t : State} (h : t = { s with dir := t.dir }) : Kept s t := by
  rw [h]
  exact .of_eq rfl rfl rfl

theorem kept_heard (s : State) (l : LineId) (a : Addr) : Kept s (heard s l a) := kept_of_dir (heard_frame s l a)

theorem kept_strayFrame (s : State) (l : LineId) (a : Addr) : Kept s (strayFrame s l a) :=
  (kept_countStray s l).trans (kept_offerStrayWho _ _ _)

theorem kept_statusCondition (s : State) (l : LineId) (e : EntryId) (k : UnitKind) (c : Condition) :
    Kept s (statusCondition s l e k c) := by
  unfold statusCondition
  exact .ite (kept_countStray _ _) (.ite (.refl s) ((kept_modDir _ _ _).trans (kept_setDirMark _ _)))

theorem kept_grantFails (s : State) (e : EntryId) : Kept s (grantFails s e) := by
  unfold grantFails
  exact ((kept_releaseAddress s e).trans (.ite (kept_modDir _ _ _) ((kept_modDir _ _ _).trans (kept_modDir _ _ _)))).trans
    (kept_setDirMark _ _)

theorem kept_grantExpires (s : State) (e : EntryId) : Kept s (grantExpires s e) := by
  unfold grantExpires
  exact .ite (((kept_modDir s e _).trans (kept_modDir _ _ _)).trans ((kept_offerControl _ _ _ _ _ _ _).trans (kept_modDir _ _ _)))
    ((kept_modDir s e _).trans (kept_grantFails _ _))

theorem kept_entryLost (s : State) (e : EntryId) : Kept s (entryLost s e) :=
  (((kept_modDir s e _).trans (kept_releaseAddress _ _)).trans (kept_endUnitSessions _ _ _ _)).trans (kept_setDirMark _ _)

theorem kept_enterStopped (s : State) (l : LineId) : Kept s (enterStopped s l) := by
  have h := stoppedAt s l
  refine ⟨fun k hk => ?_, h.sound, h.cards⟩
  by_cases hkl : k = l
  · subst hkl
    rw [h.line]
    exact ⟨fun _ => ⟨rfl, rfl, rfl, rfl, rfl, rfl⟩, Nat.zero_le _, hk.2.2⟩
  · exact lineSound_grown (h.other k hkl) hk

/-! ## Dispatch -/

theorem kept_pushW (s : State) (q : Cls) (n : Notice) : Kept s (s.pushW q n) := (works_pushW (P := nowhere) s q n).keptEntry

theorem kept_witnessCopy (s : State) (q : Cls) (r : RecId) (e : EntryId) (k : FrameKind) : Kept s (witnessCopy s q r e k) := by
  unfold witnessCopy
  have h : Kept s _ := (touches_addRef (P := nowhere) s r).toWorks.keptEntry
  split <;> rename_i heq <;> rw [heq] at h <;> dsimp only at h ⊢
  · exact h
  · exact h.trans (kept_pushW _ _ _)

theorem kept_keyFrame (s : State) (p : Pos) (r : RecId) (e : EntryId) (v : Disposal) : Kept s (keyFrame s p r e v) := by
  unfold keyFrame
  split
  · exact Kept.trans (.ite (kept_witnessCopy _ _ _ _ _) (.refl s))
      ((ofEntry_takeKeys _ _ _ _ _ _).toWorks.keptEntry.trans (kept_dropRef _ _))
  · exact .ite ((ofEntry_guardKeys _ _ _ _).toWorks.keptEntry.trans (kept_dropRef _ _)) (.ite (kept_dropRef _ _) (kept_pushW _ _ _))

theorem kept_classify (s : State) (r : RecId) (e : EntryId) (k : FrameKind) (v : Disposal) : Kept s (classify s r e k v) := by
  unfold classify
  split
  · exact kept_pushW _ _ _
  · have witnessed : Kept s (if v.witness then witnessCopy s 1 r e k else s) := .ite (kept_witnessCopy _ _ _ _ _) (.refl s)
    exact .ite (kept_keyFrame _ _ _ _ _) (witnessed.trans
      (.ite ((ofCard_trackFrame _ _ _ _).toWorks.kept (cardsKept_trackFrame _ _ _ _))
        ((ofCard_cardMoveFrame _ _ _).toWorks.kept (cardsKept_cardMoveFrame _ _ _))))

theorem countHit_frame (s : State) (m : Option EntryId) : countHit s m = { s with hits := (countHit s m).hits } := by
  unfold countHit
  split <;> rfl

theorem kept_countHit (s : State) (m : Option EntryId) : Kept s (countHit s m) := by
  rw [countHit_frame]
  exact .of_eq rfl rfl rfl

theorem kept_handOver (s : State) (r : RecId) (e : EntryId) (l : LineId) (k : FrameKind) : Kept s (handOver s r e l k) :=
  ((kept_countHit _ _).trans (kept_countHit _ _)).trans (.ite (kept_dropRef _ _) (kept_classify _ _ _ _ _))

/-! ## Line Engine: frames -/

/-- The line is not STOPPED. -/
def Live (s : State) (l : LineId) : Prop := s.lines[l].state ≠ .stopped

theorem Live.of_lines {s t : State} {l : LineId} (h : Live s l) (hl : t.lines = s.lines) : Live t l := by
  unfold Live
  rw [hl]
  exact h

theorem Live.modLine {s : State} {l : LineId} (h : Live s l) (f : Line → Line) (hf : ∀ ln, (f ln).state = ln.state) :
    Live (s.modLine l f) l := by
  unfold Live
  rw [State.modLine_get, if_pos rfl, hf]
  exact h

theorem Live.countLine {s : State} {l : LineId} (h : Live s l) (f : LineCounters → LineCounters) : Live (countLine s l f) l :=
  h.modLine (fun ln => { ln with counters := f ln.counters }) fun _ => rfl

theorem Live.setRx {s : State} {l : LineId} (h : Live s l) (rx : Rx) : Live (setRx s l rx) l :=
  h.modLine (fun ln => { ln with rx := rx }) fun _ => rfl

theorem kept_offerAck {s : State} {l : LineId} (h : Live s l) (a : PendingAck) : Kept s (offerAck s l a) :=
  kept_modLine _ _ _ fun hs => by
    split
    · rename_i hroom
      refine ⟨fun hst => absurd hst h, ?_, hs.2.2⟩
      rw [List.length_append, List.length_singleton]
      exact hroom
    · exact hs

theorem kept_setRx {s : State} {l : LineId} (h : Live s l) (rx : Rx) : Kept s (setRx s l rx) :=
  kept_modLine _ _ _ fun hs => lineSound_of_live h hs rfl rfl

theorem kept_ackFrame (s : State) (l : LineId) (a : Addr) (b : Bool) (body : List Byte) : Kept s (ackFrame s l a b body) := by
  unfold ackFrame
  refine Kept.trans ?_ (kept_heard _ _ _)
  split
  · exact kept_countStray _ _
  · refine .ite (kept_countStray _ _) ?_
    split
    · exact .ite (kept_endEntry _ _ _ _) (.ite (kept_endEntry _ _ _ _) (kept_countStray _ _))
    · exact kept_countStray _ _

theorem kept_helloFrame (s : State) (l : LineId) (a : Addr) (body : List Byte) : Kept s (helloFrame s l a body) := by
  unfold helloFrame
  refine .ite (kept_countStray _ _) ?_
  split
  · exact kept_countStray _ _
  · exact .ite (kept_helloValid _ _ _ _) (kept_countStray _ _)

theorem kept_statusFrame (s : State) (l : LineId) (a : Addr) (body : List Byte) : Kept s (statusFrame s l a body) := by
  unfold statusFrame
  split
  · exact kept_countStray _ _
  · split
    · exact kept_strayFrame _ _ _
    · simp only
      have h := fun k c e => (kept_of_dir (heardEntry_frame s e)).trans (kept_statusCondition _ l e k c)
      split
      · exact (h _ _ _).trans ((ofCard_cardStatusReport _ _ _).toWorks.kept (cardsKept_cardStatusReport _ _ _))
      · exact h _ _ _

theorem heard_lines (s : State) (l : LineId) (a : Addr) : (heard s l a).lines = s.lines := by rw [heard_frame]

theorem kept_eventFrame {s : State} {l : LineId} (hl : Live s l) (a : Addr) (b : Bool) (k : FrameKind) (e : EntryId)
    (r : Option RecId) : Kept s (eventFrame s l a b k e r) := by
  unfold eventFrame
  simp only
  have drop : ∀ t : State, Kept t (match r with
      | none => t
      | some r => dropRef t r) ∧ (match r with
      | none => t
      | some r => dropRef t r).lines = t.lines := fun t => by
    split
    · exact ⟨.refl t, rfl⟩
    · exact ⟨kept_dropRef _ _, rfl⟩
  have h := kept_heard s l a
  have live : Live (heard s l a) l := hl.of_lines (heard_lines s l a)
  obtain ⟨hd, hdl⟩ := drop (heard s l a)
  refine .ite ((h.trans hd).trans (kept_strayFrame _ _ _)) (.ite ((h.trans hd).trans (kept_offerAck (live.of_lines hdl) _)) ?_)
  split
  · exact (h.trans (kept_offerAck live _)).trans (kept_countLine _ _ counts_addBusy)
  · refine ((h.trans (kept_modPool _ _)).trans (kept_modDir _ e _)).trans
      ((kept_offerAck (live.of_lines ?_) _).trans (kept_handOver _ _ _ _ _))
    rfl

theorem touches_placeBody (s : State) (l : LineId) (f : RxFrame) (n : Nat) : Offered s (placeBody s l f n).1 := by
  unfold placeBody
  split
  · exact .refl s
  · split
    · exact .refl s
    · split
      · exact .refl s
      · exact .refl s
      · split
        · exact .refl s
        · rename_i k _ _ _ _ _
          split
          · exact .refl s
          · rename_i e _
            have h : Offered s _ := touches_admit s (frameAdmission f k e l n)
            split <;> rename_i heq <;> rw [heq] at h <;> exact h

theorem kept_takeLength {s : State} {l : LineId} (hl : Live s l) (f : RxFrame) (n : Nat) : Kept s (takeLength s l f n) := by
  unfold takeLength
  have h := touches_placeBody s l f n
  refine .ite ((kept_countLine _ _ counts_addOversize).trans (kept_setRx (hl.countLine _) _))
    (h.toWorks.keptEntry.trans (kept_setRx ?_ _))
  unfold Live
  rw [(h.lines l).state]
  exact hl

theorem kept_takeBody {s : State} {l : LineId} (hl : Live s l) (f : RxFrame) (b : Byte) (n : Nat) : Kept s (takeBody s l f b n) := by
  unfold takeBody
  dsimp only
  split
  · exact (kept_modPool _ _).trans (kept_setRx (s := s.modPool _) hl _)
  · exact kept_setRx hl _

theorem kept_settleGood {s : State} {l : LineId} (hl : Live s l) (f : RxFrame) : Kept s (settleGood s l f) := by
  unfold settleGood
  refine .ite (kept_countStray _ _) ?_
  split
  · exact kept_countStray _ _
  · exact kept_ackFrame _ _ _ _ _
  · refine .ite (.refl s) ?_
    split
    · exact kept_helloFrame _ _ _ _
    · exact kept_statusFrame _ _ _ _
    · exact kept_strayFrame _ _ _
    · exact kept_eventFrame hl _ _ _ _ _
    · exact kept_eventFrame hl _ _ _ _ _
    · exact .refl s

/-- A line on which a reception or a transmission is given up. -/
theorem kept_dropReception (s : State) (l : LineId) : Kept s (dropReception s l) := by
  unfold dropReception
  rw [releaseReception_eq]
  exact Kept.trans (t := { s with pool := receptionDropped s.pool s.lines[l] }) (.of_eq rfl rfl rfl)
    (kept_modLine _ _ _ fun h => lineSound_of_less h rfl id id rfl id (fun _ => rfl) id rfl)

theorem kept_cutTransmission (s : State) (l : LineId) : Kept s (cutTransmission s l) := by
  rw [cutTransmission_eq]
  exact Kept.trans (t := { s with pool := cutPool s.pool s.lines[l] }) (.of_eq rfl rfl rfl)
    (kept_modLine _ l (fun _ => s.lines[l].cut) fun h =>
      lineSound_of_less h rfl (fun h => by rw [Line.cut, h]; rfl) (fun h => by rw [Line.cut, h]; rfl) rfl (fun _ => rfl) id id rfl)

theorem kept_takeCheck {s : State} {l : LineId} (hl : Live s l) (f : RxFrame) : Kept s (takeCheck s l f) := by
  unfold takeCheck
  have h : Kept s (if f.sum ≠ 0 then countLine s l LineCounters.addCheck else s) :=
    .ite (kept_countLine _ _ counts_addCheck) (.refl s)
  have live : Live (if f.sum ≠ 0 then countLine s l LineCounters.addCheck else s) l := by
    split
    · exact hl.countLine _
    · exact hl
  exact .ite (h.trans (kept_dropReception _ _)) ((h.trans (kept_setRx live _)).trans (kept_settleGood (live.setRx _) _))

theorem kept_assemble {s : State} {l : LineId} (hl : Live s l) (t : Ms) (b : Byte) (bad : Bool) :
    Kept s (assemble s l t b bad) := by
  unfold assemble
  split
  · exact kept_setRx hl _
  · exact kept_setRx hl _
  · exact .refl s
  · simp only
    split
    · exact kept_setRx hl _
    · exact kept_takeLength hl _ _
    · exact kept_takeBody hl _ _ _
    · exact kept_takeCheck hl _

theorem kept_abandonFrame (s : State) (l : LineId) : Kept s (abandonFrame s l) := by
  unfold abandonFrame
  split
  · exact .refl s
  · exact kept_dropReception _ _

theorem kept_falseStarts (s : State) (l : LineId) : Kept s (falseStarts s l) :=
  (kept_modLine s l _ fun h => lineSound_of_less h rfl id id rfl id (fun k => by dsimp only; rw [k]; rfl) (fun _ => rfl) rfl).trans
    (kept_countLine _ _ counts_addFalseStart)

theorem kept_receiveChar {s : State} {l : LineId} (hl : Live s l) (t : Ms) (c : RawChar) : Kept s (receiveChar s l t c) := by
  have counted : ∀ (b : Bool) (u : State) {f : LineCounters → LineCounters}, Counts f → Live u l →
      Kept u (if b then countLine u l f else u) ∧ Live (if b then countLine u l f else u) l := fun b u f hf hu => by
    refine ⟨.ite (kept_countLine _ _ hf) (.refl u), ?_⟩
    split
    · exact hu.countLine _
    · exact hu
  unfold receiveChar
  refine .ite (kept_falseStarts s l) ?_
  have h0 : Kept s (s.modLine l fun ln => { ln with idle := false }) := kept_modLine _ _ _ fun h => lineSound_of_live hl h rfl rfl
  obtain ⟨h1, l1⟩ := counted (charNoisy c) _ counts_addNoisy (hl.modLine (fun ln => { ln with idle := false }) fun _ => rfl)
  obtain ⟨h2, l2⟩ := counted (charParityError c) _ counts_addParity l1
  exact ((h0.trans h1).trans h2).trans
    (.ite ((kept_countLine _ _ counts_addFraming).trans (kept_abandonFrame _ _)) (kept_assemble l2 _ _ _))

/-! ## Line Engine: transmissions -/

theorem Live.of_state {s : State} {l : LineId} {st : LineState} (h : s.lines[l].state = st) (hst : st ≠ .stopped) : Live s l :=
  fun hs => hst (h.symm.trans hs)

theorem kept_beginAck {s : State} {l : LineId} (hl : Live s l) (a : PendingAck) : Kept s (beginAck s l a) :=
  kept_modLine _ _ _ fun h => lineSound_of_live hl h rfl rfl

theorem kept_beginEntry {s : State} {l : LineId} (hl : Live s l) (q : QEntry) : Kept s (beginEntry s l q) := by
  unfold beginEntry
  exact kept_modLine s l _ fun h => lineSound_of_live hl h rfl rfl

theorem kept_lineChoose (s : State) (l : LineId) : Kept s (lineChoose s l) := by
  unfold lineChoose
  refine .ite (.refl s) ?_
  split
  · rename_i hs _
    exact kept_beginAck (.of_state hs (by decide)) _
  · rename_i hs _
    exact kept_beginAck (.of_state hs (by decide)) _
  · rename_i hs _
    split
    · exact kept_beginEntry (.of_state hs (by decide)) _
    · exact .refl s
  · exact .refl s

/-- The queue entries of a line change, none being added. -/
theorem kept_mapQueues (s : State) (l : LineId) (f : QEntry → QEntry) :
    Kept s (s.modLine l fun ln => { ln with control := ln.control.map f, pass := ln.pass.map f }) :=
  kept_modLine _ _ _ fun h => lineSound_of_less h rfl (fun h => by dsimp only; rw [h]; rfl) (fun h => by dsimp only; rw [h]; rfl) rfl id id id rfl

theorem kept_entrySent (s : State) (l : LineId) (q : QEntry) : Kept s (entrySent s l q) :=
  .ite (kept_mapQueues _ _ _) (kept_endEntry _ _ _ _)

theorem kept_transmissionDone (s : State) (l : LineId) : Kept s (transmissionDone s l) := by
  have ended : Kept s (s.modLine l fun ln => { ln with tx := none }) :=
    kept_modLine _ _ _ fun h => lineSound_of_less h rfl id id rfl (fun _ => rfl) id id rfl
  unfold transmissionDone
  split
  · exact .refl s
  · simp only
    split
    · refine ended.trans (kept_modLine _ _ _ fun h => ⟨fun hst => ?_, ?_, h.2.2⟩)
      · obtain ⟨h1, h2, h3, h4⟩ := h.1 hst
        exact ⟨h1, h2, by rw [h3]; rfl, h4⟩
      · refine Nat.le_trans ?_ h.2.1
        rw [List.length_drop]
        omega
    · exact ended.trans (kept_dropRef _ _)
    · split
      · exact ended
      · exact ended.trans (kept_entrySent _ _ _)

theorem kept_countAttempt (s : State) (l : LineId) (q : QEntry) (f : QEntry → QEntry) : Kept s (countAttempt s l q f) :=
  .ite (kept_endEntry _ _ _ _) (kept_mapQueues _ _ _)

theorem kept_bitErrorAt (s : State) (l : LineId) : Kept s (bitErrorAt s l) := by
  unfold bitErrorAt
  simp only
  have h := (kept_cutTransmission s l).trans (kept_countLine _ l counts_addBitError)
  split
  · exact h
  · exact h.trans (kept_countAttempt _ _ _ _)

/-- R43: nothing is sent on a STOPPED line. -/
theorem Live.of_tx {s : State} {l : LineId} {x : Tx} (h : lineSound s.lines[l]) (hx : s.lines[l].tx = some x) : Live s l :=
  fun hs => by
    obtain ⟨-, -, -, h4, -⟩ := h.1 hs
    cases h4.symm.trans hx

end Sys2Proof.Machine

/-! # Every step keeps lines, entry contexts and card contexts sound -/

namespace Sys2Proof.Machine

/-! ## The end of an event -/

theorem kept_drainLine (s : State) (l : LineId) : Kept s (drainLine s l) := .ite (kept_enterStopped _ _) (.refl s)

theorem kept_settleLines (s : State) : Kept s (settleLines s) :=
  (Kept.foldl (fun t l => kept_drainLine t l) _ _).trans (Kept.foldl (fun t l => kept_lineChoose t l) _ _)

/-- The transmitter of the link clears marks at most. -/
theorem Sends.kept {s t : State} (h : Sends s t) : Kept s t where
  lines l hl := by rw [h.lines l]; exact hl
  entry p hp := by rw [h.entry]; exact hp
  card p hp := by rw [h.card p]; exact hp

theorem kept_settleLink (s : State) : Kept s (settleLink s) := (sends_settleLink s).kept

theorem kept_settle (s : State) : Kept s (settle s) := (kept_settleLines s).trans (kept_settleLink _)

theorem kept_fin {fin : State → State} (h : fin = settle ∨ fin = settleLink) (s : State) : Kept s (fin s) := by
  rcases h with rfl | rfl
  · exact kept_settle s
  · exact kept_settleLink s

theorem kept_finishReply (s : State) (i : SlotId) (a : Answer) : Kept s (finishReply s i a) := .of_eq rfl rfl rfl

/-! ## Start of a line, UNIT_SEND -/

theorem kept_armLostOnLine (s : State) (l : LineId) : Kept s (armLostOnLine s l) :=
  Kept.foldl (fun t _ => .ite (kept_modDir t _ _) (.refl t)) _ _

theorem kept_startLine (s : State) (l : LineId) : Kept s (startLine s l) := by
  unfold startLine
  exact ((kept_modLine s l _ fun h => lineSound_of_live LineState.noConfusion h rfl rfl).trans (kept_offerControl _ _ _ _ _ _ _)).trans
    (kept_armLostOnLine _ _)

theorem kept_startLines (s : State) : Kept s (startLines s) :=
  Kept.foldl (fun t l => .ite (kept_startLine t l) (.refl t)) _ _

theorem kept_copyOutcome (s : State) (r : RecId) (e : EntryId) (o : FrameOutcome) : Kept s (copyOutcome s r e o) := by
  rw [copyOutcome_frame]
  exact .of_eq rfl rfl rfl

theorem kept_placeCopy (sd b : RecId) (s : State) (t : Target) : Kept s (placeCopy sd b s t) := by
  unfold placeCopy
  split
  · exact kept_copyOutcome _ _ _ _
  · rename_i h
    exact kept_modLine _ _ _ fun hs => lineSound_of_live (by simpa [State.lineStopped] using h) hs rfl rfl

theorem kept_reserve (s : State) (k : NoticeKind) (tag : Byte) : Kept s (reserve s k tag).1 :=
  (touches_reserve (P := nowhere) s k tag).toWorks.keptEntry

theorem kept_fanOut (s : State) (sd b : RecId) (tag : Byte) (ts : List EntryId) : Kept s (fanOut s sd b tag ts) := by
  have spread : ∀ (u : State) (n : Nat), Kept u (spreadBody u b n) := fun u n => .ite (kept_dropRef _ _) (kept_modPool _ _)
  have booked : ∀ f : List Fanout, Kept s { s with fanouts := f } := fun _ => .of_eq rfl rfl rfl
  unfold fanOut
  dsimp only
  exact ((booked _).trans (spread _ _)).trans (Kept.foldl (kept_placeCopy sd b) _ _)

theorem kept_sendTo (s : State) (tag : Byte) (u : Urgency) (c : Cls) (body : List Byte) (ts : List EntryId) :
    Kept s (sendTo s tag u c body ts).1 := by
  unfold sendTo
  have h := kept_reserve s .sendDone tag
  split <;> rename_i h1 <;> rw [h1] at h <;> dsimp only at h ⊢
  · exact h
  · rename_i s1 sd
    have k := h.trans (touches_admit (P := nowhere) s1 (sendAdmission s1 tag u c body.length)).toWorks.keptEntry
    split <;> rename_i h2 <;> rw [h2] at k <;> dsimp only at k ⊢
    · exact k.trans (kept_dropRef _ _)
    · exact k.trans ((kept_modPool _ _).trans (kept_fanOut _ _ _ _ _))

/-! ## Requests of the contexts -/

/-- R115: the parameters that ENTRY_OPEN takes lie in their ranges. -/
theorem fieldSound_parseField {b : List Byte} {f : Field} (h : parseField b = some f) : fieldSound f := by
  unfold parseField at h
  dsimp only at h
  split at h
  · split at h
    · cases h
      assumption
    · cases h
  · split at h
    · split at h
      · rename_i hr
        cases h
        exact ⟨hr.1, hr.2.1, hr.2.2.1⟩
      · cases h
    · split at h
      · split at h
        · cases h
          assumption
        · cases h
      · split at h
        · cases h
          trivial
        · cases h

theorem sessionSound_opened {s : State} {b : List Byte} {f : Field} {r : RecId} {tag : Byte} {e : EntryId} (hf : fieldSound f) :
    sessionSound (openedSession s b f r tag e) := by
  refine ⟨hf, ?_, rfl, rfl⟩
  cases f with
  | amount => exact Nat.zero_le _
  | digits => exact ⟨Nat.zero_le _, fun _ h => nomatch h⟩
  | pin => exact ⟨Nat.zero_le _, fun _ h => nomatch h⟩
  | confirm => trivial

theorem ofEntry_openSession (s : State) (p : Pos) {ss : Session} (h : sessionSound ss) : OfEntry p s (openSession s p ss) :=
  (ofEntry_modEntry s p (fun c => { c with sess := some ss, guardTimer := none, target := some (ss.keypad, ss.keypadId) })
    fun hc => ⟨hc.1, h, rfl⟩).trans (ofEntry_displayUpdate _ _ _ _)

theorem ofCard_moveCard (s : State) (p : Pos) (cmd : CardCommand) (r : RecId) (st : CardState) :
    OfCard p s (moveCard s p cmd r st) :=
  (ofCard_endRead _ _ _ _).trans (ofCard_cardEnter _ _ _ _ _ _)

theorem ofCard_commandFor (s : State) (p : Pos) (cmd : CardCommand) (st : CardState) : OfCard p s (commandFor s p cmd st).1 := by
  unfold commandFor
  have h : OfCard p s _ := (offered_offerCommand s p cmd 0).widen
  split <;> rename_i heq <;> rw [heq] at h <;> dsimp only at h ⊢
  · exact h.trans (ofCard_moveCard _ _ _ _ _)
  · exact h

theorem cardsKept_commandFor (s : State) (p : Pos) {cmd : CardCommand} {st : CardState} (hst : st ≠ .reading)
    (hc : ∀ r, commandOf st (some (cmd, r))) : CardsKept s (commandFor s p cmd st).1 := by
  refine (ofCard_commandFor s p cmd st).cardsKept fun h => ?_
  unfold commandFor
  have hs := (offered_offerCommand s p cmd 0).card_eq p
  split <;> rename_i heq <;> rw [heq] at hs <;> dsimp only at hs ⊢
  · refine cardEnter_sound ?_ (hc _)
    have hr := endRead_result (s := ‹State›) (p := p) (by rw [hs]; exact h) .aborted .request
    rw [hr]
    simp [hst]
  · exact (congrArg cardSound hs).mpr h

theorem ofCard_readFor (s : State) (p : Pos) (m : BitVec 3) (n : Nat) (tag : Byte) : OfCard p s (readFor s p m n tag).1 := by
  unfold readFor
  simp only
  have h : OfCard p s _ := touches_reserve s .readDone tag
  split <;> rename_i heq <;> rw [heq] at h <;> dsimp only at h ⊢
  · exact h
  · rename_i s1 pr
    have k := h.trans (offered_offerCommand s1 p .read m).widen
    split <;> rename_i heq2 <;> rw [heq2] at k <;> dsimp only at k ⊢
    · exact k.trans (ofCard_startRead _ _ _ _ _ _ _ _)
    · exact k.trans (touches_dropRef _ _)

theorem kept_readFor (s : State) (p : Pos) (m : BitVec 3) (n : Nat) (tag : Byte) : Kept s (readFor s p m n tag).1 := by
  unfold readFor
  simp only
  have h := kept_reserve s .readDone tag
  split <;> rename_i heq <;> rw [heq] at h <;> dsimp only at h ⊢
  · exact h
  · rename_i s1 pr
    have k := h.trans (offered_offerCommand s1 p .read m).toWorks.keptEntry
    split <;> rename_i heq2 <;> rw [heq2] at k <;> dsimp only at k ⊢
    · exact k.trans ((ofCard_startRead _ _ _ _ _ _ _ _).toWorks.kept (cardsKept_startRead _ _ _ _ _ _ _ _))
    · exact k.trans (kept_dropRef _ _)

theorem offered_resendTracks (s : State) (p : Pos) : Offered s (resendTracks s p) := by
  unfold resendTracks
  refine Touches.foldl (fun t r => ?_) _ _
  split
  · exact offered_trackNotice _ _ _ _ _
  · exact .refl t

theorem offered_cardResendRule (s : State) (p : Pos) (sl : Slot) : Offered s (cardResendRule s p sl).1 := by
  unfold cardResendRule
  split
  · exact .refl s
  · split
    · dsimp only [refuse]
      exact touches_modPool s _
    · have h : Offered s _ := touches_reserve s .readDone sl.tag
      split <;> rename_i heq <;> rw [heq] at h <;> dsimp only at h ⊢
      · exact h
      · exact (h.trans (offered_resendTracks _ _)).trans
          (touches_completePromise _ _ _ _ _ _ (show (1 : Cls) ≠ 2 by decide))

/-! ## Requests of lines and units -/

theorem kept_drainState (s : State) (l : LineId) (h : Option Ms) : Kept s (drainState s l h) := by
  have header : ∀ ln : Line, (ln.headerBegun h).acks = ln.acks ∧ (ln.headerBegun h).counters = ln.counters := fun ln => by
    rw [Line.headerBegun_frame]
    exact ⟨rfl, rfl⟩
  unfold drainState
  split
  · exact (kept_modLine s l _ fun hs =>
      lineSound_of_live LineState.noConfusion hs (header s.lines[l]).1 (header s.lines[l]).2).trans (kept_setLineMark _ _)
  · exact (kept_modLine s l _ fun hs => lineSound_of_live LineState.noConfusion hs rfl rfl).trans (kept_setLineMark _ _)
  · exact .refl s

theorem kept_forceState (s : State) (l : LineId) : Kept s (forceState s l) := by
  unfold forceState
  split
  · exact .refl s
  · exact kept_enterStopped _ _

theorem kept_unbindEntry (s : State) (e : EntryId) : Kept s (unbindEntry s e) := kept_modDir _ _ _

theorem kept_bindUnit (s : State) (e : EntryId) (p : Pos) : Kept s (bindUnit s e p) := by
  unfold bindUnit
  exact (Kept.trans (.ite ((kept_unbindEntry _ _).trans (kept_endUnitSessions _ _ _ _)) (.refl s)) (kept_modDir _ _ _)).trans
    (kept_setDirMark _ _)

theorem kept_unitForgetRule (s : State) (e : EntryId) : Kept s (unitForgetRule s e).1 := by
  unfold unitForgetRule
  have released : Kept s (if s.dir[e].addr.isSome then releaseAddress s e else s) := .ite (kept_releaseAddress _ _) (.refl s)
  exact ((released.trans (.ite ((kept_endUnitSessions _ _ _ _).trans (kept_unbindEntry _ _)) (.refl _))).trans
    (kept_modDir _ _ _)).trans (kept_setDirMark _ _)

theorem kept_commitRule (s : State) (sl : Slot) : Kept s (profileCommitRule s sl).1 := by
  unfold profileCommitRule
  split
  · exact .refl s
  · have h := kept_reserve s .commitDone sl.tag
    split <;> rename_i heq <;> rw [heq] at h <;> dsimp only at h ⊢
    · exact h
    · exact h.trans (.of_eq rfl rfl rfl)

theorem Handled.kept {s u : State} {sl : Slot} (h : Handled s sl u) : Kept s u := by
  cases h with
  | same => exact .refl s
  | restart => exact .of_eq rfl rfl rfl
  | timeSet n => exact .of_eq rfl rfl rfl
  | lineStart l => exact (kept_startLine _ _).trans (kept_setLineMark _ _)
  | drain l h => exact kept_drainState s l h
  | force l => exact kept_forceState s l
  | clearLine l => exact kept_countLine _ _ fun _ _ => by simp [countersSound, zeroCounters, LineCounters.toList]
  | clearPool => exact kept_modPool _ _
  | bind e p => exact kept_bindUnit s e p
  | unbind e p => exact ((kept_unbindEntry _ _).trans (kept_endUnitSessions _ _ _ _)).trans (kept_setDirMark _ _)
  | forget e => exact kept_unitForgetRule s e
  | screen i x => exact .of_eq rfl rfl rfl
  | send tag u c body ts => exact kept_sendTo s tag u c body ts
  | openRefused => exact kept_reserve _ _ _
  | opened s1 p r f e hr hf =>
    have h := kept_reserve s .entryResult sl.tag
    rw [hr] at h
    exact h.trans (ofEntry_openSession _ _ (sessionSound_opened (fieldSound_parseField hf))).toWorks.keptEntry
  | cancel p => exact (ofEntry_abortSession _ _ _).toWorks.keptEntry
  | read p m n => exact kept_readFor s p m n _
  | resend p => exact (offered_cardResendRule s p sl).toWorks.keptEntry
  | eject p => exact (ofCard_commandFor _ _ _ _).toWorks.kept (cardsKept_commandFor _ _ (by decide) fun _ => rfl)
  | retain p => exact (ofCard_commandFor _ _ _ _).toWorks.kept (cardsKept_commandFor _ _ (by decide) fun _ => rfl)
  | profileSet => exact .of_eq rfl rfl rfl
  | commit => exact kept_commitRule s sl
  | load => exact .of_eq rfl rfl rfl

/-! ## Events -/

theorem kept_becomeIdle (s : State) (l : LineId) : Kept s (becomeIdle s l) := by
  unfold becomeIdle
  split
  · exact .refl s
  · exact kept_enterStopped _ _
  · exact (kept_modLine s l _ fun hs => lineSound_of_live LineState.noConfusion hs rfl rfl).trans (kept_setLineMark _ _)
  · rename_i hs _ _
    exact kept_modLine s l _ fun h => lineSound_of_live hs h rfl rfl

theorem kept_becomeStuck (s : State) (l : LineId) : Kept s (becomeStuck s l) := by
  unfold becomeStuck
  exact (Kept.trans (.ite (kept_bitErrorAt s l) (.refl s))
    ((kept_dropReception _ _).trans (kept_countLine _ _ counts_addStuck))).trans
    ((kept_modLine _ _ _ fun h => lineSound_of_live LineState.noConfusion h rfl rfl).trans (kept_setLineMark _ _))

theorem kept_arbitrationLost {s : State} {l : LineId} (hl : Live s l) (t : Tx) : Kept s (arbitrationLost s l t) := by
  have cut : Live (dropReception (stopTransmission s l) l) l := by
    unfold stopTransmission Live
    rw [dropReception_eq, onLine_self, cutTransmission_eq, onLine_self]
    exact hl
  exact (((kept_cutTransmission s l).trans (kept_dropReception _ _)).trans (kept_countLine _ _ counts_addArbLoss)).trans
    (kept_setRx (cut.countLine _) _)

theorem kept_ackExpires (s : State) (l : LineId) (q : QEntry) : Kept s (ackExpires s l q) := by
  unfold ackExpires
  split
  · exact kept_endEntry _ _ _ _
  · exact kept_endEntry _ _ _ _
  · exact kept_countAttempt _ _ _ _

theorem kept_sessionTimesOut (s : State) (p : Pos) (c : Cause) : Kept s (sessionTimesOut s p c) := by
  unfold sessionTimesOut
  split
  · exact .refl s
  · exact (ofEntry_endSession _ _ _ _ _ _).toWorks.keptEntry

theorem ofEntry_closeStaleDisplay (s : State) (p : Pos) : OfEntry p s (closeStaleDisplay s p) :=
  .ite (ofEntry_modEntry s p _ id) (.refl s)

theorem offered_offerClosedText (s : State) (l : LineId) : Offered s (offerClosedText s l) :=
  .ite (touches_offerControl _ _ _ _ _ _ _) (.refl s)

theorem kept_becomeUnattended (s : State) : Kept (setAttendance s false) (becomeUnattended s) :=
  (Kept.foldl (fun t p => (ofEntry_abortSession t p .unattended).toWorks.keptEntry) _ _).trans <|
    (Kept.foldl (fun t p => (ofEntry_closeStaleDisplay t p).toWorks.keptEntry) _ _).trans <|
      (Kept.foldl (fun t p => (ofCard_cardUnattended t p).toWorks.kept (cardsKept_cardUnattended t p)) _ _).trans <|
        Kept.foldl (fun t l => (offered_offerClosedText t l).toWorks.keptEntry) _ _

theorem kept_attendanceExpires (s : State) : Kept s (attendanceExpires s) := by
  have timed : ∀ x : TimeBase, Kept s { s with time := x } := fun _ => .of_eq rfl rfl rfl
  unfold attendanceExpires
  exact .ite (timed _) ((timed { s.time with attended := false, mark := true, latest := s.now, timer := none }).trans
    (kept_becomeUnattended { s with time := { s.time with timer := none } }))

theorem awake_live {s : State} {l : LineId} (h : awake s l = true) : Live s l := fun hs => by
  unfold awake at h
  rw [hs] at h
  cases h

theorem lineHears_live {s : State} {l : LineId} (h : lineHears s l = true) : Live s l := by
  unfold lineHears receiving at h
  simp only [Bool.and_eq_true] at h
  exact awake_live (by tauto)

theorem cardsKept_cardTo {s : State} {p : Pos} {st : CardState} {c : Cause} (hst : st ≠ .reading)
    (h : cardSound s.card[p] → s.card[p].result = none) : CardsKept s (cardTo s p st c) :=
  (ofCard_cardTo _ _ _ _).cardsKept fun hc => cardTo_sound (h hc) hst

theorem kept_ownCommand {s : State} {p : Pos} {cmd : CardCommand} {st : CardState} {c : Cause}
    (hr : cardSound s.card[p] → s.card[p].result = none) (hst : st ≠ .reading) (hc : ∀ r, commandOf st (some (cmd, r))) :
    Kept s (ownCommand s p cmd st c) :=
  (ofCard_ownCommand _ _ _ _ _).toWorks.kept ((ofCard_ownCommand _ _ _ _ _).cardsKept fun h => ownCommand_sound (hr h) hst hc)

/-- What was sound throughout of the lines, of the entry contexts, of the card contexts is sound throughout. -/
structure Upholds (s t : State) : Prop where
  lines : (∀ l : LineId, lineSound s.lines[l]) → ∀ l : LineId, lineSound t.lines[l]
  entry : (∀ p : Pos, entryCtxSound s.entry[p]) → ∀ p : Pos, entryCtxSound t.entry[p]
  card : (∀ p : Pos, cardSound s.card[p]) → ∀ p : Pos, cardSound t.card[p]

theorem Kept.upholds {s t : State} (h : Kept s t) : Upholds s t :=
  ⟨fun hs l => h.lines l (hs l), fun hs p => h.entry p (hs p), fun hs p => h.card p (hs p)⟩

theorem Upholds.trans {s t u : State} (h : Upholds s t) (k : Upholds t u) : Upholds s u :=
  ⟨fun hs => k.lines (h.lines hs), fun hs => k.entry (h.entry hs), fun hs => k.card (h.card hs)⟩

theorem arbitrationLost_contexts (s : State) (l : LineId) (x : Tx) :
    (arbitrationLost s l x).entry = s.entry ∧ (arbitrationLost s l x).card = s.card := by
  unfold arbitrationLost stopTransmission
  rw [dropReception_eq, cutTransmission_eq]
  exact ⟨rfl, rfl⟩

/-- R36: only a sound line, which sends nothing when STOPPED, is known to be able to lose an arbitration. -/
theorem upholds_arbitrationLost {s : State} {l : LineId} {x : Tx} (hx : s.lines[l].tx = some x) :
    Upholds s (arbitrationLost s l x) where
  lines hs k := (kept_arbitrationLost (.of_tx (hs l) hx) x).lines k (hs k)
  entry hs p := by rw [(arbitrationLost_contexts s l x).1]; exact hs p
  card hs p := by rw [(arbitrationLost_contexts s l x).2]; exact hs p

theorem BlockEvent.upholds {s u : State} (h : BlockEvent s u) : Upholds s u := by
  have kept : ∀ {u}, Kept s u → Upholds s u := Kept.upholds
  cases h with
  | edge l h => exact kept (kept_modLine _ _ _ fun hl => lineSound_of_live (lineHears_live h) hl rfl rfl)
  | char l edge c h => exact kept (kept_receiveChar (lineHears_live h) _ _)
  | falseStart l => exact (kept_falseStarts s l).upholds
  | abandonEnd l h => exact kept (kept_setRx (awake_live h) _)
  | gap l => exact kept ((kept_countLine _ _ counts_addGap).trans (kept_dropReception _ _))
  | idle l => exact (kept_becomeIdle s l).upholds
  | stuck l => exact (kept_becomeStuck s l).upholds
  | arbitration l x h => exact upholds_arbitrationLost h
  | bitError l => exact (kept_bitErrorAt s l).upholds
  | sent l => exact (kept_transmissionDone s l).upholds
  | ackTimeout l q => exact (kept_ackExpires s l q).upholds
  | limit l q => exact (kept_endEntry _ _ _ _).upholds
  | grant e => exact (kept_grantExpires s e).upholds
  | silent e => exact kept ((kept_modDir _ _ _).trans (kept_setDirMark _ _))
  | lost e => exact (kept_entryLost s e).upholds
  | session p c => exact (kept_sessionTimesOut s p c).upholds
  | retry p => exact kept ((ofEntry_displayRetry s p).toWorks.keptEntry)
  | read p =>
    refine kept ((ofCard_readEnd_cardTo _ _ _ _ _ _ _).toWorks.kept (cardsKept_readEnd_cardTo _ _ _ _ _ _ ?_))
    split <;> decide
  | take p h => exact kept (kept_ownCommand (fun hc => hc.result_none (by rw [hc.2.1.mp h]; decide)) (by decide) fun _ => rfl)
  | move p h =>
    refine kept ((ofCard_cardTo _ _ _ _).toWorks.kept (cardsKept_cardTo (by decide) fun hc => hc.result_none ?_))
    rcases hc.2.2.1.mp h with h | h <;> rw [h] <;> decide
  | attendance => exact (kept_attendanceExpires s).upholds

/-! ## Reset and start-up -/

theorem lineSound_reset : lineSound resetLine :=
  ⟨fun _ => ⟨rfl, rfl, rfl, rfl, rfl, rfl⟩, Nat.zero_le _, by simp [countersSound, resetLine, zeroCounters, LineCounters.toList]⟩

theorem entryCtxSound_reset : entryCtxSound resetEntryCtx := ⟨rfl, trivial⟩

theorem cardSound_reset : cardSound resetCardCtx :=
  ⟨by decide, by decide, by decide, by decide, fun _ => rfl, trivial⟩

theorem upholds_reset {s t : State} (hl : t.lines = Vector.replicate 4 resetLine)
    (he : t.entry = Vector.replicate 8 resetEntryCtx) (hc : t.card = Vector.replicate 8 resetCardCtx) : Upholds s t :=
  ⟨fun _ l => by rw [hl]; simpa using lineSound_reset, fun _ p => by rw [he]; simpa using entryCtxSound_reset,
    fun _ p => by rw [hc]; simpa using cardSound_reset⟩

theorem upholds_doReset (s : State) (c : ResetCause) : Upholds s (doReset s c) := upholds_reset rfl rfl rfl

theorem kept_startUp (s : State) : Kept s (startUp s) := by
  have opened : ∀ u : State, Kept u (openLink u) := fun _ => .of_eq rfl rfl rfl
  have h : Kept s (reserve (startProfile s) .start 0).1 :=
    Kept.trans (t := startProfile s) (.of_eq rfl rfl rfl) (kept_reserve _ _ _)
  unfold startUp
  split <;> rename_i hr <;> rw [hr] at h <;> dsimp only at h
  · exact h.trans ((kept_startLines _).trans (opened _))
  · exact h.trans (((kept_startLines _).trans (opened _)).trans (touches_completePromise (P := nowhere) _ _ _ _ _ _
      (show (0 : Cls) ≠ 2 by decide)).toWorks.keptEntry)

theorem kept_beginStartUp (s : State) : Kept s (beginStartUp s) := (kept_startUp s).trans (kept_settleLink _)

/-! ## Every command, every step -/

theorem kept_modLink (s : State) (f : Link → Link) : Kept s (s.modLink f) := .of_eq rfl rfl rfl

theorem kept_freeReplySlot (s : State) (i : SlotId) : Kept s (freeReplySlot s i) := kept_modLink _ _

theorem kept_scan (bs : List Byte) (k : Nat) (s : State) : Kept s (scan bs k s) := by
  rw [scan_frame]
  exact .of_eq rfl rfl rfl

theorem kept_receiveChar10 (s : State) (c : LinkChar) : Kept s (receiveChar10 s c) :=
  Kept.trans (t := (markSeen s).modLink fun k => { k with asm := [] }) (.of_eq rfl rfl rfl) (kept_scan _ _ _)

theorem kept_abandonRecord (s : State) : Kept s (abandonRecord s) := by
  unfold abandonRecord
  split <;> exact .of_eq rfl rfl rfl

theorem kept_commitEnds (s : State) (c : Commit) (b : Bool) : Kept s (commitEnds s c b) :=
  (touches_completePromise (P := nowhere) (Q := nowhere) s c.promise .commitDone 0 none (commitDoneBody s c b)
    (by decide)).toWorks.keptEntry.trans (.of_eq rfl rfl rfl)

theorem kept_writeVerified (s : State) (c : Commit) : Kept s (writeVerified s c) := by
  have stored : ∀ st : Store, Kept s { s with store := st } := fun _ => .of_eq rfl rfl rfl
  unfold writeVerified
  dsimp only
  split
  · exact stored _
  · exact (stored _).trans (kept_commitEnds _ _ _)

theorem kept_writeFailed (s : State) (c : Commit) : Kept s (writeFailed s c) := by
  have stored : ∀ st : Store, Kept s { s with store := st } := fun _ => .of_eq rfl rfl rfl
  unfold writeFailed
  exact .ite (stored _) (kept_commitEnds _ _ _)

theorem upholds_restartNow (u s : State) : Upholds u (restartNow s) :=
  (upholds_reset rfl rfl rfl : Upholds u (doReset s .restart)).trans ((kept_startUp _).trans (kept_settleLink _)).upholds

theorem Command.upholds {s t : State} (h : Command s t) : Upholds s t := by
  cases h with
  | same => exact (Kept.refl s).upholds
  | event u hrun h => exact h.upholds.trans (kept_settle u).upholds
  | request i u a fin hfin hi h => exact ((h.kept.trans (kept_finishReply u i a)).trans (kept_fin hfin _)).upholds
  | guard p =>
    refine (ofEntry_modEntry s p _ fun h => ⟨h.1, ?_⟩).toWorks.keptEntry.upholds
    have k := h.2
    cases hss : s.entry[p].sess with
    | none => trivial
    | some ss =>
      rw [hss] at k
      exact ⟨k.1, rfl⟩
  | byte c fin hfin =>
    rcases hfin with rfl | rfl
    · exact (kept_receiveChar10 s c).upholds
    · exact ((kept_receiveChar10 s c).trans (kept_settleLink _)).upholds
  | mark => exact (Kept.of_eq rfl rfl rfl : Kept s (markSeen s)).upholds
  | framing =>
    exact ((kept_abandonRecord s).trans (kept_modLink _ fun k => { k with awaitMark := true })).upholds
  | gap => exact (kept_abandonRecord s).upholds
  | verified c => exact ((kept_writeVerified s c).trans (kept_settleLink _)).upholds
  | failed c => exact ((kept_writeFailed s c).trans (kept_settleLink _)).upholds
  | recordSent x =>
    have idle : Kept s (s.modLink fun k => { k with tx := none }) := .of_eq rfl rfl rfl
    unfold Machine.recordSent
    dsimp only
    split
    · exact (idle.trans (kept_settleLink _)).upholds
    · exact ((idle.trans (kept_dropRef _ _)).trans (kept_settleLink _)).upholds
    · split
      · exact upholds_restartNow _ _
      · exact (idle.trans ((kept_freeReplySlot _ _).trans (kept_settleLink _))).upholds

theorem exec_upholds {c : Instr} {s t : State} (h : exec c s = .next t) : Upholds s t := by
  cases hc : ofPins c with
  | false =>
    obtain ⟨u, hu, k⟩ := exec_command s hc
    cases h.symm.trans hu
    exact k.upholds
  | true =>
    cases c with
    | powerOn held x =>
      cases held with
      | true => cases h; exact upholds_reset rfl rfl rfl
      | false =>
        rw [exec_powerOn_false] at h
        rw [← Host.Outcome.next.inj h]
        exact (upholds_reset rfl rfl rfl : Upholds s { doReset s .powerOn with resetPin := false, straps := x }).trans
          (kept_beginStartUp _).upholds
    | resetAsserted =>
      cases h
      split
      · exact (Kept.refl s).upholds
      · exact upholds_reset rfl rfl rfl
    | resetReleased x =>
      have released : Kept s { s with resetPin := false, straps := x } := .of_eq rfl rfl rfl
      have started := (released.trans (kept_beginStartUp _)).upholds
      cases h
      split
      · exact started
      · exact (Kept.refl s).upholds
    | pauseAsserted => cases h; exact (Kept.of_eq rfl rfl rfl : Kept s { s with pausePin := true }).upholds
    | pauseReleased =>
      have released : Kept s { s with pausePin := false } := .of_eq rfl rfl rfl
      cases h
      split
      · exact (released.trans (kept_settleLink _)).upholds
      · exact released.upholds
    | _ => cases hc

/-! ## A millisecond boundary -/

theorem tickTimer_isSome (t : Timer) : (tickTimer t).isSome = t.isSome := by cases t <;> rfl

theorem tickTimer_none {t : Timer} : tickTimer t = none ↔ t = none := by cases t <;> simp [tickTimer]

theorem lineSound_tick {ln : Line} (h : lineSound ln) : lineSound ln.tick :=
  lineSound_of_less h rfl (fun h => by rw [Line.tick, h]; rfl) (fun h => by rw [Line.tick, h]; rfl) rfl id id id rfl

theorem entryCtxSound_tick {c : EntryCtx} (h : entryCtxSound c) : entryCtxSound c.tick := by
  obtain ⟨hp, hs⟩ := h
  refine ⟨hp.trans (tickTimer_isSome _).symm, ?_⟩
  unfold EntryCtx.tick
  dsimp only
  cases hss : c.sess with
  | none => trivial
  | some ss =>
    rw [hss] at hs
    obtain ⟨⟨hf, hv, ht⟩, hg⟩ := hs
    refine ⟨⟨hf, hv, ?_⟩, tickTimer_none.mpr hg⟩
    dsimp only
    split at ht
    · rename_i ha
      rw [if_pos ha, tickTimer_none, tickTimer_isSome]
      exact ht
    · rename_i ha
      rw [if_neg ha, tickTimer_none, tickTimer_isSome]
      exact ht

theorem cardSound_tick {c : CardCtx} (h : cardSound c) : cardSound c.tick := by
  obtain ⟨h1, h2, h3, h4, h5, h6⟩ := h
  refine ⟨?_, ?_, ?_, h4, h5, h6⟩
  · exact (tickTimer_isSome c.readTimer).symm ▸ h1
  · exact (tickTimer_isSome c.takeTimer).symm ▸ h2
  · exact (tickTimer_isSome c.moveTimer).symm ▸ h3

theorem kept_boundary (s : State) : Kept s (boundary s) where
  lines l h := by
    have : (boundary s).lines[l] = s.lines[l].tick := by simp [boundary, tickState]
    rw [this]
    exact lineSound_tick h
  entry p h := by
    have : (boundary s).entry[p] = s.entry[p].tick := by simp [boundary, tickState]
    rw [this]
    exact entryCtxSound_tick h
  card p h := by
    have : (boundary s).card[p] = s.card[p].tick := by simp [boundary, tickState]
    rw [this]
    exact cardSound_tick h

theorem step_upholds {s t : State} (h : step s = .next t) : Upholds s t := by
  unfold step at h
  split at h
  · rename_i c cs _
    exact (Kept.of_eq rfl rfl rfl : Kept s { s with pending := cs }).upholds.trans (exec_upholds h)
  · cases h
    split
    · exact (kept_boundary s).upholds
    · exact (Kept.refl s).upholds

end Sys2Proof.Machine

/-! # The link, the reset state, the profile and the store stay sound -/

namespace Sys2Proof.Machine

/-! ## The link (R173, R177) -/

/-- A busy slot keeps busy whatever else of it changes. -/
theorem linkSound_busySlot {k : Link} {i : SlotId} {sl : Slot} (h : linkSound k) (hi : k.slots[i].state ≠ .free)
    (hs : sl.state ≠ .free) : linkSound { k with slots := k.slots.set i sl } := by
  obtain ⟨hnd, hbusy, hrest⟩ := h
  refine ⟨hnd, fun j => (hbusy j).trans ?_, hrest⟩
  by_cases hij : i = j
  · subst hij
    simp [hs, show k.slots[i.val].state ≠ .free from hi]
  · simp [Fin.val_ne_of_ne hij]

theorem linkSound_counted {k : Link} (h : linkSound k) :
    linkSound { k with dropped := satInc Config.count8 k.dropped } ∧
      linkSound { k with damaged := satInc Config.count8 k.damaged } := by
  obtain ⟨h1, h2, h3, h4, h5⟩ := h
  have sat : ∀ n, satInc Config.count8 n ≤ Config.count8 := fun n => satInc_le _ _
  exact ⟨⟨h1, h2, sat _, h4, h5⟩, h1, h2, h3, sat _, h5⟩

theorem linkSound_withAsm {k : Link} (h : linkSound k) {asm : List Byte} (ha : assemblySound asm) :
    linkSound { k with asm := asm } := by
  obtain ⟨h1, h2, h3, h4, -⟩ := h
  exact ⟨h1, h2, h3, h4, ha⟩

theorem freeSlotOf_free {k : Link} {i : SlotId} (h : freeSlotOf k = some i) : k.slots[i].state = .free := by
  simpa using List.find?_some h

theorem linkSound_takeRequest {s : State} {i : SlotId} (h : linkSound s.link) (hi : s.link.slots[i].state = .free) (t g : Byte)
    (body : List Byte) : linkSound (takeRequest s i t g body).link := by
  obtain ⟨hnd, hbusy, hrest⟩ := h
  have hni : i ∉ s.link.order := fun hm => (hbusy i).mp hm hi
  refine ⟨?_, fun j => ?_, hrest⟩
  · exact List.nodup_append.mpr ⟨hnd, List.nodup_singleton i, fun a ha b hb => by
      rw [List.mem_singleton.mp hb]
      exact fun hab => hni (hab ▸ ha)⟩
  · by_cases hij : i = j
    · subst hij
      simp [takeRequest, State.modLink]
    · have : j ≠ i := Ne.symm hij
      simpa [takeRequest, State.modLink, Fin.val_ne_of_ne hij, this] using hbusy j

theorem linkSound_freeReplySlot {s : State} (h : linkSound s.link) (i : SlotId) : linkSound (freeReplySlot s i).link := by
  obtain ⟨hnd, hbusy, hrest⟩ := h
  refine ⟨hnd.filter _, fun j => ?_, hrest⟩
  by_cases hij : i = j
  · subst hij
    simp [freeReplySlot, State.modLink]
  · have : j ≠ i := Ne.symm hij
    simpa [freeReplySlot, State.modLink, Fin.val_ne_of_ne hij, this] using hbusy j

theorem linkSound_judgeRecord {s : State} (h : linkSound s.link) (t g : Byte) (body : List Byte) :
    linkSound (judgeRecord s t g body).link := by
  unfold judgeRecord
  split
  · split
    · exact linkSound_takeRequest h (freeSlotOf_free ‹_›) _ _ _
    · exact (linkSound_counted h).1
  · exact (linkSound_counted h).1

theorem linkSound_settleInner {s : State} (h : linkSound s.link) (inner : List Byte) : linkSound (settleInner s inner).link := by
  unfold settleInner settleRecord
  refine linkSound_judgeRecord ?_ _ _ _
  split <;> exact h

theorem linkSound_scan (bs : List Byte) {s : State} (h : linkSound s.link) (k : Nat) : linkSound (scan bs k s).link := by
  induction bs generalizing k s with
  | nil => exact h
  | cons b bs ih =>
    cases k with
    | succ k => exact ih h k
    | zero =>
      unfold scan
      split
      · rename_i hb
        split
        · rename_i hj
          exact linkSound_withAsm h ⟨hb, hj⟩
        · exact ih (linkSound_counted h).2 0
        · exact ih (linkSound_settleInner h _) _
      · exact ih h 0

theorem linkSound_receiveChar10 {s : State} (h : linkSound s.link) (c : LinkChar) : linkSound (receiveChar10 s c).link :=
  linkSound_scan _ (s := (markSeen s).modLink fun k => { k with asm := [] }) (linkSound_withAsm h trivial) 0

theorem linkSound_abandonRecord {s : State} (h : linkSound s.link) : linkSound (abandonRecord s).link := by
  unfold abandonRecord
  split
  · exact h
  · exact (linkSound_counted (linkSound_withAsm (asm := []) h trivial)).2

theorem oldestReply_replied {k : Link} {i : SlotId} (h : oldestReply k = some i) : k.slots[i].state = .replied := by
  simpa using List.find?_some h

theorem linkSound_sendReply {s : State} {i : SlotId} (h : linkSound s.link) (hi : s.link.slots[i].state = .replied) :
    linkSound (sendReply s i).link := by
  obtain ⟨h1, h2, -, -, h5⟩ := linkSound_busySlot (sl := { s.link.slots[i] with state := .sending }) h
    (by rw [hi]; decide) SlotState.noConfusion
  exact ⟨h1, h2, Nat.zero_le _, Nat.zero_le _, h5⟩

theorem clearMark_link (s : State) (m : MarkItem) : (clearMark s m).link = s.link := by cases m <;> rfl

theorem linkSound_settleLink {s : State} (h : linkSound s.link) : linkSound (settleLink s).link := by
  rcases settleLink_cases s with k | ⟨-, -, ⟨i, hi, k⟩ | ⟨-, m, -, k⟩ | ⟨-, -, q, -, k⟩⟩ <;> rw [k]
  · exact h
  · exact linkSound_sendReply h (oldestReply_replied hi)
  · rw [sendMark]
    have := clearMark_link s m
    exact (this ▸ h : linkSound (clearMark s m).link)
  · unfold sendNotice dropHead
    split
    · exact h
    · split <;> exact h

theorem linkSound_settle {s : State} (h : linkSound s.link) : linkSound (settle s).link :=
  linkSound_settleLink (by rw [(quiet_settleLines s).link]; exact h)

theorem linkSound_fin {fin : State → State} (hf : fin = settle ∨ fin = settleLink) {s : State} (h : linkSound s.link) :
    linkSound (fin s).link := by
  rcases hf with rfl | rfl
  · exact linkSound_settle h
  · exact linkSound_settleLink h

theorem linkSound_reset : linkSound resetLink :=
  ⟨List.nodup_nil, by decide, Nat.zero_le _, Nat.zero_le _, trivial⟩

theorem StartedFrom.linkSound {s t : State} (h : StartedFrom s t) (hs : linkSound s.link) : linkSound t.link := by
  rw [h.link]
  exact hs

theorem Command.linkSound {s t : State} (h : Command s t) (hs : linkSound s.link) : linkSound t.link := by
  cases h with
  | same => exact hs
  | event u hrun h => exact linkSound_settle (by rw [h.link]; exact hs)
  | request i u a fin hfin hi h =>
    have hu : Machine.linkSound u.link ∧ u.link.slots = s.link.slots := by
      rcases h.outer.link with h | h <;> rw [h] <;> exact ⟨hs, rfl⟩
    refine linkSound_fin hfin (linkSound_busySlot hu.1 ?_ SlotState.noConfusion)
    rw [hu.2, currentSlot_taken hi]
    decide
  | guard p => exact hs
  | byte c fin hfin =>
    rcases hfin with rfl | rfl
    · exact linkSound_receiveChar10 hs c
    · exact linkSound_settleLink (linkSound_receiveChar10 hs c)
  | mark => exact hs
  | framing => exact (linkSound_abandonRecord hs : Machine.linkSound (abandonRecord s).link)
  | gap => exact linkSound_abandonRecord hs
  | verified c => exact linkSound_settleLink (by rw [link_writeVerified]; exact hs)
  | failed c => exact linkSound_settleLink (by rw [link_writeFailed]; exact hs)
  | recordSent x =>
    unfold Machine.recordSent
    dsimp only
    split
    · exact linkSound_settleLink hs
    · exact linkSound_settleLink hs
    · split
      · exact linkSound_settleLink ((startedFrom_startUp _).linkSound linkSound_reset)
      · exact linkSound_settleLink (linkSound_freeReplySlot (s := s.modLink fun k => { k with tx := none }) hs _)

/-! ## The reset state (R195) -/

theorem Command.same_or_running {s t : State} (h : Command s t) : t = s ∨ s.running = true := by
  have on : s.linkOn = true → s.running = true := fun h => by
    unfold State.linkOn at h
    rw [Bool.and_eq_true] at h
    exact h.1
  cases h with
  | same => exact .inl rfl
  | event u hrun | guard p hrun | verified c hrun | failed c hrun | recordSent x hrun => exact .inr hrun
  | request i u a fin hfin hi => exact .inr (currentSlot_running hi)
  | byte c fin hfin hon => exact .inr (on hon)
  | mark hon | framing hon | gap hon => exact .inr (on hon)

/-- A part that runs, its RESET released. -/
theorem resetSound_running {s : State} (hr : s.running = true) (hp : s.resetPin = false) : resetSound s :=
  ⟨by rw [hr, hp]; rfl, fun h => by rw [hp] at h; cases h⟩

theorem resetSound.released {s : State} (h : resetSound s) (hr : s.running = true) : s.resetPin = false := by
  have := h.1
  rw [hr] at this
  simpa using this

theorem inReset_doReset (s : State) (c : ResetCause) : inReset (doReset s c) :=
  ⟨rfl, rfl, rfl, rfl, rfl, rfl, rfl, rfl, rfl, rfl, rfl, rfl, rfl⟩

theorem beginStartUp_runs {s : State} (h : s.resetPin = false) : resetSound (beginStartUp s) :=
  have k := startedFrom_startUp s
  have l := steady_settleLink (startUp s)
  resetSound_running (l.running.trans k.running) (l.resetPin.trans (k.resetPin.trans h))

theorem Command.resetSound {s t : State} (h : Command s t) (hs : resetSound s) : resetSound t := by
  rcases h.same_or_running with rfl | hr
  · exact hs
  · exact resetSound_running (h.steady.running.trans hr) (h.steady.resetPin.trans (hs.released hr))

/-! ## The profile (R184 to R187) -/

/-- R184: the numeric items of the part, each in its range. -/
def numbersSound (p : Profile) : Prop :=
  (10 ≤ p.ackTimeout ∧ p.ackTimeout ≤ 250) ∧ (100 ≤ p.queueLimit ∧ p.queueLimit ≤ 10000) ∧
    (50 ≤ p.grantTimeout ∧ p.grantTimeout ≤ 1000) ∧ (1 ≤ p.silenceLimit ∧ p.silenceLimit ≤ 30) ∧
    (5 ≤ p.lostLimit ∧ p.lostLimit ≤ 300) ∧ p.silenceLimit + 1 ≤ p.lostLimit ∧ p.reserve0 ≤ 64 ∧ p.reserve1 ≤ 64 ∧
    (16 ≤ p.unitQuota ∧ p.unitQuota ≤ 128) ∧ (16 ≤ p.wsQuota ∧ p.wsQuota ≤ 160) ∧ (100 ≤ p.bulkAge ∧ p.bulkAge ≤ 5000) ∧
    (1 ≤ p.firstKey ∧ p.firstKey ≤ 120) ∧ (1 ≤ p.interKey ∧ p.interKey ≤ 60) ∧ p.pinGuard ≤ 10 ∧
    (1 ≤ p.readTimeout ∧ p.readTimeout ≤ 20) ∧ (5 ≤ p.takeTimeout ∧ p.takeTimeout ≤ 120) ∧ p.wsSilence ≤ 60

theorem profileSound_iff (p : Profile) :
    profileSound p ↔ (∀ l : LineId, lineItemsSound p.lines[l]) ∧ numbersSound p ∧
      (p.closedText.length = 16 ∧ textOk p.closedText = true) ∧ p.writeLimit ≤ 3 := by
  simp only [profileSound, numbersSound, inRange, Item.range, Nat.zero_le, true_and, and_assoc]

theorem clampTo_bounds {lo hi : Nat} (h : lo ≤ hi) (n : Nat) : lo ≤ clampTo lo hi n ∧ clampTo lo hi n ≤ hi := by
  unfold clampTo
  omega

/-- A write into the items of one line that leaves them in their ranges. -/
theorem lineItems_modLineItems {p : Profile} (h : ∀ l : LineId, lineItemsSound p.lines[l]) (pl : Place) {f : LineItems → LineItems}
    (hf : ∀ x, lineItemsSound x → lineItemsSound (f x)) (l : LineId) : lineItemsSound (p.modLineItems pl f).lines[l] := by
  unfold Profile.modLineItems
  split
  · rename_i k
    by_cases hkl : k = l
    · subst hkl
      simpa using hf _ (h k)
    · simpa [Fin.val_ne_of_ne hkl] using h l
  · exact h l

theorem modLineItems_frame (p : Profile) (pl : Place) (f : LineItems → LineItems) :
    p.modLineItems pl f = { p with lines := (p.modLineItems pl f).lines } := by
  cases pl <;> rfl

theorem profileSound_modLineItems {p : Profile} (h : profileSound p) (pl : Place) {f : LineItems → LineItems}
    (hf : ∀ x, lineItemsSound x → lineItemsSound (f x)) : profileSound (p.modLineItems pl f) := by
  have hl := lineItems_modLineItems h.1 pl hf
  rw [profileSound_iff] at h ⊢
  rw [modLineItems_frame] at hl ⊢
  exact ⟨hl, h.2⟩

/-- R187: a numeric item of the part, written, is in its range, and the lost limit above the silence limit. -/
theorem numbersSound_writeNumber {p : Profile} {it : Item} {lo hi : Nat} (h : numbersSound p) (hr : it.range = some (lo, hi))
    (hl : it ≠ .lineD ∧ it ≠ .lineS) (pl : Place) (n : Nat) : numbersSound (writeNumber p it pl lo hi n).profile := by
  obtain ⟨hd, hs⟩ := hl
  unfold numbersSound at h ⊢
  cases it <;> first | exact absurd rfl hd | exact absurd rfl hs | cases hr
  case silenceLimit =>
    have := clampTo_bounds (show 1 ≤ 30 by decide) n
    by_cases up : p.lostLimit < clampTo 1 30 n + 1
    · simp only [writeNumber, takenNumber, setNumber, raisesLost, up, decide_true, if_true]
      omega
    · simp only [writeNumber, takenNumber, setNumber, raisesLost, up, decide_false, Bool.false_eq_true, if_false]
      omega
  case lostLimit =>
    have := clampTo_bounds (show 5 ≤ 300 by decide) n
    simp only [writeNumber, takenNumber, setNumber, raisesLost, Bool.false_eq_true, if_false]
    omega
  all_goals
    simp only [writeNumber, takenNumber, setNumber, raisesLost, Bool.false_eq_true, if_false, clampTo]
    omega

theorem writeNumber_frame (p : Profile) {it : Item} (hl : it ≠ .lineD ∧ it ≠ .lineS) (pl : Place) (lo hi n : Nat) :
    (writeNumber p it pl lo hi n).profile.lines = p.lines ∧ (writeNumber p it pl lo hi n).profile.closedText = p.closedText ∧
      (writeNumber p it pl lo hi n).profile.writeLimit = p.writeLimit := by
  obtain ⟨hd, hs⟩ := hl
  unfold writeNumber
  dsimp only
  cases it <;> first | exact absurd rfl hd | exact absurd rfl hs | skip
  case silenceLimit => split <;> exact ⟨rfl, rfl, rfl⟩
  all_goals exact ⟨rfl, rfl, rfl⟩

theorem profileSound_writeNumber {p : Profile} {it : Item} {lo hi : Nat} (h : profileSound p) (hr : it.range = some (lo, hi))
    (pl : Place) (n : Nat) : profileSound (writeNumber p it pl lo hi n).profile := by
  by_cases hd : it = .lineD
  · subst hd
    cases hr
    obtain ⟨hlo, hhi⟩ := clampTo_bounds (show 1 ≤ 255 by decide) n
    exact profileSound_modLineItems (f := fun x => { x with d := clampTo 1 255 n }) h pl fun x hx => ⟨hlo, hhi, hx.2.2⟩
  · by_cases hs : it = .lineS
    · subst hs
      cases hr
      exact profileSound_modLineItems (f := fun x => { x with s := clampTo 12 20 n }) h pl fun x hx =>
        ⟨hx.1, hx.2.1, clampTo_bounds (show 12 ≤ 20 by decide) n⟩
    · obtain ⟨hlines, htext, hlimit⟩ := writeNumber_frame p ⟨hd, hs⟩ pl lo hi n
      rw [profileSound_iff] at h ⊢
      rw [hlines, htext, hlimit]
      exact ⟨h.1, numbersSound_writeNumber h.2.1 hr ⟨hd, hs⟩ pl n, h.2.2⟩

/-- R186, R187: a write that is taken leaves every item in its range. -/
theorem profileSound_writeItem {p : Profile} {it : Item} {pl : Place} {v : List Byte} {w : Written} (h : profileSound p)
    (hv : v.length = it.size) (hw : writeItem p it pl v = some w) : profileSound w.profile := by
  unfold writeItem at hw
  split at hw
  · rename_i lo hi hr
    cases hw
    exact profileSound_writeNumber h hr pl _
  · have k := (profileSound_iff p).mp h
    split at hw
    · split at hw
      · cases hw
        exact profileSound_modLineItems h pl fun x hx => hx
      · cases hw
    · cases hw
      exact (profileSound_iff _).mpr k
    · split at hw
      · cases hw
        exact (profileSound_iff _).mpr ⟨k.1, k.2.1, ⟨hv, by assumption⟩, k.2.2.2⟩
      · cases hw
    · split at hw
      · cases hw
        exact (profileSound_iff _).mpr ⟨k.1, k.2.1, k.2.2.1, by assumption⟩
      · cases hw
    · split at hw
      · cases hw
        exact (profileSound_iff _).mpr k
      · cases hw
    · cases hw

theorem profileSound_default : profileSound defaultProfile := by
  rw [profileSound_iff]
  refine ⟨fun l => ?_, ?_, ⟨rfl, by decide⟩, by decide⟩
  · simp [defaultProfile, lineItemsSound]
  · simp [defaultProfile, numbersSound]

/-! ## The store (R189 to R194) -/

/-- The profile and the store, both sound. -/
def ProfilesSound (s : State) : Prop := profileSound s.profile ∧ storeSound s.store

theorem ProfilesSound.of_eq {s t : State} (h : ProfilesSound s) (hp : t.profile = s.profile) (hs : t.store = s.store) :
    ProfilesSound t := by
  unfold ProfilesSound
  rw [hp, hs]
  exact h

theorem storeSound_idle {st : Store} (h : storeSound st) : storeSound { st with commit := none } := ⟨h.1, h.2.1, trivial⟩

/-- R190: the store at the beginning of a commit. -/
theorem storeSound_beginCommit {s : State} (hp : profileSound s.profile) (hs : storeSound s.store) (r : RecId) :
    storeSound (beginCommit s r).store := by
  refine ⟨hs.1, fun h => StoreState.noConfusion h, rfl, hp, rfl, .inl rfl, Nat.le_refl _, rfl, fun k hk => ?_⟩
  exact absurd hk (Nat.not_lt_zero _)

theorem commitSound_of {st : Store} {c : Commit} (h : storeSound st) (hc : st.commit = some c) : commitSound st c := by
  have := h.2.2
  rw [hc] at this
  exact this

/-- R191: the blocks up to the current unit's once its write has verified. -/
theorem writeBlock_blocks {st : Store} {c : Commit} (hs : storeSound st) (hc : st.commit = some c) :
    (∀ k : Fin 8, profileSound (writeBlock st c).blocks[k]) ∧
      ∀ k : Fin 8, k.val < c.unit.val → (writeBlock st c).blocks[k] = c.snapshot := by
  obtain ⟨-, hsnap, -, -, -, -, hblocks⟩ := commitSound_of hs hc
  unfold writeBlock
  split
  · rename_i h
    have at_k : ∀ k : Fin 8, (st.blocks.set (c.unit.val - 1) c.snapshot (by omega))[k] =
        if c.unit.val - 1 = k.val then c.snapshot else st.blocks[k] := fun k => by
      simp [Vector.getElem_set]
    refine ⟨fun k => ?_, fun k hk => ?_⟩
    · show profileSound (st.blocks.set (c.unit.val - 1) c.snapshot (by omega))[k]
      rw [at_k]
      split
      · exact hsnap
      · exact hs.1 k
    · show (st.blocks.set (c.unit.val - 1) c.snapshot (by omega))[k] = _
      rw [at_k]
      split
      · rfl
      · exact hblocks k (by omega)
  · rename_i h
    refine ⟨hs.1, fun k hk => hblocks k (by have := k.isLt; omega)⟩

theorem writeBlock_frame (st : Store) (c : Commit) : writeBlock st c = { st with blocks := (writeBlock st c).blocks } := by
  unfold writeBlock
  split <;> rfl

theorem storeSound_commitEnds {s : State} (h : storeSound { s.store with commit := none }) (c : Commit) (b : Bool) :
    storeSound (commitEnds s c b).store := by
  unfold commitEnds
  dsimp only
  rw [(calm_completePromise s c.promise .commitDone 0 none (commitDoneBody s c b)).store]
  exact h

theorem storeSound_writeVerified {s : State} {c : Commit} (hs : storeSound s.store) (hc : s.store.commit = some c) :
    storeSound (writeVerified s c).store := by
  obtain ⟨hinc, hsnap, hlim, hatt, hrew, hwr, -⟩ := commitSound_of hs hc
  obtain ⟨hall, hdone⟩ := writeBlock_blocks hs hc
  have hframe := writeBlock_frame s.store c
  unfold writeVerified
  dsimp only
  split
  · rename_i hu
    refine ⟨hall, fun h => ?_, ?_, hsnap, hlim, .inl rfl, ?_, rfl, fun k hk => hdone k (by simpa using hk)⟩
    · have : (writeBlock s.store c).state = .complete := h
      rw [hframe, hinc] at this
      cases this
    · show (writeBlock s.store c).state = .incomplete
      rw [hframe]
      exact hinc
    · show c.rewrites + 1 ≤ c.unit.val + 1 + 1
      rcases hatt with h | h <;> omega
  · rename_i hu
    have full : ∀ k : Fin 8, (writeBlock s.store c).blocks[k] = c.snapshot := fun k => hdone k (by omega)
    have stored : storeSound { writeBlock s.store c with state := .complete, commit := none } :=
      ⟨hall, fun _ k => (full k).trans (full 0).symm, trivial⟩
    exact storeSound_commitEnds (s := { s with store := { writeBlock s.store c with state := .complete } }) stored c false

theorem storeSound_writeFailed {s : State} {c : Commit} (hs : storeSound s.store) (hc : s.store.commit = some c) :
    storeSound (writeFailed s c).store := by
  obtain ⟨hinc, hsnap, hlim, hatt, hrew, hwr, hblocks⟩ := commitSound_of hs hc
  unfold writeFailed
  split
  · refine ⟨hs.1, fun h => ?_, hinc, hsnap, hlim, .inr rfl, ?_, rfl, hblocks⟩
    · exact absurd (hinc.symm.trans h) (by decide)
    · show c.rewrites + 1 + 1 ≤ c.unit.val + 2
      omega
  · exact storeSound_commitEnds (storeSound_idle hs) _ _

theorem profileSound_chosen (o : ProfileOutcome) {st : Store} (h : storeSound st) : profileSound (chosenProfile o st) := by
  unfold chosenProfile
  split
  · exact h.1 0
  · exact profileSound_default

theorem StartedFrom.profiles {s t : State} (h : StartedFrom s t) (hs : storeSound s.store) : ProfilesSound t := by
  unfold ProfilesSound
  rw [h.profile, h.store]
  exact ⟨profileSound_chosen _ hs, hs⟩

theorem profiles_settleLink {s : State} (h : ProfilesSound s) : ProfilesSound (settleLink s) :=
  h.of_eq (sends_settleLink s).profile (sends_settleLink s).store

theorem profiles_fin {fin : State → State} (hf : fin = settle ∨ fin = settleLink) {s : State} (h : ProfilesSound s) :
    ProfilesSound (fin s) := by
  rcases hf with rfl | rfl
  · exact profiles_settleLink (h.of_eq (quiet_settleLines s).profile (quiet_settleLines s).store)
  · exact profiles_settleLink h

theorem HandledOuter.profiles {s u : State} (h : HandledOuter s u) (hs : ProfilesSound s) : ProfilesSound u := by
  cases h with
  | quiet _ h => exact hs.of_eq h.profile h.store
  | restart | timeSet => exact hs
  | screen i x =>
    refine ⟨?_, hs.2⟩
    exact (profileSound_iff _).mpr ((profileSound_iff _).mp hs.1)
  | profileSet it pl v w hv hw => exact ⟨profileSound_writeItem hs.1 hv hw, hs.2⟩
  | commit s1 r _ h =>
    have k : ProfilesSound s1 := hs.of_eq h.profile h.store
    exact ⟨k.1, storeSound_beginCommit k.1 k.2 r⟩
  | load => exact ⟨hs.2.1 0, hs.2⟩

theorem BlockEvent.profiles {s u : State} (h : BlockEvent s u) (hs : ProfilesSound s) : ProfilesSound u := by
  obtain ⟨x, h⟩ := h.quiet
  exact hs.of_eq h.profile h.store

theorem profile_commitEnds (s : State) (c : Commit) (b : Bool) : (commitEnds s c b).profile = s.profile :=
  (calm_completePromise _ _ _ _ _ _).profile

theorem Command.profiles {s t : State} (h : Command s t) (hs : ProfilesSound s) : ProfilesSound t := by
  cases h with
  | same => exact hs
  | event u hrun h => exact profiles_fin (.inl rfl) (h.profiles hs)
  | request i u a fin hfin hi h => exact profiles_fin hfin (h.outer.profiles hs : ProfilesSound (finishReply u i a))
  | guard p => exact hs
  | byte c fin hfin =>
    have k : ProfilesSound (receiveChar10 s c) := by
      unfold receiveChar10 receiveByte
      rw [scan_frame]
      exact hs
    rcases hfin with rfl | rfl
    · exact k
    · exact profiles_settleLink k
  | mark => exact hs
  | framing =>
    have k : ProfilesSound (abandonRecord s) := by
      unfold abandonRecord
      split <;> exact hs
    exact k
  | gap =>
    unfold abandonRecord
    split <;> exact hs
  | verified c hrun hc =>
    refine profiles_settleLink ⟨?_, storeSound_writeVerified hs.2 hc⟩
    unfold writeVerified
    dsimp only
    split
    · exact hs.1
    · rw [profile_commitEnds]
      exact hs.1
  | failed c hrun hc =>
    refine profiles_settleLink ⟨?_, storeSound_writeFailed hs.2 hc⟩
    unfold writeFailed
    split
    · exact hs.1
    · rw [profile_commitEnds]
      exact hs.1
  | recordSent x =>
    unfold Machine.recordSent
    dsimp only
    split
    · exact profiles_settleLink hs
    · exact profiles_settleLink hs
    · split
      · exact profiles_settleLink ((startedFrom_startUp _).profiles (storeSound_idle hs.2))
      · exact profiles_settleLink hs

/-! ## Every step -/

/-- What O59 asks of the link, the reset state, the profile and the store, of one step. -/
structure Upright (s t : State) : Prop where
  link : linkSound s.link → linkSound t.link
  reset : resetSound s → resetSound t
  profiles : ProfilesSound s → ProfilesSound t

theorem Upright.refl (s : State) : Upright s s := ⟨id, id, id⟩

theorem Command.upright {s t : State} (h : Command s t) : Upright s t := ⟨h.linkSound, h.resetSound, h.profiles⟩

theorem upright_heldReset {s : State} (c : ResetCause) (x : Straps) :
    Upright s { doReset s c with resetPin := true, straps := x } :=
  ⟨fun _ => linkSound_reset, fun _ => ⟨rfl, fun _ => inReset_doReset s c⟩, fun h => ⟨h.1, storeSound_idle h.2⟩⟩

theorem upright_beginStartUp {s u : State} (hl : linkSound s.link → linkSound u.link) (hp : u.resetPin = false)
    (hs : ProfilesSound s → storeSound u.store) : Upright s (beginStartUp u) :=
  ⟨fun h => linkSound_settleLink ((startedFrom_startUp u).linkSound (hl h)), fun _ => beginStartUp_runs hp,
    fun h => profiles_settleLink ((startedFrom_startUp u).profiles (hs h))⟩

theorem exec_upright {c : Instr} {s t : State} (h : exec c s = .next t) : Upright s t := by
  cases hc : ofPins c with
  | false =>
    obtain ⟨u, hu, k⟩ := exec_command s hc
    cases h.symm.trans hu
    exact k.upright
  | true =>
    cases c with
    | powerOn held x =>
      cases held with
      | true => cases h; exact upright_heldReset .powerOn x
      | false =>
        rw [exec_powerOn_false] at h
        rw [← Host.Outcome.next.inj h]
        exact upright_beginStartUp (fun _ => linkSound_reset) rfl fun h => storeSound_idle h.2
    | resetAsserted =>
      cases h
      split
      · exact .refl s
      · exact upright_heldReset .resetPin s.straps
    | resetReleased x =>
      have started : Upright s (beginStartUp { s with resetPin := false, straps := x }) :=
        upright_beginStartUp id rfl And.right
      cases h
      split
      · exact started
      · exact .refl s
    | pauseAsserted => cases h; exact ⟨id, id, id⟩
    | pauseReleased =>
      have released : Upright s { s with pausePin := false } := ⟨id, id, id⟩
      have k := steady_settleLink { s with pausePin := false }
      cases h
      split
      · rename_i hr
        exact ⟨linkSound_settleLink (s := { s with pausePin := false }),
          fun h => resetSound_running (k.running.trans hr) (k.resetPin.trans (h.released hr)),
          profiles_settleLink (s := { s with pausePin := false })⟩
      · exact released
    | _ => cases hc

theorem upright_boundary {s : State} (hr : s.running = true) : Upright s (boundary s) :=
  ⟨id, fun h => resetSound_running hr (h.released hr), id⟩

theorem step_upright {s t : State} (h : step s = .next t) : Upright s t := by
  unfold step at h
  split at h
  · rename_i c cs _
    have k := exec_upright h
    exact ⟨k.link, k.reset, k.profiles⟩
  · cases h
    split
    · exact upright_boundary ‹_›
    · exact .refl s

/-- Settles O59: `step_upholds` for the lines, `step_upright` for the rest. -/
theorem linesLinkAndStoreStaySound : Obligations.LinesLinkAndStoreStaySound := by
  intro s t h
  have k := step_upright h
  exact ⟨(step_upholds h).lines, k.link, k.reset, fun hp hs => k.profiles ⟨hp, hs⟩⟩

end Sys2Proof.Machine

/-! # The directory stays sound

The soundness of the directory is a matter of the entries' cores: identity, kind, state, line, address, binding and grant
attempts. Each operation of the Directory is described by what it does to one core, the others standing. -/

namespace Sys2Proof.Machine

/-! ## Cores -/

/-- An entry without what its soundness does not depend on. -/
def DirEntry.core (d : DirEntry) : DirEntry :=
  { d with
    lastHeard := 0, outBit := false, inBit := none, condition := .ok, grantTimer := none, silenceTimer := none, lostTimer := none
    mark := false, latest := 0 }

/-- The cores of the sixteen entries. -/
def cores (s : State) (e : EntryId) : DirEntry := s.dir[e].core

/-- R70 to R72, of cores. -/
def coresSound (c : EntryId → DirEntry) : Prop :=
  (∀ e, entryFieldsSound (c e)) ∧ ∀ e f, e ≠ f → entriesApart (c e) (c f)

theorem directorySound_iff (s : State) : directorySound s ↔ coresSound (cores s) := Iff.rfl

theorem cores_of_dir {s t : State} (h : t.dir = s.dir) : cores t = cores s := by
  unfold cores
  rw [h]

theorem cores_of_calm {s t : State} (h : Calm s t) : cores t = cores s := by
  funext e
  unfold cores
  rw [h.dir e]
  rfl

theorem cores_of_sends {s t : State} (h : Sends s t) : cores t = cores s := by
  funext e
  unfold cores
  rw [h.dir e]
  rfl

theorem cores_modDir (s : State) (e : EntryId) (f : DirEntry → DirEntry) :
    cores (s.modDir e f) = Function.update (cores s) e (f s.dir[e]).core := by
  funext x
  unfold cores
  rw [State.modDir_get, Function.update_apply]
  by_cases h : x = e
  · subst h
    rw [if_pos rfl, if_pos rfl]
  · rw [if_neg h, if_neg (Ne.symm h)]

/-- A change of timers, marks, bits or times of an entry. -/
theorem cores_modDir_same (s : State) (e : EntryId) {f : DirEntry → DirEntry} (h : (f s.dir[e]).core = s.dir[e].core) :
    cores (s.modDir e f) = cores s := by
  rw [cores_modDir, h]
  exact Function.update_eq_self e (cores s)

theorem cores_setDirMark (s : State) (e : EntryId) : cores (setDirMark s e) = cores s := cores_modDir_same s e rfl

/-! ## Entries that claim no more -/

/-- Entry d' claims no identity, address or slot that d did not, and is sound where d is. -/
structure Within (d d' : DirEntry) : Prop where
  fields : entryFieldsSound d → entryFieldsSound d'
  identity : d'.state ≠ .free → d.state ≠ .free ∧ d'.identity = d.identity
  address : d'.present = true → d.present = true ∧ d'.line = d.line ∧ d'.addr = d.addr
  slot : d'.pos.isSome → d'.pos = d.pos ∧ d'.kind = d.kind

theorem Within.refl (d : DirEntry) : Within d d := ⟨id, fun h => ⟨h, rfl⟩, fun h => ⟨h, rfl, rfl⟩, fun _ => ⟨rfl, rfl⟩⟩

theorem entriesApart_within {a a' b b' : DirEntry} (ha : Within a a') (hb : Within b b') (h : entriesApart a b) :
    entriesApart a' b' := by
  obtain ⟨h1, h2, h3⟩ := h
  refine ⟨fun x y => ?_, fun x y z => ?_, fun x y z => ?_⟩
  · obtain ⟨xa, ia⟩ := ha.identity x
    obtain ⟨xb, ib⟩ := hb.identity y
    rw [ia, ib]
    exact h1 xa xb
  · obtain ⟨xa, la, aa⟩ := ha.address x
    obtain ⟨xb, lb, ab⟩ := hb.address y
    rw [aa, ab]
    exact h2 xa xb (la.symm.trans (z.trans lb))
  · obtain ⟨pa, ka⟩ := ha.slot x
    obtain ⟨pb, kb⟩ := hb.slot (z ▸ x)
    exact h3 (pa ▸ x) (ka.symm.trans (y.trans kb)) (pa.symm.trans (z.trans pb))

theorem coresSound_within {c c' : EntryId → DirEntry} (h : coresSound c) (hw : ∀ e, Within (c e) (c' e)) : coresSound c' :=
  ⟨fun e => (hw e).fields (h.1 e), fun e f hef => entriesApart_within (hw e) (hw f) (h.2 e f hef)⟩

theorem coresSound_update_within {c : EntryId → DirEntry} (h : coresSound c) {e : EntryId} {d : DirEntry} (hd : Within (c e) d) :
    coresSound (Function.update c e d) := by
  refine coresSound_within h fun x => ?_
  by_cases hx : x = e
  · subst hx
    rw [Function.update_self]
    exact hd
  · rw [Function.update_of_ne hx]
    exact .refl _

/-- R70 to R72: an entry replaced by one that none of the others meets. -/
theorem coresSound_update {c : EntryId → DirEntry} (h : coresSound c) {e : EntryId} {d : DirEntry} (hf : entryFieldsSound d)
    (hi : d.state ≠ .free → ∀ x, x ≠ e → (c x).state ≠ .free → (c x).identity ≠ d.identity)
    (ha : d.present = true → ∀ x, x ≠ e → (c x).present = true → (c x).line = d.line → (c x).addr ≠ d.addr)
    (hs : d.pos.isSome → ∀ x, x ≠ e → (c x).kind = d.kind → (c x).pos ≠ d.pos) : coresSound (Function.update c e d) := by
  refine ⟨fun x => ?_, fun x y hxy => ?_⟩
  · by_cases hx : x = e
    · subst hx
      rw [Function.update_self]
      exact hf
    · rw [Function.update_of_ne hx]
      exact h.1 x
  · by_cases hx : x = e
    · subst hx
      rw [Function.update_self, Function.update_of_ne hxy.symm]
      exact ⟨fun k1 k2 => (hi k1 y hxy.symm k2).symm, fun k1 k2 k3 => (ha k1 y hxy.symm k2 k3.symm).symm,
        fun k1 k2 => (hs k1 y hxy.symm k2.symm).symm⟩
    · rw [Function.update_of_ne hx]
      by_cases hy : y = e
      · subst hy
        rw [Function.update_self]
        exact ⟨fun k1 k2 => hi k2 x hx k1, fun k1 k2 k3 => ha k2 x hx k1 k3, fun k1 k2 k3 => hs (k3 ▸ k1) x hx k2 k3⟩
      · rw [Function.update_of_ne hy]
        exact h.2 x y hxy

/-! ## What the lookups say -/

theorem mem_allEntries (e : EntryId) : e ∈ allEntries := by
  revert e
  decide

theorem holderOf_none {s : State} {i : Identity} (h : holderOf s i = none) (e : EntryId) (he : s.dir[e].state ≠ .free) :
    s.dir[e].identity ≠ i := by
  have hn := List.find?_eq_none.mp h e (mem_allEntries e)
  intro hi
  exact hn (by rw [Bool.and_eq_true, bne_iff_ne, beq_iff_eq]; exact ⟨he, hi⟩)

theorem entryAt_none {s : State} {l : LineId} {a : Addr} (h : (entryAt s l a).isNone = true) (e : EntryId)
    (hp : s.dir[e].present = true) (hl : s.dir[e].line = l) : s.dir[e].addr ≠ some a := by
  have := List.find?_eq_none.mp (Option.isNone_iff_eq_none.mp h) e (mem_allEntries e)
  unfold holdsAt at this
  rw [hp, hl] at this
  simpa using this

/-- R72: the lowest free address is one from 1 to 14 that no present entry of the line holds. -/
theorem lowestFreeAddr_some {s : State} {l : LineId} {a : Addr} (h : lowestFreeAddr s l = some a) :
    (a ≠ 0 ∧ a ≠ 15) ∧ ∀ e : EntryId, s.dir[e].present = true → s.dir[e].line = l → s.dir[e].addr ≠ some a := by
  unfold lowestFreeAddr at h
  have hfree : (entryAt s l a).isNone = true := List.find?_some (p := fun a => (entryAt s l a).isNone) h
  refine ⟨?_, entryAt_none hfree⟩
  have hm := List.mem_of_find?_eq_some h
  clear hfree h
  revert a
  decide

theorem slotOf_none {s : State} {k : UnitKind} {p : Pos} (h : slotOf s k p = none) (e : EntryId) : inSlot s.dir[e] k p = false := by
  simpa using List.find?_eq_none.mp h e (mem_allEntries e)

theorem slotOf_some {s : State} {k : UnitKind} {p : Pos} {e : EntryId} (h : slotOf s k p = some e) :
    inSlot s.dir[e] k p = true := by
  unfold slotOf at h
  exact List.find?_some (p := fun e : EntryId => inSlot s.dir[e] k p) h

theorem inSlot_iff {d : DirEntry} {k : UnitKind} {p : Pos} :
    inSlot d k p = true ↔ d.state ≠ .free ∧ d.kind = k ∧ d.pos = some p := by
  simp [inSlot, and_assoc]

/-- R71: of a sound directory, an empty slot is the slot of no entry. -/
theorem slotOf_none_pos {s : State} (hs : directorySound s) {k : UnitKind} {p : Pos} (h : slotOf s k p = none) (e : EntryId)
    (hk : s.dir[e].kind = k) : s.dir[e].pos ≠ some p := fun hp => by
  have hfree : s.dir[e].state ≠ .free := fun hf => by
    have := (hs.1 e).2.2.1 hf
    rw [hp] at this
    cases this
  have := slotOf_none h e
  rw [inSlot_iff.mpr ⟨hfree, hk, hp⟩] at this
  cases this

/-! ## The operations on one core -/

theorem present_of_free {d : DirEntry} (h : d.state = .free) : d.present = false := by
  unfold DirEntry.present
  rw [h]

theorem present_of_lost {d : DirEntry} (h : d.state = .lost) : d.present = false := by
  unfold DirEntry.present
  rw [h]

theorem not_free_of_present {d : DirEntry} (h : d.present = true) : d.state ≠ .free := fun hf => by
  rw [present_of_free hf] at h
  cases h

theorem cores_releaseAddress (s : State) (e : EntryId) :
    cores (releaseAddress s e) = Function.update (cores s) e { cores s e with addr := none } := by
  unfold releaseAddress
  rw [cores_modDir_same _ e rfl, cores_of_calm (calm_endEntries _ _ _ _), cores_modDir]
  rfl

theorem cores_grantAddress (s : State) (e : EntryId) (l : LineId) (a : Addr) :
    cores (grantAddress s e l a) =
      Function.update (cores s) e { cores s e with line := l, addr := some a, grantAttempts := 1, state := .pending } := by
  unfold grantAddress
  rw [cores_modDir_same _ e rfl, cores_of_calm (calm_offerGrant _ _), cores_modDir]
  rfl

theorem cores_unbindEntry (s : State) (e : EntryId) :
    cores (unbindEntry s e) = Function.update (cores s) e { cores s e with pos := none, pinned := false } := cores_modDir _ _ _

theorem cores_bindEntry (s : State) (e : EntryId) (p : Pos) (b : Bool) :
    cores (bindEntry s e p b) = Function.update (cores s) e { cores s e with pos := some p, pinned := b } := cores_modDir _ _ _

/-- R72, R77, R78: a released address, if one was held, and then a grant: the same core as the grant alone. -/
theorem cores_regrant (s : State) (e : EntryId) (l : LineId) (a : Addr) (b : Prop) [Decidable b] (c : Cause) :
    cores (setDirMark (endUnitSessions (grantAddress (if b then releaseAddress s e else s) e l a)
      (grantAddress (if b then releaseAddress s e else s) e l a).dir[e].kind
      (grantAddress (if b then releaseAddress s e else s) e l a).dir[e].pos c) e) =
      Function.update (cores s) e { cores s e with line := l, addr := some a, grantAttempts := 1, state := .pending } := by
  rw [cores_setDirMark, cores_of_calm (calm_endUnitSessions _ _ _ _), cores_grantAddress]
  split
  · rw [cores_releaseAddress, Function.update_self, Function.update_idem]
  · rfl

/-- The directory that was sound is sound. -/
def UnitsKept (s t : State) : Prop := directorySound s → directorySound t

theorem UnitsKept.refl (s : State) : UnitsKept s s := id

theorem UnitsKept.trans {s t u : State} (h : UnitsKept s t) (k : UnitsKept t u) : UnitsKept s u := fun hs => k (h hs)

theorem UnitsKept.ite {s t u : State} {c : Prop} [Decidable c] (h : UnitsKept s t) (k : UnitsKept s u) :
    UnitsKept s (if c then t else u) := by
  split <;> assumption

theorem UnitsKept.foldl {α : Type} {f : State → α → State} (h : ∀ t x, UnitsKept t (f t x)) (l : List α) (s : State) :
    UnitsKept s (l.foldl f s) := by
  induction l generalizing s with
  | nil => exact .refl s
  | cons x l ih => exact (h s x).trans (ih _)

theorem UnitsKept.of_cores {s t : State} (h : cores t = cores s) : UnitsKept s t := fun hs => by
  rw [directorySound_iff, h]
  exact hs

theorem UnitsKept.of_update {s t : State} {e : EntryId} {d : DirEntry} (h : cores t = Function.update (cores s) e d)
    (hd : directorySound s → coresSound (Function.update (cores s) e d)) : UnitsKept s t := fun hs => by
  rw [directorySound_iff, h]
  exact hd hs

theorem UnitsKept.of_within {s t : State} {e : EntryId} {d : DirEntry} (h : cores t = Function.update (cores s) e d)
    (hd : directorySound s → Within (cores s e) d) : UnitsKept s t :=
  .of_update h fun hs => coresSound_update_within (c := cores s) hs (hd hs)

theorem Calm.units {s t : State} (h : Calm s t) : UnitsKept s t := .of_cores (cores_of_calm h)

/-- R72: a grant of a free address of a line, to an entry whose identity no other holds. -/
theorem coresSound_grantNew {c : EntryId → DirEntry} (h : coresSound c) {e : EntryId}
    (hi : ∀ x, x ≠ e → (c x).state ≠ .free → (c x).identity ≠ (c e).identity) {l : LineId} {a : Addr} (ha : a ≠ 0 ∧ a ≠ 15)
    (hfree : ∀ x, x ≠ e → (c x).present = true → (c x).line = l → (c x).addr ≠ some a) :
    coresSound (Function.update c e { c e with line := l, addr := some a, grantAttempts := 1, state := .pending }) := by
  obtain ⟨-, -, -, hpin, -, -⟩ := h.1 e
  refine coresSound_update h ⟨fun _ => ⟨a, rfl, ha⟩, fun hp => Bool.noConfusion hp, fun hf => EntryState.noConfusion hf, hpin,
    (by decide : 1 ≤ Config.maxGrants), fun hf => EntryState.noConfusion hf⟩ (fun _ => hi) (fun _ x hx hp hl => hfree x hx hp hl)
    (fun hp x hx hk hpos => (h.2 e x hx.symm).2.2 hp hk.symm hpos.symm)

theorem coresSound_grant {c : EntryId → DirEntry} (h : coresSound c) {e : EntryId} (he : (c e).state ≠ .free) {l : LineId} {a : Addr}
    (ha : a ≠ 0 ∧ a ≠ 15) (hfree : ∀ x, x ≠ e → (c x).present = true → (c x).line = l → (c x).addr ≠ some a) :
    coresSound (Function.update c e { c e with line := l, addr := some a, grantAttempts := 1, state := .pending }) :=
  coresSound_grantNew h (fun x hx hxf => (h.2 x e hx).1 hxf he) ha hfree

/-- R71: an empty slot is taken by an entry. -/
theorem coresSound_bind {c : EntryId → DirEntry} (h : coresSound c) {e : EntryId} (he : (c e).state ≠ .free) {p : Pos} (b : Bool)
    (hslot : ∀ x, x ≠ e → (c x).kind = (c e).kind → (c x).pos ≠ some p) :
    coresSound (Function.update c e { c e with pos := some p, pinned := b }) := by
  obtain ⟨h1, h2, -, -, h5, h6⟩ := h.1 e
  exact coresSound_update h ⟨h1, h2, fun hf => absurd hf he, fun _ => rfl, h5, h6⟩
    (fun _ x hx hxf => (h.2 x e hx).1 hxf he) (fun hp x hx hxp hl => (h.2 x e hx).2.1 hxp hp hl) (fun _ => hslot)

theorem within_unbound (d : DirEntry) : Within d { d with pos := none, pinned := false } :=
  ⟨fun ⟨h1, h2, _, _, h5, h6⟩ => ⟨h1, h2, fun _ => rfl, fun h => Bool.noConfusion h, h5, h6⟩, fun h => ⟨h, rfl⟩,
    fun h => ⟨h, rfl, rfl⟩, fun h => Bool.noConfusion h⟩

theorem units_unbindEntry (s : State) (e : EntryId) : UnitsKept s (unbindEntry s e) :=
  .of_within (cores_unbindEntry s e) fun _ => within_unbound (cores s e)

theorem units_bindEntry {s : State} {e : EntryId} (he : s.dir[e].state ≠ .free) {p : Pos} (b : Bool)
    (hslot : directorySound s → ∀ x : EntryId, x ≠ e → s.dir[x].kind = s.dir[e].kind → s.dir[x].pos ≠ some p) :
    UnitsKept s (bindEntry s e p b) :=
  .of_update (cores_bindEntry s e p b) fun hs => coresSound_bind (c := cores s) hs he b (hslot hs)

/-! ## HELLO (R74 to R78) -/

theorem cores_helloKind (s : State) (e : EntryId) (k : UnitKind) :
    cores (helloKind s e k) = Function.update (cores s) e
      (if s.dir[e].kind ≠ k ∧ s.dir[e].pos.isSome then { cores s e with pos := none, pinned := false, kind := k }
       else { cores s e with kind := k }) := by
  unfold helloKind
  dsimp only
  rw [cores_modDir]
  split
  · have h : cores (endUnitSessions (setDirMark (unbindEntry s e) e) s.dir[e].kind s.dir[e].pos .unitRestarted) =
        Function.update (cores s) e { cores s e with pos := none, pinned := false } := by
      rw [cores_of_calm (calm_endUnitSessions _ _ _ _), cores_setDirMark, cores_unbindEntry]
    have he := congrFun h e
    rw [Function.update_self] at he
    rw [h, Function.update_idem]
    congr 1
    have hcore (t : Ms) (d : DirEntry) : ({ d with kind := k, lastHeard := t } : DirEntry).core = { d.core with kind := k } := rfl
    rw [hcore]
    exact congrArg (fun d : DirEntry => { d with kind := k }) he
  · rfl

theorem within_helloKind {d : DirEntry} (k : UnitKind) :
    Within d (if d.kind ≠ k ∧ d.pos.isSome then { d with pos := none, pinned := false, kind := k } else { d with kind := k }) := by
  split
  · exact ⟨fun ⟨h1, h2, h3, h4, h5, h6⟩ => ⟨h1, h2, fun _ => rfl, fun h => Bool.noConfusion h, h5, h6⟩, fun h => ⟨h, rfl⟩,
      fun h => ⟨h, rfl, rfl⟩, fun h => Bool.noConfusion h⟩
  · rename_i hn
    refine ⟨id, fun h => ⟨h, rfl⟩, fun h => ⟨h, rfl, rfl⟩, fun h => ⟨rfl, ?_⟩⟩
    by_contra hk
    exact hn ⟨fun hd => hk hd.symm, h⟩

theorem units_helloKind (s : State) (e : EntryId) (k : UnitKind) : UnitsKept s (helloKind s e k) :=
  .of_within (cores_helloKind s e k) fun _ => within_helloKind (d := cores s e) k

/-- What helloKind leaves of the entries' states and addresses. -/
theorem helloKind_core (s : State) (e : EntryId) (k : UnitKind) (x : EntryId) :
    (cores (helloKind s e k) x).state = (cores s x).state ∧ (cores (helloKind s e k) x).line = (cores s x).line ∧
      (cores (helloKind s e k) x).addr = (cores s x).addr := by
  rw [cores_helloKind]
  by_cases hx : x = e
  · subst hx
    rw [Function.update_self]
    split <;> exact ⟨rfl, rfl, rfl⟩
  · rw [Function.update_of_ne hx]
    exact ⟨rfl, rfl, rfl⟩

theorem units_helloRestart {s : State} {e : EntryId} (he : s.dir[e].state ≠ .free) : UnitsKept s (helloRestart s e) := by
  unfold helloRestart
  dsimp only
  split
  · exact (calm_offerRefuse _ _ _ _).units
  · rename_i a ha
    refine .of_update (cores_regrant s e _ a _ _) fun hs => ?_
    cases hadr : s.dir[e].addr with
    | none =>
      rw [hadr] at ha
      obtain ⟨ha, hfree⟩ := lowestFreeAddr_some ha
      exact coresSound_grant (c := cores s) hs he ha fun x _ => hfree x
    | some b =>
      rw [hadr] at ha
      cases ha
      have hp : s.dir[e].present = true := by
        by_contra hn
        have := (hs.1 e).2.1 (by simpa using hn)
        rw [hadr] at this
        cases this
      obtain ⟨c, hc, hc15⟩ := (hs.1 e).1 hp
      cases hadr.symm.trans hc
      refine coresSound_grant (c := cores s) hs he hc15 fun x hx hxp hxl hxa => ?_
      exact (hs.2 x e hx).2.1 hxp hp hxl (hxa.trans hadr.symm)

theorem units_helloMove {s : State} {e : EntryId} {l : LineId} {a : Addr} (he : s.dir[e].state ≠ .free) (ha : a ≠ 0 ∧ a ≠ 15)
    (hfree : ∀ x : EntryId, s.dir[x].present = true → s.dir[x].line = l → s.dir[x].addr ≠ some a) :
    UnitsKept s (helloMove s e l a) :=
  .of_update (cores_regrant s e l a _ _) fun hs => coresSound_grant (c := cores s) hs he ha fun x _ => hfree x

/-- R75: the entry chosen for a new identity is FREE or LOST. -/
theorem chooseEntry_absent {s : State} {e : EntryId} (h : chooseEntry s = some e) : s.dir[e].present = false := by
  unfold chooseEntry at h
  split at h
  · rename_i hf
    cases h
    exact present_of_free (by simpa using List.find?_some hf)
  · unfold oldestLost at h
    have step : ∀ (es : List EntryId) (best : Option EntryId), (∀ b, best = some b → s.dir[b].present = false) →
        ∀ b, es.foldl (fun best e =>
          let d := s.dir[e]
          if d.state = .lost ∧ !d.pinned then
            match best with
            | none => some e
            | some b => if elapsed s.now s.dir[b].lastHeard < elapsed s.now d.lastHeard then some e else some b
          else best) best = some b → s.dir[b].present = false := fun es => by
      induction es with
      | nil => exact fun _ h => h
      | cons x es ih =>
        intro best hb
        refine ih _ fun b => ?_
        dsimp only
        split
        · rename_i hx
          have lost := present_of_lost hx.1
          split
          · intro h
            cases h
            exact lost
          · split
            · intro h
              cases h
              exact lost
            · exact hb b
        · exact hb b
    exact step allEntries none (fun _ h => nomatch h) e h

end Sys2Proof.Machine

/-! # Every step keeps the directory sound -/

namespace Sys2Proof.Machine

/-! ## New identities (R75, R76) -/

/-- What the loss of an entry's binding leaves of the entries' states and kinds. -/
theorem unbound_core (c : EntryId → DirEntry) (o x : EntryId) :
    (Function.update c o { c o with pos := none, pinned := false } x).state = (c x).state ∧
      (Function.update c o { c o with pos := none, pinned := false } x).kind = (c x).kind := by
  rw [Function.update_apply]
  split
  · rename_i h
    rw [h]
    exact ⟨rfl, rfl⟩
  · exact ⟨rfl, rfl⟩

/-- R76: an entry takes the slot of another, whose binding goes. -/
theorem coresSound_displace {c : EntryId → DirEntry} (h : coresSound c) {e o : EntryId} (he : (c e).state ≠ .free) {p : Pos}
    (hk : (c o).kind = (c e).kind) (hp : (c o).pos = some p) (b : Bool) :
    coresSound (Function.update (Function.update c o { c o with pos := none, pinned := false }) e
      { Function.update c o { c o with pos := none, pinned := false } e with pos := some p, pinned := b }) := by
  refine coresSound_bind (coresSound_update_within h (within_unbound (c o))) ?_ b fun x hx hkind hpos => ?_
  · rw [(unbound_core c o e).1]
    exact he
  · rw [(unbound_core c o x).2, (unbound_core c o e).2] at hkind
    by_cases hxo : x = o
    · rw [hxo, Function.update_self] at hpos
      cases hpos
    · rw [Function.update_of_ne hxo] at hpos
      exact (h.2 x o hxo).2.2 (hpos ▸ rfl) (hkind.trans hk.symm) (hpos.trans hp.symm)

/-- R76: the pin check binds the entry to a slot that is empty, or that it empties. -/
theorem units_pinCheck {s : State} {e : EntryId} (he : s.dir[e].state ≠ .free) : UnitsKept s (pinCheck s e) := by
  unfold pinCheck
  split
  · exact .refl s
  · rename_i p _
    split
    · rename_i hslot
      exact units_bindEntry he true fun hs x _ => slotOf_none_pos hs hslot x
    · rename_i o ho
      refine .ite (.refl s) fun hs => ?_
      obtain ⟨-, hok, hop⟩ := inSlot_iff.mp (slotOf_some ho)
      rw [directorySound_iff, cores_bindEntry, cores_of_calm (calm_endUnitSessions _ _ _ _), cores_setDirMark, cores_unbindEntry]
      exact coresSound_displace (c := cores s) hs he hok hop true

/-- R75: the entry taken for a new identity, before its grant. -/
def DirEntry.taken (d : DirEntry) (i : Identity) (k : UnitKind) (now : Ms) : DirEntry :=
  { d with identity := i, kind := k, pos := none, pinned := false, established := false, condition := .ok, lastHeard := now }

theorem coresSound_taken {c : EntryId → DirEntry} (h : coresSound c) {e : EntryId} (he : (c e).present = false) {i : Identity}
    (hi : ∀ x, (c x).state ≠ .free → (c x).identity ≠ i) (k : UnitKind) :
    coresSound (Function.update c e ((c e).taken i k 0).core) := by
  obtain ⟨-, h2, -, -, h5, -⟩ := h.1 e
  have absent : ((c e).taken i k 0).core.present = false := he
  refine coresSound_update h ⟨fun hp => absurd (absent.symm.trans hp) Bool.false_ne_true, fun _ => h2 he, fun _ => rfl,
    fun hp => Bool.noConfusion hp, h5, fun ha => ?_⟩ (fun _ x _ hxf => hi x hxf)
    (fun hp => absurd (absent.symm.trans hp) Bool.false_ne_true) (fun hp => Bool.noConfusion hp)
  have hstate : (c e).state = .active := ha
  unfold DirEntry.present at he
  rw [hstate] at he
  cases he

theorem cores_taken (s : State) (e : EntryId) (i : Identity) (k : UnitKind) (now : Ms) :
    cores (s.modDir e fun d => d.taken i k now) = Function.update (cores s) e ((cores s e).taken i k 0).core := cores_modDir _ _ _

theorem units_taken {s : State} {e : EntryId} (he : s.dir[e].present = false) {i : Identity} (hi : holderOf s i = none)
    (k : UnitKind) (now : Ms) : UnitsKept s (s.modDir e fun d => d.taken i k now) :=
  .of_update (cores_taken s e i k now) fun hs => coresSound_taken (c := cores s) hs he (holderOf_none hi) k

theorem units_grantAddress {s : State} {e : EntryId} {l : LineId} {a : Addr} (ha : a ≠ 0 ∧ a ≠ 15)
    (hi : ∀ x, x ≠ e → (cores s x).state ≠ .free → (cores s x).identity ≠ (cores s e).identity)
    (hfree : ∀ x, x ≠ e → (cores s x).present = true → (cores s x).line = l → (cores s x).addr ≠ some a) :
    UnitsKept s (grantAddress s e l a) :=
  .of_update (cores_grantAddress s e l a) fun hs => coresSound_grantNew (c := cores s) hs hi ha hfree

theorem grantAddress_pending (s : State) (e : EntryId) (l : LineId) (a : Addr) :
    (grantAddress s e l a).dir[e].state = .pending := by
  have h := congrFun (cores_grantAddress s e l a) e
  rw [Function.update_self] at h
  exact congrArg DirEntry.state h

theorem units_helloNew {s : State} {l : LineId} {i : Identity} (hi : holderOf s i = none) (k : UnitKind) :
    UnitsKept s (helloNew s l i k) := by
  unfold helloNew
  split
  · exact (calm_offerRefuse _ _ _ _).units
  · rename_i e he
    split
    · exact (calm_offerRefuse _ _ _ _).units
    · rename_i a ha
      obtain ⟨ha, hfree⟩ := lowestFreeAddr_some ha
      have other : ∀ x, x ≠ e → cores (s.modDir e fun d => d.taken i k s.now) x = cores s x := fun x hx => by
        rw [cores_taken, Function.update_of_ne hx]
      have self : (cores (s.modDir e fun d => d.taken i k s.now) e).identity = i := by
        rw [cores_taken, Function.update_self]
        rfl
      have granted : UnitsKept (s.modDir e fun d => d.taken i k s.now) (grantAddress (s.modDir e fun d => d.taken i k s.now) e l a) := by
        refine units_grantAddress ha (fun x hx hxf => ?_) fun x hx hxp hxl => ?_
        · rw [self]
          rw [other x hx] at hxf ⊢
          exact holderOf_none hi x hxf
        · rw [other x hx] at hxp hxl ⊢
          exact hfree x hxp hxl
      have pinned := units_pinCheck (s := grantAddress (s.modDir e fun d => d.taken i k s.now) e l a) (e := e)
        (by rw [grantAddress_pending]; decide)
      exact (((units_taken (chooseEntry_absent he) hi k s.now).trans granted).trans pinned).trans (.of_cores (cores_setDirMark _ _))

/-! ## HELLO of a known identity -/

theorem present_of_state {d d' : DirEntry} (h : d.state = d'.state) : d.present = d'.present := by
  unfold DirEntry.present
  rw [h]

theorem units_helloValid (s : State) (l : LineId) (i : Identity) (k : UnitKind) : UnitsKept s (helloValid s l i k) := by
  unfold helloValid
  split
  · exact units_helloNew ‹_› k
  · rename_i e he
    have held : (helloKind s e k).dir[e].state ≠ .free := fun hf =>
      holderOf_not_free he ((helloKind_core s e k e).1.symm.trans hf)
    split
    · split
      · exact (calm_offerRefuse _ _ _ _).units
      · rename_i a ha
        obtain ⟨ha, hfree⟩ := lowestFreeAddr_some ha
        refine (units_helloKind s e k).trans (units_helloMove held ha fun x hxp hxl => ?_)
        obtain ⟨hst, hln, had⟩ := helloKind_core s e k x
        exact fun hx => hfree x ((present_of_state hst).symm.trans hxp) (hln.symm.trans hxl) (had.symm.trans hx)
    · exact .ite ((units_helloKind s e k).trans (calm_offerGrant _ _).units)
        ((units_helloKind s e k).trans (units_helloRestart held))

/-! ## Supervision -/

theorem units_modDir_same (s : State) (e : EntryId) {f : DirEntry → DirEntry} (h : (f s.dir[e]).core = s.dir[e].core) :
    UnitsKept s (s.modDir e f) := .of_cores (cores_modDir_same s e h)

theorem units_modDir_within (s : State) (e : EntryId) {f : DirEntry → DirEntry} (h : Within s.dir[e].core (f s.dir[e]).core) :
    UnitsKept s (s.modDir e f) := .of_within (cores_modDir s e f) fun _ => h

theorem units_setDirMark (s : State) (e : EntryId) : UnitsKept s (setDirMark s e) := .of_cores (cores_setDirMark s e)

theorem units_armSupervision (s : State) (e : EntryId) : UnitsKept s (armSupervision s e) :=
  .ite (.refl s) (units_modDir_same s e rfl)

/-- A present entry becomes ACTIVE and established. -/
theorem within_heard {d : DirEntry} (hp : d.present = true) {n : Nat} (hn : d.grantAttempts ≤ Config.maxGrants → n ≤ Config.maxGrants) :
    Within d { d with state := .active, established := true, grantAttempts := n } :=
  ⟨fun ⟨h1, _, _, h4, h5, _⟩ => ⟨fun _ => h1 hp, fun h => Bool.noConfusion h, fun h => EntryState.noConfusion h, h4, hn h5, fun _ => rfl⟩,
    fun _ => ⟨not_free_of_present hp, rfl⟩, fun _ => ⟨hp, rfl, rfl⟩, fun _ => ⟨rfl, rfl⟩⟩

theorem units_heardEntry (s : State) (e : EntryId) : UnitsKept s (heardEntry s e) := by
  have stamped : UnitsKept s (s.modDir e fun d => { d with lastHeard := s.now }) := units_modDir_same s e rfl
  have self : (s.modDir e fun d => { d with lastHeard := s.now }).dir[e] = { s.dir[e] with lastHeard := s.now } := by
    rw [State.modDir_get, if_pos rfl]
  have present : ∀ {st : EntryState}, s.dir[e].state = st → st = .pending ∨ st = .silent → s.dir[e].core.present = true := by
    rintro _ hst (rfl | rfl)
    all_goals
      unfold DirEntry.present DirEntry.core
      rw [hst]
  unfold heardEntry
  dsimp only
  refine UnitsKept.trans ?_ (units_armSupervision _ _)
  split
  · rename_i hst
    refine (stamped.trans (units_modDir_within _ e ?_)).trans (units_setDirMark _ _)
    rw [self]
    exact within_heard (d := s.dir[e].core) (present hst (.inl rfl)) fun _ => Nat.zero_le _
  · rename_i hst
    refine (stamped.trans (units_modDir_within _ e ?_)).trans (units_setDirMark _ _)
    rw [self]
    exact within_heard (d := s.dir[e].core) (present hst (.inr rfl)) id
  · exact stamped

theorem units_heard (s : State) (l : LineId) (a : Addr) : UnitsKept s (heard s l a) := by
  unfold heard
  split
  · exact .refl s
  · exact units_heardEntry _ _

theorem units_statusCondition (s : State) (l : LineId) (e : EntryId) (k : UnitKind) (c : Condition) :
    UnitsKept s (statusCondition s l e k c) :=
  .ite (calm_countLine _ _ _).units (.ite (.refl s) ((units_modDir_same s e rfl).trans (units_setDirMark _ _)))

theorem units_strayFrame (s : State) (l : LineId) (a : Addr) : UnitsKept s (strayFrame s l a) :=
  ((calm_countLine s l LineCounters.addStray).trans (calm_offerStrayWho _ _ _)).units

/-- R73, R80, R82: an entry becomes LOST, without its address. -/
theorem within_lost (d : DirEntry) (hf : d.state ≠ .free) : Within d { d with addr := none, state := .lost } :=
  ⟨fun ⟨_, _, _, h4, h5, _⟩ => ⟨fun h => Bool.noConfusion h, fun _ => rfl, fun h => EntryState.noConfusion h, h4, h5,
    fun h => EntryState.noConfusion h⟩, fun _ => ⟨hf, rfl⟩, fun h => Bool.noConfusion h, fun _ => ⟨rfl, rfl⟩⟩

/-- R80, R88: an entry becomes FREE, without address and binding. -/
theorem within_freed (d : DirEntry) (b : Bool) :
    Within d { d with addr := none, pos := none, pinned := false, state := .free, established := b } :=
  ⟨fun ⟨_, _, _, _, h5, _⟩ => ⟨fun h => Bool.noConfusion h, fun _ => rfl, fun _ => rfl, fun h => Bool.noConfusion h, h5,
    fun h => EntryState.noConfusion h⟩, fun h => absurd rfl h, fun h => Bool.noConfusion h, fun h => Bool.noConfusion h⟩

theorem cores_grantFails (s : State) (e : EntryId) :
    cores (grantFails s e) = Function.update (cores s) e
      (if s.dir[e].established then { cores s e with addr := none, state := .lost }
       else { cores s e with addr := none, pos := none, pinned := false, state := .free }) := by
  have released := cores_releaseAddress s e
  have atE : cores (releaseAddress s e) e = { cores s e with addr := none } := by rw [released, Function.update_self]
  have est : (releaseAddress s e).dir[e].established = s.dir[e].established := by
    have h := congrArg DirEntry.established atE
    exact h
  unfold grantFails
  dsimp only
  rw [cores_setDirMark, est]
  split
  · rw [cores_modDir, released, Function.update_idem]
    exact congrArg (fun d : DirEntry => Function.update (cores s) e { d with state := .lost }) atE
  · rw [cores_modDir, cores_unbindEntry, released, Function.update_idem, Function.update_idem]
    have unbound : ((unbindEntry (releaseAddress s e) e).dir[e]).core = { cores s e with addr := none, pos := none, pinned := false } := by
      have h := congrFun (cores_unbindEntry (releaseAddress s e) e) e
      rw [Function.update_self, atE] at h
      exact h
    exact congrArg (fun d : DirEntry => Function.update (cores s) e { d with state := .free }) unbound

theorem units_grantFails {s : State} {e : EntryId} (he : s.dir[e].state ≠ .free) : UnitsKept s (grantFails s e) := by
  refine .of_within (cores_grantFails s e) fun _ => ?_
  split
  · exact within_lost (cores s e) he
  · exact within_freed (cores s e) (cores s e).established

theorem within_attempt {d : DirEntry} (h : d.grantAttempts < Config.maxGrants) : Within d { d with grantAttempts := d.grantAttempts + 1 } :=
  ⟨fun ⟨h1, h2, h3, h4, _, h6⟩ => ⟨h1, h2, h3, h4, h, h6⟩, fun h => ⟨h, rfl⟩, fun h => ⟨h, rfl, rfl⟩, fun _ => ⟨rfl, rfl⟩⟩

theorem units_grantExpires {s : State} {e : EntryId} (he : s.dir[e].state = .pending) : UnitsKept s (grantExpires s e) := by
  have stopped : UnitsKept s (s.modDir e fun d => { d with grantTimer := none }) := units_modDir_same s e rfl
  have self : (s.modDir e fun d => { d with grantTimer := none }).dir[e] = { s.dir[e] with grantTimer := none } := by
    rw [State.modDir_get, if_pos rfl]
  unfold grantExpires
  dsimp only
  split
  · rename_i hlt
    rw [self] at hlt
    have again : UnitsKept (s.modDir e fun d => { d with grantTimer := none })
        ((s.modDir e fun d => { d with grantTimer := none }).modDir e fun d => { d with grantAttempts := d.grantAttempts + 1 }) := by
      refine units_modDir_within _ e ?_
      rw [self]
      exact within_attempt (d := s.dir[e].core) hlt
    exact ((stopped.trans again).trans (calm_offerGrant _ _).units).trans (units_modDir_same _ e rfl)
  · refine stopped.trans (units_grantFails ?_)
    rw [self]
    exact fun hf => EntryState.noConfusion (he.symm.trans hf)

theorem units_entrySilent {s : State} {e : EntryId} (he : s.dir[e].state = .active) : UnitsKept s (entrySilent s e) := by
  have h : UnitsKept s (s.modDir e fun d => { d with state := .silent, silenceTimer := none }) := by
    refine units_modDir_within s e ?_
    have hp : s.dir[e].core.present = true := by
      unfold DirEntry.present DirEntry.core
      rw [he]
    exact ⟨fun ⟨h1, _, _, h4, h5, _⟩ => ⟨fun _ => h1 hp, fun h => Bool.noConfusion h, fun h => EntryState.noConfusion h, h4, h5,
      fun h => EntryState.noConfusion h⟩, fun _ => ⟨not_free_of_present hp, rfl⟩, fun _ => ⟨hp, rfl, rfl⟩, fun _ => ⟨rfl, rfl⟩⟩
  exact h.trans (units_setDirMark _ _)

theorem units_entryLost {s : State} {e : EntryId} (he : s.dir[e].state ≠ .free) : UnitsKept s (entryLost s e) := by
  have h : cores (entryLost s e) = Function.update (cores s) e { cores s e with addr := none, state := .lost } := by
    unfold entryLost
    dsimp only
    rw [cores_setDirMark, cores_of_calm (calm_endUnitSessions _ _ _ _), cores_releaseAddress, cores_modDir, Function.update_idem,
      Function.update_self]
    rfl
  exact .of_within h fun _ => within_lost (cores s e) he

/-! ## Lines that stop and start -/

theorem within_suspended (d : DirEntry) (l : LineId) (now : Ms) (b : Bool) :
    Within d.core ({ d.suspended l now with outBit := b } : DirEntry).core := by
  unfold DirEntry.suspended
  split
  · rename_i h
    obtain ⟨hp, -⟩ := h
    have hp : d.core.present = true := hp
    exact ⟨fun ⟨h1, _, _, h4, h5, _⟩ => ⟨fun _ => h1 hp, fun h => Bool.noConfusion h, fun h => EntryState.noConfusion h, h4, h5,
      fun h => EntryState.noConfusion h⟩, fun _ => ⟨not_free_of_present hp, rfl⟩, fun _ => ⟨hp, rfl, rfl⟩, fun _ => ⟨rfl, rfl⟩⟩
  · exact .refl _

theorem units_enterStopped (s : State) (l : LineId) : UnitsKept s (enterStopped s l) := fun hs => by
  have within : ∀ e : EntryId, Within (cores s e) (cores (enterStopped s l) e) := fun e => by
    obtain ⟨b, hb⟩ := (stoppedAt s l).dir e
    unfold cores
    rw [hb]
    exact within_suspended s.dir[e] l s.time.mono b
  rw [directorySound_iff] at hs ⊢
  exact coresSound_within hs within

theorem units_armLostOnLine (s : State) (l : LineId) : UnitsKept s (armLostOnLine s l) :=
  UnitsKept.foldl (fun t e => .ite (units_modDir_same t e rfl) (.refl t)) _ _

theorem units_startLine (s : State) (l : LineId) : UnitsKept s (startLine s l) := by
  unfold startLine
  exact ((calm_modLine s l _).trans (calm_offerGeneralWho _ _)).units.trans (units_armLostOnLine _ _)

theorem units_startLines (s : State) : UnitsKept s (startLines s) :=
  UnitsKept.foldl (fun t l => .ite (units_startLine t l) (.refl t)) _ _

end Sys2Proof.Machine

/-! # Frames, events, requests and steps keep the directory sound; O58 -/

namespace Sys2Proof.Machine

/-! ## Dispatch and the Line Engine -/

theorem units_of_dir {s t : State} (h : t.dir = s.dir) : UnitsKept s t := .of_cores (cores_of_dir h)

theorem units_countHit (s : State) (m : Option EntryId) : UnitsKept s (countHit s m) := by
  rw [countHit_frame]
  exact units_of_dir rfl

theorem units_handOver (s : State) (r : RecId) (e : EntryId) (l : LineId) (k : FrameKind) : UnitsKept s (handOver s r e l k) :=
  ((units_countHit _ _).trans (units_countHit _ _)).trans (.ite (calm_dropRef _ _).units (calm_classify _ _ _ _ _).units)

theorem units_countLine (s : State) (l : LineId) (f : LineCounters → LineCounters) : UnitsKept s (countLine s l f) :=
  (calm_countLine s l f).units

theorem units_ackFrame (s : State) (l : LineId) (a : Addr) (b : Bool) (body : List Byte) : UnitsKept s (ackFrame s l a b body) := by
  unfold ackFrame
  refine UnitsKept.trans ?_ (units_heard _ _ _)
  split
  · exact units_countLine _ _ _
  · refine .ite (units_countLine _ _ _) ?_
    split
    · exact .ite (calm_endEntry _ _ _ _).units (.ite (calm_endEntry _ _ _ _).units (units_countLine _ _ _))
    · exact units_countLine _ _ _

theorem units_helloFrame (s : State) (l : LineId) (a : Addr) (body : List Byte) : UnitsKept s (helloFrame s l a body) := by
  unfold helloFrame
  refine .ite (units_countLine _ _ _) ?_
  split
  · exact units_countLine _ _ _
  · exact .ite (units_helloValid _ _ _ _) (units_countLine _ _ _)

theorem units_statusFrame (s : State) (l : LineId) (a : Addr) (body : List Byte) : UnitsKept s (statusFrame s l a body) := by
  unfold statusFrame
  split
  · exact units_countLine _ _ _
  · split
    · exact units_strayFrame _ _ _
    · dsimp only
      have h := fun k c e => (units_heardEntry s e).trans (units_statusCondition _ l e k c)
      split
      · exact (h _ _ _).trans (calm_cardStatusReport _ _ _).units
      · exact h _ _ _

theorem units_eventFrame (s : State) (l : LineId) (a : Addr) (b : Bool) (k : FrameKind) (e : EntryId) (r : Option RecId) :
    UnitsKept s (eventFrame s l a b k e r) := by
  unfold eventFrame
  dsimp only
  have hd : ∀ t : State, UnitsKept t (match r with
      | none => t
      | some r => dropRef t r) := fun t => by
    split
    · exact .refl t
    · exact (calm_dropRef _ _).units
  have h := units_heard s l a
  refine .ite ((h.trans (hd _)).trans (units_strayFrame _ _ _)) (.ite ((h.trans (hd _)).trans (calm_offerAck _ _ _).units) ?_)
  split
  · exact h.trans ((calm_offerAck _ _ _).trans (calm_countLine _ _ _)).units
  · have stored : ∀ f : Pool → Pool, UnitsKept (heard s l a) ((heard s l a).modPool f) := fun _ => units_of_dir rfl
    exact ((h.trans (stored _)).trans (units_modDir_same _ _ rfl)).trans
      ((calm_offerAck _ _ _).units.trans (units_handOver _ _ _ _ _))

theorem units_settleGood (s : State) (l : LineId) (f : RxFrame) : UnitsKept s (settleGood s l f) := by
  unfold settleGood
  refine .ite (units_countLine _ _ _) ?_
  split
  · exact units_countLine _ _ _
  · exact units_ackFrame _ _ _ _ _
  · refine .ite (.refl s) ?_
    split
    · exact units_helloFrame _ _ _ _
    · exact units_statusFrame _ _ _ _
    · exact units_strayFrame _ _ _
    · exact units_eventFrame _ _ _ _ _ _ _
    · exact units_eventFrame _ _ _ _ _ _ _
    · exact .refl s

theorem units_takeCheck (s : State) (l : LineId) (f : RxFrame) : UnitsKept s (takeCheck s l f) := by
  unfold takeCheck
  have h : UnitsKept s (if f.sum ≠ 0 then countLine s l LineCounters.addCheck else s) := .ite (units_countLine _ _ _) (.refl s)
  exact .ite (h.trans (calm_dropReception _ _).units) ((h.trans (calm_setRx _ _ _).units).trans (units_settleGood _ _ _))

theorem units_assemble (s : State) (l : LineId) (t : Ms) (b : Byte) (bad : Bool) : UnitsKept s (assemble s l t b bad) := by
  unfold assemble
  split
  · exact (calm_startFrame _ _ _ _ _ _).units
  · exact (calm_startFrame _ _ _ _ _ _).units
  · exact .refl s
  · dsimp only
    split
    · exact (calm_setRx _ _ _).units
    · exact (calm_takeLength _ _ _ _).units
    · exact (calm_takeBody _ _ _ _ _).units
    · exact units_takeCheck _ _ _

theorem units_receiveChar (s : State) (l : LineId) (t : Ms) (c : RawChar) : UnitsKept s (receiveChar s l t c) := by
  unfold receiveChar
  refine .ite (calm_falseStarts s l).units ?_
  have h0 : UnitsKept s (s.modLine l fun ln => { ln with idle := false }) := (calm_modLine _ _ _).units
  have h1 := fun (b : Bool) t u => UnitsKept.ite (c := b = true) (units_countLine t l u) (.refl t)
  refine ((h0.trans (h1 (charNoisy c) _ LineCounters.addNoisy)).trans (h1 (charParityError c) _ LineCounters.addParity)).trans ?_
  exact .ite ((units_countLine _ _ _).trans (calm_abandonFrame _ _).units) (units_assemble _ _ _ _ _)

/-! ## The end of an event -/

theorem units_settleLink (s : State) : UnitsKept s (settleLink s) := .of_cores (cores_of_sends (sends_settleLink s))

theorem units_settle (s : State) : UnitsKept s (settle s) := by
  have drained := UnitsKept.foldl (fun t l => (UnitsKept.ite (units_enterStopped t l) (.refl t) : UnitsKept t (drainLine t l)))
  have chosen := UnitsKept.foldl fun t l => (calm_lineChoose t l).units
  exact ((drained _ s).trans (chosen _ _)).trans (units_settleLink _)

theorem units_fin {fin : State → State} (h : fin = settle ∨ fin = settleLink) (s : State) : UnitsKept s (fin s) := by
  rcases h with rfl | rfl
  · exact units_settle s
  · exact units_settleLink s

/-! ## Requests -/

theorem units_drainState (s : State) (l : LineId) (h : Option Ms) : UnitsKept s (drainState s l h) := by
  unfold drainState
  split
  · exact ((calm_modLine _ _ _).trans (calm_setLineMark _ _)).units
  · exact ((calm_modLine _ _ _).trans (calm_setLineMark _ _)).units
  · exact .refl s

theorem units_forceState (s : State) (l : LineId) : UnitsKept s (forceState s l) := by
  unfold forceState
  split
  · exact .refl s
  · exact units_enterStopped _ _

/-- R86: the unit moves to the empty slot. -/
theorem units_bindUnit {s : State} {e : EntryId} {p : Pos} (he : s.dir[e].state ≠ .free) (hp : slotOf s s.dir[e].kind p = none) :
    UnitsKept s (bindUnit s e p) := by
  unfold bindUnit
  dsimp only
  refine UnitsKept.trans ?_ (units_setDirMark _ _)
  split
  · intro hs
    have hcores : cores (endUnitSessions (unbindEntry s e) s.dir[e].kind s.dir[e].pos .unbound) =
        Function.update (cores s) e { cores s e with pos := none, pinned := false } := by
      rw [cores_of_calm (calm_endUnitSessions _ _ _ _), cores_unbindEntry]
    rw [directorySound_iff, cores_bindEntry, hcores]
    refine coresSound_bind (coresSound_update_within (c := cores s) hs (within_unbound (cores s e))) ?_ false fun x hx hk => ?_
    · rw [(unbound_core _ _ _).1]
      exact he
    · rw [(unbound_core _ _ _).2, (unbound_core _ _ _).2] at hk
      rw [Function.update_of_ne hx]
      exact slotOf_none_pos hs hp x hk
  · exact units_bindEntry he false fun hs x _ => slotOf_none_pos hs hp x

/-- R88, step 1: the address of the entry is released where it has one. -/
theorem cores_addressGone (s : State) (e : EntryId) :
    cores (if s.dir[e].addr.isSome then releaseAddress s e else s) = Function.update (cores s) e { cores s e with addr := none } := by
  split
  · exact cores_releaseAddress s e
  · rename_i h
    have hn : (cores s e).addr = none := Option.not_isSome_iff_eq_none.mp h
    have : ({ cores s e with addr := none } : DirEntry) = cores s e := by rw [← hn]
    rw [this, Function.update_eq_self]

/-- R88, step 2: so is the binding. -/
theorem cores_bindingGone (s : State) (e : EntryId) :
    ∃ b : Bool, cores (if s.dir[e].pos.isSome then unbindEntry (endUnitSessions s s.dir[e].kind s.dir[e].pos .unbound) e else s) =
      Function.update (cores s) e { cores s e with pos := none, pinned := b } := by
  split
  · refine ⟨false, ?_⟩
    rw [cores_unbindEntry, cores_of_calm (calm_endUnitSessions _ _ _ _)]
  · rename_i h
    have hn : (cores s e).pos = none := Option.not_isSome_iff_eq_none.mp h
    have : ({ cores s e with pos := none, pinned := (cores s e).pinned } : DirEntry) = cores s e := by rw [← hn]
    exact ⟨(cores s e).pinned, by rw [this, Function.update_eq_self]⟩

theorem cores_forget (s : State) (e : EntryId) :
    cores (unitForgetRule s e).1 = Function.update (cores s) e
      { cores s e with addr := none, pos := none, pinned := false, state := .free, established := false } := by
  have h1 := cores_addressGone s e
  unfold unitForgetRule
  dsimp only [done]
  generalize (if s.dir[e].addr.isSome then releaseAddress s e else s) = s1 at h1 ⊢
  obtain ⟨b, h2⟩ := cores_bindingGone s1 e
  generalize (if s1.dir[e].pos.isSome then unbindEntry (endUnitSessions s1 s1.dir[e].kind s1.dir[e].pos .unbound) e else s1) = s2
    at h2 ⊢
  have hcore : s2.dir[e].core = { cores s e with addr := none, pos := none, pinned := b } := by
    have h := congrFun h2 e
    rw [Function.update_self, h1, Function.update_self] at h
    exact h
  rw [cores_setDirMark, cores_modDir, h2, h1, Function.update_idem, Function.update_idem]
  exact congrArg (fun d : DirEntry => Function.update (cores s) e { d with state := .free, pinned := false, established := false }) hcore

theorem units_forget (s : State) (e : EntryId) : UnitsKept s (unitForgetRule s e).1 :=
  .of_within (cores_forget s e) fun _ => within_freed (cores s e) false

theorem units_sendTo (s : State) (tag : Byte) (u : Urgency) (c : Cls) (body : List Byte) {ts : List EntryId} (hts : ts.length ≤ 16) :
    UnitsKept s (sendTo s tag u c body ts).1 := by
  unfold sendTo
  have h := calm_reserve s .sendDone tag
  split <;> rename_i h1 <;> rw [h1] at h <;> dsimp only at h ⊢
  · exact h.units
  · rename_i s1 sd
    have k := h.trans (calm_admit s1 (sendAdmission s1 tag u c body.length) (by simp [sendAdmission]))
    split <;> rename_i h2 <;> rw [h2] at k <;> dsimp only at k ⊢
    · exact (k.trans (calm_dropRef _ _)).units
    · exact (k.trans ((calm_setBody _ _ _).trans (calm_fanOut _ _ _ _ _ hts))).units

theorem units_commitRule (s : State) (sl : Slot) : UnitsKept s (profileCommitRule s sl).1 := by
  unfold profileCommitRule
  split
  · exact .refl s
  · have h := (calm_reserve s .commitDone sl.tag).units
    split <;> rename_i heq <;> rw [heq] at h <;> dsimp only at h ⊢
    · exact h
    · exact h.trans (units_of_dir rfl)

theorem Handled.units {s u : State} {sl : Slot} (h : Handled s sl u) : UnitsKept s u := by
  cases h with
  | same => exact .refl s
  | restart => exact units_of_dir rfl
  | timeSet n => exact units_of_dir rfl
  | lineStart l => exact (units_startLine _ _).trans (calm_setLineMark _ _).units
  | drain l h => exact units_drainState s l h
  | force l => exact units_forceState s l
  | clearLine l => exact units_countLine _ _ _
  | clearPool => exact units_of_dir rfl
  | bind e p he hp => exact units_bindUnit he hp
  | unbind e p => exact ((units_unbindEntry _ _).trans (calm_endUnitSessions _ _ _ _).units).trans (units_setDirMark _ _)
  | forget e => exact units_forget s e
  | screen i x => exact units_of_dir rfl
  | send tag u c body ts hts => exact units_sendTo s tag u c body hts
  | openRefused => exact (calm_reserve _ _ _).units
  | opened s1 p r f e hr =>
    have h := calm_reserve s .entryResult sl.tag
    rw [hr] at h
    exact (h.trans (calm_openSession _ _ _)).units
  | cancel p => exact (calm_abortSession _ _ _).units
  | read p m n => exact units_of_dir (ofCard_readFor _ _ _ _ _).dir
  | resend p => exact units_of_dir (offered_cardResendRule _ _ _).dir
  | eject p => exact units_of_dir (ofCard_commandFor _ _ _ _).dir
  | retain p => exact units_of_dir (ofCard_commandFor _ _ _ _).dir
  | profileSet => exact units_of_dir rfl
  | commit => exact units_commitRule s sl
  | load => exact units_of_dir rfl

/-! ## Events -/

theorem units_becomeIdle (s : State) (l : LineId) : UnitsKept s (becomeIdle s l) := by
  unfold becomeIdle
  split
  · exact .refl s
  · exact units_enterStopped _ _
  · exact ((calm_modLine _ _ _).trans (calm_setLineMark _ _)).units
  · exact (calm_modLine _ _ _).units

theorem units_attendanceExpires (s : State) : UnitsKept s (attendanceExpires s) := by
  obtain ⟨x, h⟩ := calm_attendanceExpires s
  exact UnitsKept.trans (t := { s with time := x }) (units_of_dir rfl) h.units

theorem BlockEvent.units {s u : State} (h : BlockEvent s u) : UnitsKept s u := by
  cases h with
  | edge l => exact (calm_modLine _ _ _).units
  | char l edge c => exact units_receiveChar s l edge c
  | falseStart l => exact (calm_falseStarts s l).units
  | abandonEnd l => exact (calm_setRx _ _ _).units
  | gap l => exact ((calm_countLine _ _ _).trans (calm_dropReception _ _)).units
  | idle l => exact units_becomeIdle s l
  | stuck l => exact (calm_becomeStuck s l).units
  | arbitration l x => exact (calm_arbitrationLost s l x).units
  | bitError l => exact (calm_bitErrorAt s l).units
  | sent l => exact (calm_transmissionDone s l).units
  | ackTimeout l q => exact (calm_ackExpires s l q).units
  | limit l q => exact (calm_endEntry _ _ _ _).units
  | grant e he => exact units_grantExpires he
  | silent e he => exact units_entrySilent he
  | lost e he => exact units_entryLost (by rw [he]; decide)
  | session p c => exact (calm_sessionTimesOut s p c).units
  | retry p => exact (calm_displayRetry s p).units
  | read p => exact ((calm_readEnd _ _ _ _ _).trans (calm_cardTo _ _ _ _)).units
  | take p => exact (calm_ownCommand _ _ _ _ _).units
  | move p => exact (calm_cardTo _ _ _ _).units
  | attendance => exact units_attendanceExpires s

/-! ## Reset and start-up -/

theorem entryFieldsSound_reset : entryFieldsSound resetEntry := by
  refine ⟨?_, ?_, ?_, ?_, ?_, ?_⟩ <;> decide

theorem entriesApart_reset : entriesApart resetEntry resetEntry :=
  ⟨fun h => absurd rfl h, fun h => Bool.noConfusion h, fun h => Bool.noConfusion h⟩

theorem directorySound_reset {s : State} (h : s.dir = Vector.replicate 16 resetEntry) : directorySound s := by
  have entry : ∀ e : EntryId, s.dir[e] = resetEntry := fun e => by
    rw [h]
    exact Vector.getElem_replicate ..
  exact ⟨fun e => (entry e).symm ▸ entryFieldsSound_reset, fun e f _ => by rw [entry e, entry f]; exact entriesApart_reset⟩

theorem units_startUp (s : State) : UnitsKept s (startUp s) := by
  have opened : ∀ u : State, UnitsKept u (openLink u) := fun _ => units_of_dir rfl
  have h : UnitsKept s (reserve (startProfile s) .start 0).1 :=
    UnitsKept.trans (t := startProfile s) (units_of_dir rfl) (calm_reserve _ _ _).units
  unfold startUp
  split <;> rename_i hr <;> rw [hr] at h <;> dsimp only at h
  · exact h.trans ((units_startLines _).trans (opened _))
  · exact h.trans (((units_startLines _).trans (opened _)).trans (calm_completePromise _ _ _ _ _ _).units)

theorem units_beginStartUp (s : State) : UnitsKept s (beginStartUp s) := (units_startUp s).trans (units_settleLink _)

/-! ## Every command, every step -/

theorem units_commitEnds (s : State) (c : Commit) (b : Bool) : UnitsKept s (commitEnds s c b) :=
  (calm_completePromise s c.promise .commitDone 0 none (commitDoneBody s c b)).units.trans (units_of_dir rfl)

theorem units_writeVerified (s : State) (c : Commit) : UnitsKept s (writeVerified s c) := by
  have stored : ∀ st : Store, UnitsKept s { s with store := st } := fun _ => units_of_dir rfl
  unfold writeVerified
  dsimp only
  split
  · exact stored _
  · exact (stored _).trans (units_commitEnds _ _ _)

theorem units_writeFailed (s : State) (c : Commit) : UnitsKept s (writeFailed s c) := by
  have stored : ∀ st : Store, UnitsKept s { s with store := st } := fun _ => units_of_dir rfl
  unfold writeFailed
  exact .ite (stored _) (units_commitEnds _ _ _)

theorem units_receiveChar10 (s : State) (c : LinkChar) : UnitsKept s (receiveChar10 s c) := by
  have scanned : ∀ (bs : List Byte) (k : Nat) (t : State), UnitsKept t (scan bs k t) := fun bs k t => by
    rw [scan_frame]
    exact units_of_dir rfl
  exact UnitsKept.trans (t := (markSeen s).modLink fun k => { k with asm := [] }) (units_of_dir rfl) (scanned _ _ _)

theorem units_abandonRecord (s : State) : UnitsKept s (abandonRecord s) := by
  unfold abandonRecord
  split <;> exact units_of_dir rfl

theorem units_restartNow (u s : State) : UnitsKept u (restartNow s) := fun _ =>
  (units_startUp _).trans (units_settleLink _) (directorySound_reset (s := doReset s .restart) rfl)

theorem units_recordSent (s : State) (x : LinkTx) : UnitsKept s (recordSent s x) := by
  have idle : UnitsKept s (s.modLink fun k => { k with tx := none }) := units_of_dir rfl
  unfold Machine.recordSent
  dsimp only
  split
  · exact idle.trans (units_settleLink _)
  · exact (idle.trans (calm_dropRef _ _).units).trans (units_settleLink _)
  · split
    · exact units_restartNow _ _
    · have freed : ∀ (t : State) (i : SlotId), UnitsKept t (freeReplySlot t i) := fun _ _ => units_of_dir rfl
      exact (idle.trans (freed _ _)).trans (units_settleLink _)

theorem Command.units {s t : State} (h : Command s t) : UnitsKept s t := by
  cases h with
  | same => exact .refl s
  | event u hrun h => exact h.units.trans (units_settle u)
  | request i u a fin hfin hi h =>
    have finished : UnitsKept u (finishReply u i a) := units_of_dir rfl
    exact (h.units.trans finished).trans (units_fin hfin _)
  | guard p => exact units_of_dir rfl
  | byte c fin hfin =>
    rcases hfin with rfl | rfl
    · exact units_receiveChar10 s c
    · exact (units_receiveChar10 s c).trans (units_settleLink _)
  | mark => exact units_of_dir rfl
  | framing =>
    exact UnitsKept.trans (t := abandonRecord s) (units_abandonRecord s) (units_of_dir rfl)
  | gap => exact units_abandonRecord s
  | verified c => exact (units_writeVerified s c).trans (units_settleLink _)
  | failed c => exact (units_writeFailed s c).trans (units_settleLink _)
  | recordSent x => exact units_recordSent s x

theorem exec_units {c : Instr} {s t : State} (h : exec c s = .next t) : UnitsKept s t := by
  cases hc : ofPins c with
  | false =>
    obtain ⟨u, hu, k⟩ := exec_command s hc
    cases h.symm.trans hu
    exact k.units
  | true =>
    cases c with
    | powerOn held x =>
      cases held with
      | true => cases h; exact fun _ => directorySound_reset rfl
      | false =>
        rw [exec_powerOn_false] at h
        rw [← Host.Outcome.next.inj h]
        exact fun _ => units_beginStartUp _
          (directorySound_reset (s := { doReset s .powerOn with resetPin := false, straps := x }) rfl)
    | resetAsserted =>
      cases h
      split
      · exact .refl s
      · exact fun _ => directorySound_reset rfl
    | resetReleased x =>
      have released : UnitsKept s { s with resetPin := false, straps := x } := units_of_dir rfl
      have started := released.trans (units_beginStartUp _)
      cases h
      split
      · exact started
      · exact .refl s
    | pauseAsserted => cases h; exact units_of_dir rfl
    | pauseReleased =>
      have released : UnitsKept s { s with pausePin := false } := units_of_dir rfl
      cases h
      split
      · exact released.trans (units_settleLink _)
      · exact released
    | _ => cases hc

theorem units_boundary (s : State) : UnitsKept s (boundary s) := by
  refine .of_cores ?_
  funext e
  have : (boundary s).dir[e] = s.dir[e].tick := by simp [boundary, tickState]
  unfold cores
  rw [this]
  rfl

theorem step_units {s t : State} (h : step s = .next t) : UnitsKept s t := by
  unfold step at h
  split at h
  · rename_i c cs _
    exact UnitsKept.trans (t := { s with pending := cs }) (units_of_dir rfl) (exec_units h)
  · cases h
    split
    · exact units_boundary s
    · exact .refl s

/-- Settles O58: over every step the directory, by what is done to the entries' cores, and the entry and card contexts, by the
relation `Upholds`, stay sound. -/
theorem unitsAndContextsStaySound : Obligations.UnitsAndContextsStaySound := by
  unfold Obligations.UnitsAndContextsStaySound
  intro s t h
  exact ⟨step_units h, (step_upholds h).entry, (step_upholds h).card⟩

end Sys2Proof.Machine

/-! # The reset state (R195): O60, O4 -/

namespace Sys2Proof.Machine

theorem storeSound_blank : storeSound blankStore := by
  refine ⟨fun k => ?_, fun h => StoreState.noConfusion h, trivial⟩
  have : blankStore.blocks[k] = defaultProfile := Vector.getElem_replicate ..
  rw [this]
  exact profileSound_default

theorem inReset_reset : inReset State.reset :=
  ⟨rfl, rfl, rfl, rfl, rfl, rfl, rfl, rfl, rfl, rfl, rfl, rfl, rfl⟩

/-- Settles O60: each block's reset state is sound. -/
theorem resetIsSound : Obligations.ResetIsSound := by
  unfold Obligations.ResetIsSound
  have hlines : ∀ l : LineId, State.reset.lines[l] = resetLine := fun _ => Vector.getElem_replicate ..
  have hentry : ∀ p : Pos, State.reset.entry[p] = resetEntryCtx := fun _ => Vector.getElem_replicate ..
  have hcard : ∀ p : Pos, State.reset.card[p] = resetCardCtx := fun _ => Vector.getElem_replicate ..
  refine ⟨memorySound_resetPool (p := resetPool []) rfl, chunksSound_resetPool [], poolCountsSound_resetPool [],
    directorySound_reset rfl, fun p => ?_, fun p => ?_, fun l => ?_, linkSound_reset, ⟨rfl, fun _ => inReset_reset⟩,
    profileSound_default, storeSound_blank⟩
  · rw [hentry]; exact entryCtxSound_reset
  · rw [hcard]; exact cardSound_reset
  · rw [hlines]; exact lineSound_reset

/-! ## What the reset rules give -/

theorem recsFree_resetPool (mem : List Host.Cell) : (resetPool mem).recsFree = 64 := by
  unfold Pool.recsFree resetPool
  simp [freeRec]

theorem chunksOf_resetPool (mem : List Host.Cell) (test : Rec → Bool) : (resetPool mem).chunksOf test = 0 := by
  unfold Pool.chunksOf resetPool
  simp [freeRec]

theorem chunksFree_resetPool (mem : List Host.Cell) : (resetPool mem).chunksFree = 256 := by
  rw [Pool.chunksFree, resetPool, List.length_range]

theorem hold_reset {s : State} (h : s.link = resetLink) : s.hold = true := by
  unfold State.hold
  rw [h]
  rfl

/-- R22, R49, R69, R90, R111, R135, R154, R166, R183: the values of the reset state. -/
theorem values_of_inReset {s : State} (h : inReset s) :
    s.pool.chunksFree = 256 ∧ s.pool.recsFree = 64 ∧ s.pool.free = List.range 256 ∧ s.pool.lowF = 256 ∧ s.pool.lowG = 64 ∧
    s.pool.refLimit = 0 ∧ (∀ i : Fin 9, s.pool.refusals[i] = 0) ∧
    (∀ r : RecId, s.pool.recs[r].state = .free ∧ s.pool.recs[r].refs = 0 ∧ s.pool.recs[r].promise = none) ∧
    (∀ l : LineId, s.lines[l] = resetLine) ∧ (∀ e : EntryId, s.dir[e] = resetEntry ∧ s.pool.unitHeld e = 0) ∧
    (∀ p : Pos, s.entry[p] = resetEntryCtx ∧ s.card[p] = resetCardCtx) ∧ s.time = resetTime ∧ s.pool.wsHeld = 0 ∧
    (∀ i : EntryId, s.hits[i] = 0) ∧ s.link = resetLink ∧ s.hold = true := by
  obtain ⟨htime, hpool, hlines, hdir, -, -, -, -, hhits, hentry, hcard, hlink, -⟩ := h
  rw [hpool, hlines, hdir, hhits, hentry, hcard, htime, hold_reset hlink]
  refine ⟨chunksFree_resetPool _, recsFree_resetPool _, by rw [resetPool], rfl, rfl, rfl, fun i => Vector.getElem_replicate .., fun r => ?_,
    fun l => Vector.getElem_replicate .., fun e => ⟨Vector.getElem_replicate .., chunksOf_resetPool _ _⟩,
    fun p => ⟨Vector.getElem_replicate .., Vector.getElem_replicate ..⟩, rfl, chunksOf_resetPool _ _,
    fun i => Vector.getElem_replicate .., hlink, rfl⟩
  rw [resetPool_rec]
  exact ⟨rfl, rfl, rfl⟩

/-- Settles O4: the two resets, and the values of each block's reset state. -/
theorem resetLeavesEveryBlockReset : Obligations.ResetLeavesEveryBlockReset := by
  unfold Obligations.ResetLeavesEveryBlockReset
  refine ⟨fun s hs => ⟨{ doReset s .resetPin with resetPin := true }, ?_, inReset_doReset s .resetPin, rfl, rfl⟩,
    fun s x => ⟨{ doReset s .powerOn with resetPin := true, straps := x }, rfl, inReset_doReset s .powerOn, rfl, rfl⟩,
    fun s hs => ?_, fun s h => ?_⟩
  · rw [exec, execResetAsserted, hs]
    rfl
  · rw [exec, execResetAsserted, hs]
    rfl
  · obtain ⟨hf, hr, hfree, hlowF, hlowG, hlimit, hrefusals, hrecs, hlines, hdir, hctx, htime, hws, hhits, hlink, hhold⟩ :=
      values_of_inReset h
    refine ⟨hf, hr, hfree, hlowF, hlowG, hlimit, hrefusals, hrecs, fun l => ?_, fun e => ?_, fun p => ?_, fun p => ?_, ?_⟩
    · rw [hlines l]
      exact ⟨rfl, rfl, rfl, rfl, rfl, rfl, rfl, rfl, rfl, by decide, fun a => Vector.getElem_replicate ..⟩
    · rw [(hdir e).1, (hdir e).2]
      exact ⟨rfl, rfl, rfl, rfl, rfl, rfl, rfl, rfl, rfl, rfl, rfl, rfl, rfl, rfl, rfl, rfl, rfl, rfl, rfl⟩
    · rw [(hctx p).1]
      exact ⟨rfl, rfl, rfl, rfl, rfl, rfl, rfl⟩
    · rw [(hctx p).2]
      exact ⟨rfl, rfl, rfl, rfl, rfl, rfl, rfl, rfl, rfl, rfl, fun i => Vector.getElem_replicate ..⟩
    · rw [htime, hlink]
      exact ⟨rfl, rfl, rfl, rfl, rfl, rfl, hws, hhits, rfl, rfl, rfl, rfl, rfl, rfl, rfl, fun i => by
        rw [show resetLink.slots[i] = freeSlot from Vector.getElem_replicate ..]
        rfl, hhold⟩

end Sys2Proof.Machine

/-! # A millisecond boundary (R155, R159): O2 -/

namespace Sys2Proof.Machine

/-- R159: a timer comes due as the boundary passes. -/
theorem tickTimer_due (t : Timer) : tickTimer t = some 0 ↔ comesDue t := by
  unfold tickTimer comesDue
  cases t with
  | none => simp
  | some n => simp only [Option.map_some, Option.some.injEq]; omega

theorem mem_dueCommand {x c : Instr} {t : Timer} : x ∈ dueCommand t c ↔ t = some 0 ∧ x = c := by
  unfold dueCommand timerDue
  by_cases h : t = some 0 <;> simp [h]

/-- R159, log 3: the coincident expiries keep their number and their kind. -/
theorem arrange_perm : ∀ (fuel n : Nat) (cs : List Instr), (arrange fuel n cs).Perm cs := by
  intro fuel
  induction fuel with
  | zero => exact fun _ _ => .refl _
  | succ fuel ih =>
    intro n cs
    match cs with
    | [] => exact .refl _
    | [c] => exact .refl _
    | c :: d :: cs =>
      have hk : Config.freeOrder n % (cs.length + 2) < (c :: d :: cs).length := Nat.mod_lt _ (Nat.succ_pos _)
      have hget := List.getElem_cons_eraseIdx_perm hk
      rw [arrange, List.getD_eq_getElem _ _ hk]
      exact ((ih _ _).cons _).trans hget

theorem tick_line (s : State) (l : LineId) : (tickState s).lines[l] = s.lines[l].tick := by simp [tickState]
theorem tick_dir (s : State) (e : EntryId) : (tickState s).dir[e] = s.dir[e].tick := by simp [tickState]
theorem tick_entry (s : State) (p : Pos) : (tickState s).entry[p] = s.entry[p].tick := by simp [tickState]
theorem tick_card (s : State) (p : Pos) : (tickState s).card[p] = s.card[p].tick := by simp [tickState]

/-! ## The expiries of one boundary, each timer's own -/

theorem mem_dueExpiries {s : State} {x : Instr} :
    x ∈ dueExpiries s ↔ (∃ l, x ∈ dueOfLine s l) ∨ (∃ e, x ∈ dueOfEntry s e) ∨ (∃ p, x ∈ dueOfPos s p) ∨
      s.time.timer = some 0 ∧ x = .attendanceTimerExpiry := by
  have lines : ∀ l : LineId, l ∈ allLines := by decide
  unfold dueExpiries
  simp only [List.mem_append, List.mem_flatMap, mem_dueCommand, lines, mem_allEntries, mem_allPos, true_and, or_assoc]

theorem mem_dueOfLine {s : State} {l : LineId} {x : Instr} :
    x ∈ dueOfLine (tickState s) l ↔ ∃ q ∈ s.lines[l].control ++ s.lines[l].pass,
      comesDue q.ackTimer ∧ x = .ackTimeout l q.dest ∨ comesDue q.limitTimer ∧ x = .queueLimitExpiry l q.record q.dest := by
  have queued : (tickState s).lines[l].queued = (s.lines[l].control ++ s.lines[l].pass).map QEntry.tick := by
    rw [tick_line, Line.queued, Line.tick, List.map_append]
  unfold dueOfLine
  rw [queued]
  simp only [List.mem_flatMap, List.mem_map, exists_exists_and_eq_and, List.mem_append (s := dueCommand _ _), mem_dueCommand,
    QEntry.tick, tickTimer_due]

theorem mem_dueOfEntry {s : State} {e : EntryId} {x : Instr} :
    x ∈ dueOfEntry (tickState s) e ↔ comesDue s.dir[e].grantTimer ∧ x = .grantTimerExpiry e ∨
      comesDue s.dir[e].silenceTimer ∧ x = .silenceTimerExpiry e ∨ comesDue s.dir[e].lostTimer ∧ x = .lostTimerExpiry e := by
  unfold dueOfEntry
  rw [tick_dir]
  simp only [List.mem_append, mem_dueCommand, DirEntry.tick, tickTimer_due, or_assoc]

theorem sessionTimer_tick (c : EntryCtx) {f : Session → Timer}
    (hf : ∀ ss : Session, f { ss with firstTimer := tickTimer ss.firstTimer, interTimer := tickTimer ss.interTimer } =
      tickTimer (f ss)) : sessionTimer c.tick f = some 0 ↔ ∃ ss : Session, c.sess = some ss ∧ comesDue (f ss) := by
  unfold sessionTimer EntryCtx.tick
  dsimp only
  cases c.sess with
  | none => simp
  | some ss => simp [hf, tickTimer_due]

theorem mem_dueOfPos {s : State} {p : Pos} {x : Instr} :
    x ∈ dueOfPos (tickState s) p ↔
      (∃ ss : Session, s.entry[p].sess = some ss ∧ comesDue ss.firstTimer) ∧ x = .firstKeyTimeout p ∨
      (∃ ss : Session, s.entry[p].sess = some ss ∧ comesDue ss.interTimer) ∧ x = .interKeyTimeout p ∨
      comesDue s.entry[p].guardTimer ∧ x = .pinGuardExpiry p ∨ comesDue s.entry[p].retryTimer ∧ x = .displayRetryExpiry p ∨
      comesDue s.card[p].readTimer ∧ x = .readTimerExpiry p ∨ comesDue s.card[p].takeTimer ∧ x = .takeTimerExpiry p ∨
      comesDue s.card[p].moveTimer ∧ x = .movementTimerExpiry p := by
  unfold dueOfPos
  rw [tick_entry, tick_card]
  simp only [List.mem_append, mem_dueCommand, sessionTimer_tick s.entry[p] (f := Session.firstTimer) fun _ => rfl,
    sessionTimer_tick s.entry[p] (f := Session.interTimer) fun _ => rfl, or_assoc]
  simp only [EntryCtx.tick, CardCtx.tick, tickTimer_due]

/-- R159: the expiries due once the boundary has passed. -/
theorem mem_pending {s : State} {x : Instr} :
    x ∈ (boundary s).pending ↔
      (∃ l, x ∈ dueOfLine (tickState s) l) ∨ (∃ e, x ∈ dueOfEntry (tickState s) e) ∨ (∃ p, x ∈ dueOfPos (tickState s) p) ∨
      comesDue s.time.timer ∧ x = .attendanceTimerExpiry := by
  have timer : (tickState s).time.timer = tickTimer s.time.timer := rfl
  have perm : (boundary s).pending.Perm (dueExpiries (tickState s)) := arrange_perm _ _ _
  rw [perm.mem_iff, mem_dueExpiries, timer, tickTimer_due]

theorem step_boundary {s : State} (hp : s.pending = []) (hr : s.running = true) : step s = .next (boundary s) := by
  rw [step, hp, hr]
  rfl

theorem oracle_boundary (s : State) : (boundary s).oracle = s.oracle + (boundary s).pending.length :=
  congrArg (s.oracle + ·) (arrange_perm _ _ _).length_eq.symm

/-- Settles O2: the boundary ticks every timer, and each expiry due is its own timer's. -/
theorem boundaryPassesAMillisecond : Obligations.BoundaryPassesAMillisecond := by
  unfold Obligations.BoundaryPassesAMillisecond
  intro s hp
  refine ⟨fun hr => by rw [step, hp, hr]; rfl, fun hr => ⟨boundary s, step_boundary hp hr, rfl, oracle_boundary s,
    arrange_perm _ _ _, rfl, ?_, fun l => ⟨tick_line s l, ?_, ?_⟩, fun e => ⟨tick_dir s e, ?_, ?_, ?_⟩,
    fun p => ⟨tick_entry s p, tick_card s p, ?_, ?_, ?_, ?_, ?_, ?_, ?_⟩⟩⟩
  all_goals simp only [mem_pending, mem_dueOfLine, mem_dueOfEntry, mem_dueOfPos]
  case refine_2 | refine_3 => grind
  all_goals simp [and_comm]

end Sys2Proof.Machine

/-! # Bodies, admissions and promises (R5 to R9, R16, R17, R19): O32

The rules that later proofs use: what a body reads after a write, and what an admission, an offered frame and a promise leave, by whether
the pool admits them. -/

namespace Sys2Proof.Machine

/-! ## Chunks in one place each -/

/-- R1: no chunk is in two records, or twice in one. -/
theorem chunks_nodup {p : Pool} (h : chunksSound p) : (p.recs.toList.flatMap Rec.chunks).Nodup :=
  (List.nodup_append.mp (h.1.nodup_iff.mpr List.nodup_range)).2.1

theorem rec_mem_toList (p : Pool) (r : RecId) : p.recs[r] ∈ p.recs.toList := by
  simp

theorem recChunks_nodup {p : Pool} (h : chunksSound p) (r : RecId) : p.recs[r].chunks.Nodup :=
  (List.nodup_flatMap.mp (chunks_nodup h)).1 _ (rec_mem_toList p r)

theorem recChunks_disjoint {p : Pool} (h : chunksSound p) {r x : RecId} (hx : x ≠ r) :
    List.Disjoint p.recs[r].chunks p.recs[x].chunks := by
  have hp := (List.nodup_flatMap.mp (chunks_nodup h)).2
  have hr : r.val < p.recs.toList.length := by simp
  have hx' : x.val < p.recs.toList.length := by simp
  have hd : ∀ i j : Nat, ∀ (hi : i < p.recs.toList.length) (hj : j < p.recs.toList.length), i < j →
      List.Disjoint p.recs.toList[i].chunks p.recs.toList[j].chunks := fun i j hi hj hij => List.pairwise_iff_getElem.mp hp i j hi hj hij
  rcases Nat.lt_or_gt_of_ne (Fin.val_ne_of_ne hx) with hlt | hlt
  · simpa using (hd _ _ hx' hr hlt).symm
  · simpa using hd _ _ hr hx' hlt

/-- R5: the chunk of byte i of a body is the (i / 32)-th of its list. -/
theorem bodyAddr_chunk {ch : List Nat} {i : Nat} (h : i < 32 * ch.length) :
    ∃ hk : i / 32 < ch.length, bodyAddr ch i = ch[i / 32] * 32 + i % 32 := by
  have hk : i / 32 < ch.length := by omega
  refine ⟨hk, ?_⟩
  unfold bodyAddr Config.chunkBytes
  rw [List.getD_eq_getElem _ _ hk]

/-- R5: two bytes of one body have two addresses. -/
theorem bodyAddr_inj {ch : List Nat} (hn : ch.Nodup) {i j : Nat} (hi : i < 32 * ch.length) (hj : j < 32 * ch.length)
    (h : bodyAddr ch i = bodyAddr ch j) : i = j := by
  obtain ⟨ki, ei⟩ := bodyAddr_chunk hi
  obtain ⟨kj, ej⟩ := bodyAddr_chunk hj
  rw [ei, ej] at h
  have hc : ch[i / 32] = ch[j / 32] := by omega
  have := (hn.getElem_inj_iff).mp hc
  omega

/-- R5: a byte of one body and a byte of another have two addresses. -/
theorem bodyAddr_ne {ch ch' : List Nat} (hd : List.Disjoint ch ch') {i j : Nat} (hi : i < 32 * ch.length)
    (hj : j < 32 * ch'.length) : bodyAddr ch i ≠ bodyAddr ch' j := fun h => by
  obtain ⟨ki, ei⟩ := bodyAddr_chunk hi
  obtain ⟨kj, ej⟩ := bodyAddr_chunk hj
  rw [ei, ej] at h
  have hc : ch[i / 32] = ch'[j / 32] := by omega
  exact hd (List.getElem_mem ki) (hc ▸ List.getElem_mem kj)

/-! ## What a body reads after a write -/

theorem memRead_writeBody_at {ch : List Nat} (hn : ch.Nodup) :
    ∀ (bs : List Byte) (m : List Host.Cell) (i : Nat), memWf m = true → i + bs.length ≤ 32 * ch.length →
      ∀ (k : Nat) (hk : k < bs.length), memRead (memWriteBody m ch i bs) (bodyAddr ch (i + k)) = bs[k] := by
  intro bs
  induction bs with
  | nil => exact fun _ _ _ _ k hk => absurd hk (Nat.not_lt_zero k)
  | cons b bs ih =>
    intro m i hm hlen k hk
    rw [List.length_cons] at hlen hk
    cases k with
    | zero =>
      rw [Nat.add_zero, memWriteBody, memRead_writeBody (memWrite_wf hm) fun j hj hj' he => ?_, memRead_write hm, if_pos rfl]
      · rfl
      · have := bodyAddr_inj hn (by omega) (by omega) he
        omega
    | succ k =>
      rw [memWriteBody]
      have := ih (memWrite m (bodyAddr ch i) b) (i + 1) (memWrite_wf hm) (by omega) k (by omega)
      rw [show i + (k + 1) = i + 1 + k by omega, this]
      rfl

/-- R5: a body written over distinct chunks that hold it is read back. -/
theorem memReadBody_writeBody {ch : List Nat} (hn : ch.Nodup) {m : List Host.Cell} (hm : memWf m = true) {bs : List Byte}
    (hlen : bs.length ≤ 32 * ch.length) : memReadBody (memWriteBody m ch 0 bs) ch bs.length = bs := by
  refine List.ext_getElem (by simp [memReadBody]) fun k hk hk' => ?_
  have := memRead_writeBody_at hn bs m 0 hm (by omega) k hk'
  rw [Nat.zero_add] at this
  simpa [memReadBody] using this

theorem memReadBody_other {ch ch' : List Nat} (hd : List.Disjoint ch ch') {m : List Host.Cell} (hm : memWf m = true) {bs : List Byte}
    {i n : Nat} (hlen : i + bs.length ≤ 32 * ch.length) (hn : n ≤ 32 * ch'.length) :
    memReadBody (memWriteBody m ch i bs) ch' n = memReadBody m ch' n := by
  refine List.map_congr_left fun k hk => ?_
  rw [List.mem_range] at hk
  exact memRead_writeBody hm fun j _ hj => bodyAddr_ne hd (by omega) (by omega)

theorem setBody_rec (p : Pool) (r : RecId) (bs : List Byte) :
    p.setBody r bs = { p with mem := memWriteBody p.mem p.recs[r].chunks 0 bs
                              recs := p.recs.set r { p.recs[r] with len := bs.length } } := rfl

theorem body_setBody_same {p : Pool} (hm : memorySound p) (hc : chunksSound p) {r : RecId} {bs : List Byte}
    (hlen : bs.length ≤ 32 * p.recs[r].chunks.length) : (p.setBody r bs).body r = bs := by
  have hrec : (p.setBody r bs).recs[r] = { p.recs[r] with len := bs.length } := by
    rw [setBody_rec, recs_set_get, if_pos rfl]
  unfold Pool.body
  rw [hrec]
  exact memReadBody_writeBody (recChunks_nodup hc r) hm hlen

theorem body_setBody_other {p : Pool} (hm : memorySound p) (hc : chunksSound p) {r x : RecId} {bs : List Byte}
    (hlen : bs.length ≤ 32 * p.recs[r].chunks.length) (hx : x ≠ r) (hxl : p.recs[x].len ≤ 32 * p.recs[x].chunks.length) :
    (p.setBody r bs).body x = p.body x := by
  have hrec : (p.setBody r bs).recs[x] = p.recs[x] := by rw [setBody_rec, recs_set_get, if_neg (Ne.symm hx)]
  unfold Pool.body
  rw [hrec]
  exact memReadBody_other (recChunks_disjoint hc hx) hm (by omega) hxl

/-- R5: a body that its chunks hold is written, and no other one changes. -/
theorem bodyWritten_setBody {p : Pool} (hm : memorySound p) (hc : chunksSound p) {r : RecId} {bs : List Byte}
    (hlen : bs.length ≤ 32 * p.recs[r].chunks.length) : bodyWritten p (p.setBody r bs) r bs :=
  ⟨rfl, body_setBody_same hm hc hlen, fun _ hx => body_setBody_other hm hc hlen hx⟩

/-! ## Admissions -/

theorem chunkTest_iff (prof : Profile) (f n : Nat) (c : Cls) : chunkTest prof f c n = true ↔ n + keptBack prof c ≤ f := by
  unfold chunkTest keptBack
  match c with
  | 0 => simp
  | 1 => simp
  | 2 => simp [Nat.add_assoc]

theorem recordTest_iff (g : Nat) (c : Cls) : recordTest g c = true ↔ recordsAsked c ≤ g := by
  unfold recordTest recordsAsked
  match c with
  | 0 => simp
  | 1 => simp
  | 2 => simp

theorem quotaTest_iff (prof : Profile) (p : Pool) (o : Origin) (n : Nat) : quotaTest prof p o n = true ↔ withinQuota prof p n o := by
  unfold quotaTest withinQuota
  cases o <;> simp

/-- R7: the three tests. -/
theorem failedTest_of_admissible {prof : Profile} {p : Pool} {c : Cls} {n : Nat} {o : Origin} (h : admissible prof p c n o) :
    failedTest prof p c n o = none := by
  obtain ⟨h1, h2, h3⟩ := h
  rw [failedTest, (chunkTest_iff _ _ _ _).mpr h1, (recordTest_iff _ _).mpr h2, (quotaTest_iff _ _ _ _).mpr h3]
  rfl

/-- R7, R9: the first test that fails, and its counter. -/
theorem failedTest_of_refusedAt {prof : Profile} {p : Pool} {c : Cls} {n : Nat} {o : Origin} {k : Fin 9}
    (h : refusedAt prof p c n o k) : ∃ t, failedTest prof p c n o = some t ∧ p.countRefusal t c = counted p k := by
  have count : ∀ t, refusalIndex t c = k → p.countRefusal t c = counted p k := fun t ht => by
    subst ht
    rw [Pool.countRefusal, counted, satInc, Config.count16]
  unfold failedTest
  rcases h with ⟨h1, hk⟩ | ⟨h1, h2, hk⟩ | ⟨h1, h2, h3, hk⟩
  · rw [← chunkTest_iff, Bool.not_eq_true] at h1
    rw [h1]
    exact ⟨.chunk, rfl, count _ (Fin.ext hk.symm)⟩
  · rw [← chunkTest_iff] at h1
    rw [← recordTest_iff, Bool.not_eq_true] at h2
    rw [h1, h2]
    exact ⟨.record, rfl, count _ (Fin.ext hk.symm)⟩
  · rw [← chunkTest_iff] at h1
    rw [← recordTest_iff] at h2
    rw [← quotaTest_iff, Bool.not_eq_true] at h3
    rw [h1, h2, h3]
    exact ⟨.quota, rfl, count _ (Fin.ext hk.symm)⟩

theorem lowestFree_lowest {p : Pool} {r : RecId} (h : p.lowestFree = some r) : ∀ q < r, p.recs[q].state ≠ .free := by
  intro q hq hf
  obtain ⟨-, before, after, hsplit, hbefore⟩ := List.find?_eq_some_iff_append.mp h
  have sorted : (before ++ r :: after).Pairwise (· < ·) := by
    rw [← hsplit]
    exact List.pairwise_lt_finRange 64
  have hqmem : q ∈ before ++ r :: after := hsplit ▸ List.mem_finRange q
  rcases List.mem_append.mp hqmem with hq' | hq'
  · have := hbefore q hq'
    rw [hf] at this
    exact absurd this (by decide)
  · rcases List.mem_cons.mp hq' with rfl | hq'
    · exact absurd hq (lt_irrefl _)
    · have := (List.pairwise_cons.mp (List.pairwise_append.mp sorted).2.1).1 q hq'
      exact absurd hq (not_lt.mpr this.le)

theorem granted_grant {p : Pool} {r : RecId} (a : Admission) (h : p.lowestFree = some r) : granted p (p.grant r a) r a := by
  refine ⟨Pool.lowestFree_free h, lowestFree_lowest h, ?_, fun q hq => ?_, rfl, rfl, rfl, rfl, rfl, rfl⟩
  · rw [Pool.grant, recs_set_get, if_pos rfl]
  · rw [Pool.grant, recs_set_get, if_neg (Ne.symm hq)]

/-- R7, R8: an admission that the pool grants. -/
theorem admitRec_granted {s : State} {a : Admission} (h : admissible s.profile s.pool a.cls a.need a.origin) :
    ∃ r, s.pool.lowestFree = some r ∧ granted s.pool (s.pool.grant r a) r a ∧ a.need ≤ s.pool.free.length ∧
      admitRec s a = ({ s with pool := s.pool.grant r a }, some r) := by
  have hnone := failedTest_of_admissible h
  obtain ⟨hneed, hfree, -⟩ := failedTest_none hnone
  obtain ⟨r, hr⟩ := Pool.lowestFree_isSome hfree
  refine ⟨r, hr, granted_grant a hr, hneed, ?_⟩
  rw [admitRec, hnone, hr]
  rfl

/-- R7, R9: an admission that the pool refuses. -/
theorem admitRec_refused {s : State} {a : Admission} {k : Fin 9} (h : refusedAt s.profile s.pool a.cls a.need a.origin k) :
    admitRec s a = ({ s with pool := counted s.pool k }, none) := by
  obtain ⟨t, ht, hc⟩ := failedTest_of_refusedAt h
  rw [admitRec, ht]
  simp only [State.modPool, hc]

/-! ## Frames and records that the part builds -/

theorem chunkNeed_eq (n : Nat) : chunkNeed n = chunksNeeded n := rfl

theorem chunksNeeded_holds (n : Nat) : n ≤ 32 * chunksNeeded n := by
  unfold chunksNeeded
  omega

/-- The record that a grant has taken has its chunks. -/
theorem grant_chunks {p : Pool} {r : RecId} {a : Admission} (hneed : a.need ≤ p.free.length) :
    (p.grant r a).recs[r].chunks.length = a.need := by
  rw [Pool.grant, recs_set_get, if_pos rfl, List.length_take]
  omega

/-- R5, R8: the body written into the record that a grant has taken. -/
theorem bodyWritten_grant {p : Pool} {r : RecId} {a : Admission} {bs : List Byte} (hm : memorySound p) (hc : chunksSound p)
    (hr : p.lowestFree = some r) (ha : a.state ≠ .free) (hneed : a.need ≤ p.free.length) (hlen : bs.length ≤ 32 * a.need) :
    bodyWritten (p.grant r a) ((p.grant r a).setBody r bs) r bs :=
  bodyWritten_setBody (memorySound_step (.grant p r a (Pool.lowestFree_free hr) hneed ha) hm)
    (chunksSound_grant hc (Pool.lowestFree_free hr) ha) (by rw [grant_chunks hneed]; exact hlen)

/-- R19: the admission of a record that the part builds. -/
def builtAdmission (s : State) (c : Cls) (o : Origin) (k : RecKind) (u : Urgency) (n : Nat) : Admission :=
  { cls := c, need := chunkNeed n, origin := o, kind := k, urg := u, arrival := s.now, state := .stored, promise := none }

theorem admitBuilt_granted {s : State} {c : Cls} {o : Origin} {body : List Byte} (k : RecKind) (u : Urgency)
    (h : admissible s.profile s.pool c (chunkNeed body.length) o) :
    ∃ r, s.pool.lowestFree = some r ∧
      granted s.pool (s.pool.grant r (builtAdmission s c o k u body.length)) r (builtAdmission s c o k u body.length) ∧
      (memorySound s.pool → chunksSound s.pool →
        bodyWritten (s.pool.grant r (builtAdmission s c o k u body.length))
          ((s.pool.grant r (builtAdmission s c o k u body.length)).setBody r body) r body) ∧
      admitBuilt s c o k u body =
        ({ s with pool := (s.pool.grant r (builtAdmission s c o k u body.length)).setBody r body }, some r) := by
  obtain ⟨r, hr, hg, hneed, heq⟩ := admitRec_granted (a := builtAdmission s c o k u body.length) h
  refine ⟨r, hr, hg, fun hm hc => bodyWritten_grant hm hc hr (by simp [builtAdmission]) hneed (chunksNeeded_holds _), ?_⟩
  unfold builtAdmission at heq ⊢
  rw [admitBuilt, heq]
  rfl

theorem admitBuilt_refused {s : State} {c : Cls} {o : Origin} {body : List Byte} (k : RecKind) (u : Urgency) {x : Fin 9}
    (h : refusedAt s.profile s.pool c (chunkNeed body.length) o x) :
    admitBuilt s c o k u body = ({ s with pool := counted s.pool x }, none) := by
  have heq := admitRec_refused (a := builtAdmission s c o k u body.length) h
  unfold builtAdmission at heq
  rw [admitBuilt, heq]

theorem partUrgency_eq (k : FrameKind) : partUrgency k = BitVec.ofNat 2 (urgencyOf k) := by cases k <;> decide

theorem classOfUrgency_eq {k : FrameKind} {c : Cls} (h : c.val = urgencyOf k) : classOfUrgency (partUrgency k) = c := by
  refine Fin.ext (Eq.trans ?_ h.symm)
  cases k <;> decide

theorem builtAdmission_frame (s : State) (k : FrameKind) (c : Cls) (n : Nat) :
    builtAdmission s c .part (.frame k) (partUrgency k) n = ownFrame s k c n := by
  rw [builtAdmission, ownFrame, partUrgency_eq]
  rfl

theorem newEntry_eq (s : State) (r : RecId) (dest : Addr) (target : Option EntryId) (owner : Owner) :
    newEntry s r dest target owner = queuedFrame s r dest target owner := rfl

section
variable {s : State} {l : LineId} {k : FrameKind} {c : Cls} {body : List Byte}

theorem offerControl_stopped (hl : s.lines[l].state = .stopped) (dest : Addr) (target : Option EntryId) (owner : Owner) :
    offerControl s l k dest target owner body = (s, .stopped) := by
  rw [offerControl, State.lineStopped, hl]
  rfl

theorem not_lineStopped (hl : s.lines[l].state ≠ .stopped) : s.lineStopped l = false := by
  rw [State.lineStopped]
  exact beq_eq_false_iff_ne.mpr hl

theorem offerControl_granted (hl : s.lines[l].state ≠ .stopped) (hk : c.val = urgencyOf k)
    (h : admissible s.profile s.pool c (chunksNeeded body.length) .part) (dest : Addr) (target : Option EntryId) (owner : Owner) :
    ∃ r, granted s.pool (s.pool.grant r (ownFrame s k c body.length)) r (ownFrame s k c body.length) ∧
      (memorySound s.pool → chunksSound s.pool →
        bodyWritten (s.pool.grant r (ownFrame s k c body.length))
          ((s.pool.grant r (ownFrame s k c body.length)).setBody r body) r body) ∧
      offerControl s l k dest target owner body =
        (onLine { s with pool := (s.pool.grant r (ownFrame s k c body.length)).setBody r body } l
          { s.lines[l] with control := s.lines[l].control ++ [queuedFrame s r dest target owner] }, .carried r) := by
  obtain ⟨r, -, hg, hb, heq⟩ := admitBuilt_granted (.frame k) (partUrgency k) h
  rw [builtAdmission_frame] at hg hb heq
  refine ⟨r, hg, hb, ?_⟩
  rw [offerControl, not_lineStopped hl, if_neg Bool.false_ne_true, classOfUrgency_eq hk, heq]
  rfl

theorem offerControl_refused (hl : s.lines[l].state ≠ .stopped) (hk : c.val = urgencyOf k) {x : Fin 9}
    (h : refusedAt s.profile s.pool c (chunksNeeded body.length) .part x) (dest : Addr) (target : Option EntryId) (owner : Owner) :
    offerControl s l k dest target owner body = ({ s with pool := counted s.pool x }, .refused) := by
  rw [offerControl, not_lineStopped hl, if_neg Bool.false_ne_true, classOfUrgency_eq hk,
    admitBuilt_refused (.frame k) (partUrgency k) h]

end

/-- R19, R44, R60: an offered frame. -/
theorem frameOffered_offerControl (s : State) (l : LineId) (k : FrameKind) (dest : Addr) (target : Option EntryId) (owner : Owner)
    (body : List Byte) : frameOffered s (offerControl s l k dest target owner body).1 l k dest target owner body := by
  refine ⟨fun hl => by rw [offerControl_stopped hl], fun hl c hc => ⟨fun hm hcs h => ?_, fun x h => ?_⟩⟩
  · obtain ⟨r, hg, hb, heq⟩ := offerControl_granted hl hc h dest target owner
    exact ⟨r, _, _, hg, hb hm hcs, by rw [heq]⟩
  · rw [offerControl_refused hl hc h]

/-! ## Promises -/

theorem promiseChunks_eq (k : NoticeKind) : promiseChunks k = if k = .sendDone then 4 else 1 := by cases k <;> rfl

/-- R16: the admission of a promise. -/
theorem reserve_eq (s : State) (k : NoticeKind) (tag : Byte) : reserve s k tag = admitRec s (promised s k tag) := by
  rw [reserve, promiseChunks_eq]
  rfl

theorem reserve_granted {s : State} {k : NoticeKind} (tag : Byte)
    (h : admissible s.profile s.pool 0 (if k = .sendDone then 4 else 1) .part) :
    ∃ r, s.pool.lowestFree = some r ∧ granted s.pool (s.pool.grant r (promised s k tag)) r (promised s k tag) ∧
      (promised s k tag).need ≤ s.pool.free.length ∧
      reserve s k tag = ({ s with pool := s.pool.grant r (promised s k tag) }, some r) := by
  rw [reserve_eq]
  exact admitRec_granted (a := promised s k tag) h

theorem reserve_refused {s : State} {k : NoticeKind} {tag : Byte} {x : Fin 9}
    (h : refusedAt s.profile s.pool 0 (if k = .sendDone then 4 else 1) .part x) :
    reserve s k tag = ({ s with pool := counted s.pool x }, none) := by
  rw [reserve_eq]
  exact admitRec_refused (a := promised s k tag) h

/-- R17: the pool once a promise's record has its content and is STORED. -/
def promiseKept (s : State) (r : RecId) (body : List Byte) : Pool :=
  (s.pool.setBody r body).modRec r fun x => { x with state := .stored, arrival := s.time.mono }

theorem promiseKept_eq (s : State) (r : RecId) (body : List Byte) :
    promiseKept s r body =
      { s.pool with
        mem := (promiseKept s r body).mem, recs := s.pool.recs.set r (completedRec s.pool.recs[r] s.time.mono body.length) } := by
  have hrec : (s.pool.setBody r body).recs[r] = { s.pool.recs[r] with len := body.length } := by
    rw [setBody_rec, recs_set_get, if_pos rfl]
  unfold promiseKept Pool.modRec
  rw [hrec, setBody_rec, Vector.set_set]
  rfl

theorem promiseKept_body (s : State) (r x : RecId) (body : List Byte) :
    (promiseKept s r body).body x = (s.pool.setBody r body).body x := by
  have hrec : (promiseKept s r body).recs[x].chunks = (s.pool.setBody r body).recs[x].chunks ∧
      (promiseKept s r body).recs[x].len = (s.pool.setBody r body).recs[x].len := by
    unfold promiseKept
    rw [Pool.modRec_get]
    split <;> exact ⟨rfl, rfl⟩
  unfold Pool.body
  rw [hrec.1, hrec.2]
  rfl

theorem completePromise_eq (s : State) (r : RecId) (k : NoticeKind) (q : Cls) (pos : Option Pos) (body : List Byte) :
    completePromise s r k q pos body = { s with pool := promiseKept s r body }.pushW q
      { record := r, kind := k, tag := s.pool.recs[r].promise.getD 0, unit := none, pos := pos, witnessed := false, resent := false } := by
  have hpromise : (promiseKept s r body).recs[r].promise = s.pool.recs[r].promise := by
    rw [promiseKept_eq, recs_set_get, if_pos rfl]
    rfl
  have hentry : completionEntry { s with pool := promiseKept s r body } r k pos =
      { record := r, kind := k, tag := s.pool.recs[r].promise.getD 0, unit := none, pos := pos, witnessed := false, resent := false } := by
    rw [completionEntry, hpromise]
  rw [← hentry]
  rfl

/-- Settles O32: offered frames, promises and their completion, by the rules of this file. -/
theorem admissionsAndPromises : Obligations.AdmissionsAndPromises := by
  unfold Obligations.AdmissionsAndPromises
  refine ⟨fun s l => ⟨fun k dest target owner body c hc => ⟨fun hl => offerControl_stopped hl _ _ _, fun hl hm hcs h => ?_,
    fun hl x h => offerControl_refused hl hc h _ _ _⟩, fun k tag => ⟨fun h => ?_, fun x h => reserve_refused h⟩⟩,
    fun s r k q pos body hm hc hlen => ?_⟩
  · obtain ⟨r, hg, hb, heq⟩ := offerControl_granted hl hc h dest target owner
    exact ⟨r, _, _, hg, hb hm hcs, heq⟩
  · obtain ⟨r, -, hg, -, heq⟩ := reserve_granted tag h
    exact ⟨r, _, hg, heq⟩
  · refine ⟨promiseKept s r body, ?_, fun x hx hxl => ?_, promiseKept_eq s r body, fun n hn => ?_⟩
    · rw [promiseKept_body, body_setBody_same hm hc hlen]
    · rw [promiseKept_body, body_setBody_other hm hc hlen hx hxl]
    · rw [completePromise_eq, ← hn]
      exact ⟨fun h => by rw [h]; rfl, fun h => by rw [h]; rfl, fun h => by rw [h]; rfl⟩

end Sys2Proof.Machine

/-! # Start-up (R196, R197): O5 -/

namespace Sys2Proof.Machine

/-! ## The free counts when one record is written -/

/-- R4: the FREE records after one of them is written. -/
theorem countFree_set (v : Vector Rec 64) (r : RecId) (x : Rec) :
    (v.set r x).toList.countP (fun y => y.state == .free) + (if v[r].state = .free then 1 else 0) =
      v.toList.countP (fun y => y.state == .free) + (if x.state = .free then 1 else 0) := by
  have hr : r.val < v.toList.length := by simp
  have hold := (List.getElem_cons_eraseIdx_perm hr).countP_eq fun y : Rec => y.state == .free
  have hnew := (List.set_perm_cons_eraseIdx hr x).countP_eq fun y : Rec => y.state == .free
  rw [List.countP_cons] at hold hnew
  rw [Vector.toList_set, hnew, ← hold]
  have hget : v.toList[r.val] = v[r] := by simp
  rw [hget]
  simp only [beq_iff_eq]
  omega

theorem recsFree_grant {p : Pool} {r : RecId} {a : Admission} (hr : p.recs[r].state = .free) (ha : a.state ≠ .free) :
    (p.grant r a).recsFree + 1 = p.recsFree := by
  have h := countFree_set p.recs r
    { state := a.state, origin := a.origin, kind := a.kind, cls := a.cls, urg := a.urg, arrival := a.arrival, len := 0,
      chunks := p.free.take a.need, refs := 1, promise := a.promise }
  rw [if_pos hr, if_neg ha] at h
  exact h

theorem recsFree_setBody (p : Pool) (r : RecId) (bs : List Byte) : (p.setBody r bs).recsFree = p.recsFree := by
  have h := countFree_set p.recs r { p.recs[r] with len := bs.length }
  exact Nat.add_right_cancel h

theorem chunksFree_grant {p : Pool} {r : RecId} {a : Admission} (hneed : a.need ≤ p.free.length) :
    (p.grant r a).chunksFree + a.need = p.chunksFree := by
  unfold Pool.chunksFree Pool.grant
  dsimp only
  rw [List.length_drop]
  omega

/-! ## The START promise -/

/-- R196: the START promise takes record 0 and chunk 0. -/
def startRec : Rec :=
  { state := .reserved, origin := .part, kind := .notice .start, cls := 0, urg := 0, arrival := 0, len := 0, chunks := [0]
    refs := 1, promise := some 0 }

theorem lowestFree_resetPool (mem : List Host.Cell) : (resetPool mem).lowestFree = some 0 := by
  obtain ⟨r, hr⟩ := Pool.lowestFree_isSome (p := resetPool mem) (by rw [recsFree_resetPool]; omega)
  rw [hr]
  by_contra hne
  have hpos : (0 : RecId) < r := Fin.pos_of_ne_zero fun h => hne (congrArg some h)
  exact lowestFree_lowest hr 0 hpos (by rw [resetPool_rec]; rfl)

theorem admissible_part {prof : Profile} {p : Pool} {c : Cls} {n : Nat} (hf : n + keptBack prof c ≤ p.chunksFree)
    (hr : recordsAsked c ≤ p.recsFree) : admissible prof p c n .part := ⟨hf, hr, trivial⟩

/-- R16, R18: the START promise on a pool that has been reset. -/
theorem reserve_start {s : State} (hp : s.pool = resetPool s.pool.mem) (ht : s.time.mono = 0) :
    ∃ p : Pool, reserve s .start 0 = ({ s with pool := p }, some 0) ∧ p.recs[(0 : RecId)] = startRec ∧ p.mem = s.pool.mem ∧
      p.chunksFree = 255 ∧ p.recsFree = 63 := by
  have hfree : s.pool.chunksFree = 256 := by rw [hp, chunksFree_resetPool]
  have hrecs : s.pool.recsFree = 64 := by rw [hp, recsFree_resetPool]
  obtain ⟨r, hlow, hg, hneed, heq⟩ := reserve_granted (s := s) (k := .start) 0
    (admissible_part (by rw [hfree]; exact Nat.le_add_left 1 255) (by rw [hrecs]; exact Nat.le_add_left 1 63))
  have hr : r = 0 := by
    rw [hp, lowestFree_resetPool] at hlow
    exact (Option.some.inj hlow).symm
  subst hr
  obtain ⟨hfr, -, hrec, -, -, hmem, -⟩ := hg
  refine ⟨_, heq, ?_, hmem, ?_, ?_⟩
  · rw [hrec, startRec, promised, hp, resetPool, ht]
    rfl
  · have := chunksFree_grant (r := 0) hneed
    rw [hfree] at this
    exact Nat.add_right_cancel (m := 1) this
  · have := recsFree_grant (p := s.pool) (r := 0) (a := promised s .start 0) hfr RecState.noConfusion
    omega

/-! ## A line starts -/

theorem armLostOnLine_none {t : State} (h : ∀ e : EntryId, t.dir[e].state ≠ .silent) (l : LineId) : armLostOnLine t l = t := by
  unfold armLostOnLine
  have fixed : ∀ es : List EntryId, es.foldl (fun t e =>
      if t.dir[e].state = .silent ∧ t.dir[e].line = l then
        t.modDir e fun d => { d with lostTimer := armSec t.profile.lostLimit }
      else t) t = t := fun es => by
    induction es with
    | nil => rfl
    | cons e es ih =>
      rw [List.foldl_cons, if_neg fun hs => h e hs.1]
      exact ih
  exact fixed allEntries

/-- R40: the line while its general-call WHO is offered. -/
def Line.started (ln : Line) (x : LineItems) : Line :=
  { ln with state := .active, timing := some { d := x.d, s := x.s }, idle := false, rx := .hunting }

theorem startLine_unfold (s : State) (l : LineId) :
    startLine s l = armLostOnLine (offerGeneralWho (onLine s l (s.lines[l].started s.profile.lines[l])) l) l := rfl

/-- An empty body written over an empty one. -/
theorem setBody_nil {p : Pool} {r : RecId} (h : p.recs[r].len = 0) : p.setBody r [] = p := by
  have hrec : ({ p.recs[r] with len := ([] : List Byte).length } : Rec) = p.recs[r] := by rw [List.length_nil, ← h]
  rw [setBody_rec, hrec, memWriteBody]
  simp

/-- R40, R60: a WHO offered to a line that is not STOPPED, when the pool admits it. -/
theorem offerWho_granted {s : State} {l : LineId} (hl : s.lines[l].state ≠ .stopped) (h : admissible s.profile s.pool 2 1 .part)
    (a : Addr) :
    ∃ (r : RecId) (p : Pool), granted s.pool p r (ownFrame s .who 2 0) ∧ p.chunksFree + 1 = s.pool.chunksFree ∧
      p.recsFree + 1 = s.pool.recsFree ∧
      offerControl s l .who a none .directory [] = (onLine { s with pool := p } l
        { s.lines[l] with control := s.lines[l].control ++ [{ whoEntry s.time.mono s.profile.queueLimit r with dest := a }] },
        .carried r) := by
  obtain ⟨r, hg, -, heq⟩ := offerControl_granted (k := .who) (c := 2) (body := []) hl rfl h a none .directory
  rw [List.length_nil] at hg heq
  have hneed : (ownFrame s .who 2 0).need ≤ s.pool.free.length := (failedTest_none (failedTest_of_admissible h)).1
  refine ⟨r, _, hg, chunksFree_grant (r := r) hneed, recsFree_grant hg.1 RecState.noConfusion, heq.trans ?_⟩
  rw [setBody_nil (by rw [hg.2.2.1])]
  rfl

theorem offerGeneralWho_onLine {s : State} {l : LineId} {ln : Line} (hl : ln.state ≠ .stopped)
    (h : admissible s.profile s.pool 2 1 .part) :
    ∃ (r : RecId) (p : Pool), granted s.pool p r (ownFrame s .who 2 0) ∧ p.chunksFree + 1 = s.pool.chunksFree ∧
      p.recsFree + 1 = s.pool.recsFree ∧
      offerGeneralWho (onLine s l ln) l = onLine { s with pool := p } l
        { ln with control := ln.control ++ [whoEntry s.time.mono s.profile.queueLimit r] } := by
  obtain ⟨r, p, hg, hf, hr, heq⟩ := offerWho_granted (s := onLine s l ln) (l := l) (by rw [onLine_self]; exact hl) h 15
  refine ⟨r, p, hg, hf, hr, (congrArg Prod.fst heq).trans ?_⟩
  dsimp only
  rw [onLine_self]
  exact onLine_onLine { s with pool := p } l ln _

/-! ## The lines, one after another -/

/-- R196, step 5: the lines of a list have started, or stay STOPPED, and the others are as a reset leaves them. -/
structure LinesBegun (s : State) (ls : List LineId) (t : State) : Prop where
  frame : t = { s with pool := t.pool, lines := t.lines }
  start : t.pool.recs[(0 : RecId)] = startRec
  mem : t.pool.mem = s.pool.mem
  chunks : 255 ≤ t.pool.chunksFree + ls.length
  recs : 63 ≤ t.pool.recsFree + ls.length
  begun : ∀ l ∈ ls, lineStarted s.profile t.pool l t.lines[l]
  others : ∀ l, l ∉ ls → t.lines[l] = resetLine

/-- R184: the reserves that class 2 leaves free. -/
theorem keptBack_le {prof : Profile} (h : profileSound prof) : keptBack prof 2 ≤ 128 := by
  obtain ⟨-, hn, -⟩ := (profileSound_iff prof).mp h
  unfold numbersSound at hn
  have : keptBack prof 2 = prof.reserve0 + prof.reserve1 := rfl
  omega

/-- A line that has started keeps its WHO while other records are taken. -/
theorem lineStarted_of_recs {prof : Profile} {p q : Pool} {l : LineId} {ln : Line}
    (h : ∀ x : RecId, p.recs[x].state ≠ .free → p.recs[x].kind = .frame .who → q.recs[x] = p.recs[x]) (hl : lineStarted prof p l ln) : lineStarted prof q l ln := by
  refine ⟨hl.1, fun he => ?_⟩
  obtain ⟨r, k, hln, hrec⟩ := hl.2 he
  exact ⟨r, k, hln, (h r (by rw [hrec]; exact RecState.noConfusion) (by rw [hrec])).trans hrec⟩

theorem linesBegun_start {s t : State} {ls : List LineId} {l : LineId} (h : LinesBegun s ls t) (hl : l ∉ ls) (hlen : ls.length ≤ 3)
    (hs : profileSound s.profile) (hdir : ∀ e : EntryId, s.dir[e].state ≠ .silent) (ht : s.time.mono = 0)
    (hen : s.profile.lines[l].enabled = true) : LinesBegun s (ls ++ [l]) (startLine t l) := by
  obtain ⟨hframe, hstart, hmem, hchunks, hrecs, hbegun, hothers⟩ := h
  have hprof : t.profile = s.profile := by rw [hframe]
  have htime : t.time = s.time := by rw [hframe]
  have hdir' : t.dir = s.dir := by rw [hframe]
  have hline : t.lines[l] = resetLine := hothers l hl
  have admitted : admissible t.profile t.pool 2 1 .part := by
    have := keptBack_le hs
    rw [hprof]
    exact admissible_part (by omega) (show 9 ≤ _ by omega)
  obtain ⟨r, p, hg, hcountF, hcount, heq⟩ :=
    offerGeneralWho_onLine (l := l) (ln := t.lines[l].started t.profile.lines[l]) LineState.noConfusion admitted
  obtain ⟨hfree, -, hrec, hother, -, hmem', -⟩ := hg
  have hstarted : startLine t l = onLine { t with pool := p } l
      { resetLine.started s.profile.lines[l] with control := [whoEntry 0 s.profile.queueLimit r] } := by
    rw [startLine_unfold, heq, hline, hprof, htime, ht, armLostOnLine_none]
    · rfl
    · exact fun e => (congrArg (fun d : Vector DirEntry 16 => d[e].state) hdir').trans_ne (hdir e)
  obtain ⟨k, hk⟩ : ∃ k, t.pool.free.take 1 = [k] := by
    have : 1 ≤ t.pool.free.length := (failedTest_none (failedTest_of_admissible admitted)).1
    exact List.length_eq_one_iff.mp (by rw [List.length_take]; omega)
  have kept : ∀ x : RecId, t.pool.recs[x].state ≠ .free → p.recs[x] = t.pool.recs[x] := fun x hx =>
    hother x fun hxr => hx (hxr ▸ hfree)
  have hpool : (startLine t l).pool = p := by rw [hstarted]; rfl
  have hlen' : (ls ++ [l]).length = ls.length + 1 := by rw [List.length_append, List.length_singleton]
  refine ⟨?_, ?_, ?_, ?_, ?_, fun x hx => ?_, fun x hx => ?_⟩
  · rw [hstarted, hframe]
    rfl
  · rw [hpool]
    exact (kept 0 (by rw [hstart]; exact RecState.noConfusion)).trans hstart
  · rw [hpool]
    exact hmem'.trans hmem
  · rw [hpool, hlen']
    omega
  · rw [hpool, hlen']
    omega
  · rw [hpool]
    by_cases hxl : x = l
    · subst hxl
      refine ⟨fun hno => absurd (hen.symm.trans hno) Bool.noConfusion, fun _ => ⟨r, k, ?_, ?_⟩⟩
      · rw [hstarted, onLine_self]
        rfl
      · rw [hrec, ← hk, ownFrame, htime, ht]
        rfl
    · rw [hstarted, onLine_get, if_neg (Ne.symm hxl)]
      exact lineStarted_of_recs (fun x hx _ => kept x hx) (hbegun x ((List.mem_append.mp hx).resolve_right fun h => hxl (List.mem_singleton.mp h)))
  · have hxl : x ≠ l := fun h => hx (by rw [h]; exact List.mem_append_right _ (List.mem_singleton_self l))
    rw [hstarted, onLine_get, if_neg (Ne.symm hxl)]
    exact hothers x fun h => hx (List.mem_append_left _ h)

theorem linesBegun_skip {s t : State} {ls : List LineId} {l : LineId} (h : LinesBegun s ls t) (hl : l ∉ ls)
    (hen : s.profile.lines[l].enabled = false) : LinesBegun s (ls ++ [l]) t := by
  obtain ⟨hframe, hstart, hmem, hchunks, hrecs, hbegun, hothers⟩ := h
  have hlen : (ls ++ [l]).length = ls.length + 1 := by rw [List.length_append, List.length_singleton]
  refine ⟨hframe, hstart, hmem, by omega, by omega, fun x hx => ?_, fun x hx => hothers x fun h => hx (List.mem_append_left _ h)⟩
  rcases List.mem_append.mp hx with hx | hx
  · exact hbegun x hx
  · cases List.mem_singleton.mp hx
    exact ⟨fun _ => hothers l hl, fun hyes => absurd (hen.symm.trans hyes) Bool.noConfusion⟩

/-- R196, step 5: the lines of a list, taken up in their order. -/
theorem linesBegun_foldl {s : State} (hs : profileSound s.profile) (hdir : ∀ e : EntryId, s.dir[e].state ≠ .silent)
    (ht : s.time.mono = 0) : ∀ (todo done : List LineId) (t : State), LinesBegun s done t → (done ++ todo).Nodup →
      (done ++ todo).length ≤ 4 →
      LinesBegun s (done ++ todo) (todo.foldl (fun t l => if t.profile.lines[l].enabled then startLine t l else t) t) := by
  intro todo
  induction todo with
  | nil => exact fun done t h _ _ => by rw [List.append_nil]; exact h
  | cons l todo ih =>
    intro done t h hn hlen
    have hl : l ∉ done := fun hmem => (List.nodup_append.mp hn).2.2 l hmem l List.mem_cons_self rfl
    have hprof : t.profile = s.profile := by rw [h.frame]
    rw [List.append_cons] at hn hlen ⊢
    rw [List.foldl_cons]
    refine ih _ _ ?_ hn hlen
    rw [hprof]
    cases hen : s.profile.lines[l].enabled with
    | true =>
      rw [List.length_append, List.length_append, List.length_singleton] at hlen
      exact linesBegun_start h hl (by omega) hs hdir ht hen
    | false => exact linesBegun_skip h hl hen

theorem linesBegun_all {s t : State} (hs : profileSound s.profile) (hdir : ∀ e : EntryId, s.dir[e].state ≠ .silent)
    (ht : s.time.mono = 0) (h : LinesBegun s [] t) : LinesBegun s allLines (startLines t) :=
  linesBegun_foldl hs hdir ht allLines [] t h (by decide) (by decide)

/-! ## The whole start-up -/

theorem profileChoice_eq (pdef : Bool) (st : StoreState) : profileChoice pdef st = outcomeOf pdef st := by
  cases pdef <;> cases st <;> rfl

theorem chosenProfile_eq (pdef : Bool) (st : Store) : chosenProfile (outcomeOf pdef st.state) st = profileOf pdef st := by
  unfold chosenProfile profileOf
  split
  · rename_i h
    rw [if_pos h]
  · rename_i h
    rw [if_neg h]

theorem profileSound_profileOf {st : Store} (h : storeSound st) (pdef : Bool) : profileSound (profileOf pdef st) := by
  unfold profileOf
  split
  · exact h.1 0
  · exact profileSound_default

/-- R196: the profile is chosen, the START notice promised. -/
theorem reserve_startProfile {s : State} (h : inReset s) :
    ∃ p : Pool, reserve (startProfile s) .start 0 = ({ startProfile s with pool := p }, some 0) ∧
      LinesBegun { startProfile s with pool := p } [] { startProfile s with pool := p } ∧ p.mem = s.pool.mem := by
  obtain ⟨htime, hpool, hlines, -⟩ := h
  obtain ⟨p, heq, hrec, hmem, hchunks, hrecs⟩ := reserve_start (s := startProfile s) hpool (congrArg TimeBase.mono htime)
  refine ⟨p, heq, ⟨rfl, hrec, rfl, hchunks.ge, hrecs.ge, fun l hl => absurd hl List.not_mem_nil, fun l _ => ?_⟩, hmem⟩
  rw [show ({ startProfile s with pool := p } : State).lines = _ from hlines]
  exact Vector.getElem_replicate ..

theorem startUp_eq {s t u : State} (h : reserve (startProfile s) .start 0 = (t, some 0)) (hu : startLines t = u)
    (hrec : u.pool.recs[(0 : RecId)].promise = some 0) (hw : u.w0 = []) :
    startUp s = { openLink u with
      pool := promiseKept (openLink u) 0 (startBody (openLink u))
      w0 := [{ record := 0, kind := .start, tag := 0, unit := none, pos := none, witnessed := false, resent := false }] } := by
  have hpromise : (openLink u).pool.recs[(0 : RecId)].promise = some 0 := hrec
  have hw0 : (openLink u).w0 = [] := hw
  rw [startUp, h]
  dsimp only
  rw [hu, completePromise_eq, hpromise, State.pushW]
  dsimp only
  rw [hw0]
  rfl

/-- R17: the START record once its notice is completed. -/
theorem promiseKept_start {t : State} (hrec : t.pool.recs[(0 : RecId)] = startRec) (hm : memWf t.pool.mem = true) (ht : t.time.mono = 0)
    {body : List Byte} (hb : body.length = 5) :
    (promiseKept t 0 body).recs[(0 : RecId)] = { startRec with state := .stored, len := 5 } ∧
      (promiseKept t 0 body).body 0 = body ∧ ∀ x : RecId, x ≠ 0 → (promiseKept t 0 body).recs[x] = t.pool.recs[x] := by
  have hself : (promiseKept t 0 body).recs[(0 : RecId)] = { startRec with state := .stored, len := 5 } := by
    rw [promiseKept_eq, recs_set_get, if_pos rfl, hrec, ht, hb]
    rfl
  have hmem : (promiseKept t 0 body).mem = memWriteBody t.pool.mem [0] 0 body := by
    show memWriteBody t.pool.mem t.pool.recs[(0 : RecId)].chunks 0 body = _
    rw [hrec]
    rfl
  refine ⟨hself, ?_, fun x hx => ?_⟩
  · rw [Pool.body, hself, hmem]
    exact hb ▸ memReadBody_writeBody (List.nodup_singleton 0) hm (by rw [List.length_singleton]; omega)
  · rw [promiseKept_eq, recs_set_get, if_neg (Ne.symm hx)]

theorem startedUp_startUp {s : State} {st : Store} (hin : inReset s) (hpin : s.resetPin = false) (hm : memorySound s.pool)
    (hst : storeSound st) (hstore : s.store = { st with commit := none }) :
    startedUp s.resetCause s.straps st (startUp s) := by
  obtain ⟨p, heq, hnone, hmem⟩ := reserve_startProfile hin
  obtain ⟨htime, -, -, hdir, hw0, hw1, hw2, hfan, hhits, hentry, hcard, hlink, -⟩ := hin
  have hprof : (startProfile s).profile = profileOf s.straps.pdef st := by
    show chosenProfile (profileChoice s.straps.pdef s.store.state) s.store = _
    rw [hstore, profileChoice_eq]
    exact chosenProfile_eq s.straps.pdef { st with commit := none }
  have hout : (startProfile s).profileOutcome = outcomeOf s.straps.pdef st.state := by
    show profileChoice s.straps.pdef s.store.state = _
    rw [hstore, profileChoice_eq]
  have hmono : s.time.mono = 0 := congrArg TimeBase.mono htime
  have hall := linesBegun_all (s := { startProfile s with pool := p }) (by rw [hprof]; exact profileSound_profileOf hst _)
    (fun e => by
      rw [show ({ startProfile s with pool := p } : State).dir = _ from hdir, Fin.getElem_fin, Vector.getElem_replicate]
      exact EntryState.noConfusion) hmono hnone
  generalize hu : startLines { startProfile s with pool := p } = u at hall
  have hrun := startUp_eq heq hu (by rw [hall.start]; rfl) (by rw [hall.frame]; exact hw0)
  have hbody : (startBody (openLink u)).length = 5 := rfl
  obtain ⟨hrec, hread, hothers⟩ := promiseKept_start (t := openLink u) hall.start (by
    rw [show (openLink u).pool.mem = _ from hall.mem.trans hmem]
    exact hm) (by rw [show (openLink u).time.mono = u.time.mono from rfl, hall.frame]; exact hmono) hbody
  obtain ⟨q, lines, rfl⟩ : ∃ q lines, u = { startProfile s with pool := q, lines := lines } := ⟨u.pool, u.lines, hall.frame⟩
  have hstart : startBody (openLink { startProfile s with pool := q, lines := lines }) =
      [s.resetCause.code, (outcomeOf s.straps.pdef st.state).code, st.state.code, byteOf s.straps.lrate.toNat,
       byteOf ((allLines.map fun l => if (profileOf s.straps.pdef st).lines[l].enabled then 2 ^ l.val else 0).sum)] := by
    rw [← hout, ← hprof, show st.state = s.store.state by rw [hstore]]
    rfl
  have hopen : (openLink { startProfile s with pool := q, lines := lines }).time =
      { resetTime with
        timer := if (profileOf s.straps.pdef st).wsSilence = 0 then none
          else some (1000 * (profileOf s.straps.pdef st).wsSilence) } := by
    rw [← hprof, ← htime]
    rfl
  have hlinkOn : (openLink { startProfile s with pool := q, lines := lines }).link = { resetLink with rxOn := true } := by
    rw [← hlink]
    rfl
  rw [hrun]
  refine ⟨rfl, hpin, rfl, rfl, hout, rfl, hprof, hstore, hopen, hlinkOn, hdir, hentry, hcard, hhits, hfan, hw1, hw2, rfl, hrec,
    hread.trans hstart, fun l => ?_⟩
  rw [← hprof]
  refine lineStarted_of_recs (fun x _ hkind => hothers x fun h0 => ?_) (hall.begun l (by revert l; decide))
  subst h0
  have hrec0 := congrArg Rec.kind hall.start
  cases hrec0.symm.trans hkind

/-- Settles O5: the three causes of a start-up, each from a state in reset. -/
theorem startUpFollowsReset : Obligations.StartUpFollowsReset := by
  unfold Obligations.StartUpFollowsReset
  intro s x hm hst
  refine ⟨fun hpin hin => ⟨startUp { s with resetPin := false, straps := x }, ?_, ?_, ?_⟩,
    ⟨startUp { doReset s .powerOn with resetPin := false, straps := x }, exec_powerOn_false s x, ?_, ?_⟩,
    fun i bytes hrun hpin hpend htx htype hstatus => ⟨startUp (doReset (s.modLink fun k => { k with tx := none }) .restart), ?_, ?_, ?_⟩⟩
  · rw [exec, execResetReleased, hpin]
    rfl
  · have hnone : s.store = { s.store with commit := none } := by
      obtain ⟨-, -, -, -, -, -, -, -, -, -, -, -, hc⟩ := hin
      rw [← hc]
    exact startedUp_startUp (s := { s with resetPin := false, straps := x }) hin rfl hm hst hnone
  · have h := startedFrom_startUp { s with resetPin := false, straps := x }
    exact ⟨h.pending, h.oracle, h.pausePin⟩
  · exact startedUp_startUp (s := { doReset s .powerOn with resetPin := false, straps := x }) (inReset_doReset s .powerOn) rfl
      (memorySound_resetPool hm) hst rfl
  · have h := startedFrom_startUp { doReset s .powerOn with resetPin := false, straps := x }
    exact ⟨h.pending, h.oracle, h.pausePin⟩
  · have hreply : isRestartReply s.link i = true := by
      rw [isRestartReply, hpend, htype, hstatus]
      rfl
    rw [exec, execLinkRecordSent, htx]
    dsimp only
    rw [hrun, if_pos rfl, recordSent]
    dsimp only
    rw [hreply, if_pos rfl, restartNow]
  · exact startedUp_startUp (s := doReset (s.modLink fun k => { k with tx := none }) .restart) (inReset_doReset _ .restart) hpin
      (memorySound_resetPool hm) hst rfl
  · have h := startedFrom_startUp (doReset (s.modLink fun k => { k with tx := none }) .restart)
    exact ⟨h.pending, h.oracle, h.pausePin⟩

end Sys2Proof.Machine

/-! # The link transmitter (5.5, 5.6, 9.6): O8, O9, O10, O11 -/

namespace Sys2Proof.Machine

/-! ## The first of an ascending list -/

/-- The first item with a property, in a list that ascends through all items. -/
theorem find?_ascending {n : Nat} {l : List (Fin n)} (hs : l.Pairwise (· < ·)) (hm : ∀ i, i ∈ l) {p : Fin n → Bool} {i : Fin n} :
    l.find? p = some i ↔ p i = true ∧ ∀ j < i, p j = false := by
  rw [List.find?_eq_some_iff_append]
  refine ⟨fun ⟨hp, before, after, hl, hb⟩ => ⟨hp, fun j hj => ?_⟩, fun ⟨hp, hlow⟩ => ⟨hp, ?_⟩⟩
  · have hjl := hm j
    rw [hl] at hjl hs
    rcases List.mem_append.mp hjl with hjb | hja
    · simpa using hb j hjb
    · have hle : i ≤ j := by
        rcases List.mem_cons.mp hja with rfl | hja
        · exact le_refl _
        · exact ((List.pairwise_cons.mp (List.pairwise_append.mp hs).2.1).1 j hja).le
      exact absurd hj (not_lt.mpr hle)
  · obtain ⟨before, after, hl⟩ := List.append_of_mem (hm i)
    refine ⟨before, after, hl, fun j hj => ?_⟩
    rw [hl] at hs
    have := (List.pairwise_append.mp hs).2.2 j hj i List.mem_cons_self
    simpa using hlow j this

/-- None of them has it. -/
theorem find?_all_none {n : Nat} {l : List (Fin n)} (hm : ∀ i, i ∈ l) {p : Fin n → Bool} :
    l.find? p = none ↔ ∀ i, p i = false := by
  rw [List.find?_eq_none]
  exact ⟨fun h i => by simpa using h i (hm i), fun h i _ => by simp [h i]⟩

theorem allEntries_ascending : allEntries.Pairwise (· < ·) := by decide
theorem allLines_ascending : allLines.Pairwise (· < ·) := by decide
theorem allPos_ascending : allPos.Pairwise (· < ·) := by decide
theorem allSlots_ascending : allSlots.Pairwise (· < ·) := by decide

theorem mem_allLines (l : LineId) : l ∈ allLines := by
  revert l
  decide

theorem mem_allSlots (i : SlotId) : i ∈ allSlots := by
  revert i
  decide

/-! ## The choice (R106) -/

theorem pauseReleased_chooses {s : State} (h : s.running = true) :
    exec .pauseReleased s = .next (settleLink { s with pausePin := false }) := pauseGatesTheTransmitter.2.1 s h

section
variable {s : State} (htx : s.link.tx = none) (hpause : s.pausePin = false)
include htx hpause

theorem settleLink_free :
    settleLink s = match oldestReply s.link with
      | some i => sendReply s i
      | none =>
        match firstMark s with
        | some m => sendMark s m
        | none =>
          match noticeChoice s with
          | some q => sendNotice s q
          | none => s := by
  rw [settleLink, htx, hpause]
  rfl

theorem settleLink_reply {i : SlotId} (h : oldestReply s.link = some i) : settleLink s = sendReply s i := by
  rw [settleLink_free htx hpause, h]

theorem settleLink_mark {m : MarkItem} (hr : oldestReply s.link = none) (h : firstMark s = some m) : settleLink s = sendMark s m := by
  rw [settleLink_free htx hpause, hr]
  dsimp only
  rw [h]

theorem settleLink_notice {q : Cls} (hr : oldestReply s.link = none) (hm : firstMark s = none) (h : noticeChoice s = some q) :
    settleLink s = sendNotice s q := by
  rw [settleLink_free htx hpause, hr]
  dsimp only
  rw [hm]
  dsimp only
  rw [h]

theorem settleLink_nothing (hr : oldestReply s.link = none) (hm : firstMark s = none) (h : noticeChoice s = none) :
    settleLink s = s := by
  rw [settleLink_free htx hpause, hr]
  dsimp only
  rw [hm]
  dsimp only
  rw [h]

end

/-! ## Replies -/

/-- R106: the oldest finished reply. -/
theorem oldestReply_of_order {k : Link} {i : SlotId} {earlier later : List SlotId} (h : k.order = earlier ++ i :: later)
    (hi : k.slots[i].state = .replied) (he : ∀ j ∈ earlier, k.slots[j].state ≠ .replied) : oldestReply k = some i := by
  rw [oldestReply, List.find?_eq_some_iff_append]
  exact ⟨beq_iff_eq.mpr hi, earlier, later, h, fun j hj => by rw [Bool.not_eq_true']; exact beq_eq_false_iff_ne.mpr (he j hj)⟩

theorem oldestReply_none {k : Link} (h : ∀ i ∈ k.order, k.slots[i].state ≠ .replied) : oldestReply k = none := by
  rw [oldestReply, List.find?_eq_none]
  exact fun i hi => by rw [Bool.not_eq_true]; exact beq_eq_false_iff_ne.mpr (h i hi)

theorem byteSum_append (a b : List Byte) : byteSum (a ++ b) = byteSum a + byteSum b := by
  unfold byteSum
  induction a with
  | nil => simp
  | cons x a ih => simp only [List.cons_append, List.foldr_cons, ih, BitVec.add_assoc]

/-- R50, R168: the check byte makes the sum 0. -/
theorem byteSum_check (a : List Byte) : byteSum (a ++ [checkByte a]) = 0 := by
  rw [byteSum_append, checkByte]
  show byteSum a + (-byteSum a + 0#8) = 0#8
  rw [BitVec.add_zero, BitVec.add_right_neg]

/-- Settles O8: the choice's first place, and the check of every record. -/
theorem oldestReplyLeavesFirst : Obligations.OldestReplyLeavesFirst := by
  unfold Obligations.OldestReplyLeavesFirst
  refine ⟨fun s i earlier later hrun htx horder hi hearlier => ?_, fun type tag body => ⟨rfl, by simp [linkRecord], ?_⟩⟩
  · rw [pauseReleased_chooses hrun, settleLink_reply (s := { s with pausePin := false }) htx rfl
      (oldestReply_of_order horder hi hearlier)]
    rfl
  · exact byteSum_check (type :: tag :: byteOf body.length :: body)

/-! ## Marks (R107) -/

section
variable {s : State}

theorem firstMark_unit {e : EntryId} (h : s.dir[e].mark = true) (hlow : ∀ f < e, s.dir[f].mark = false) :
    firstMark s = some (.unit e) := by
  have hfind : allEntries.find? (s.markSet ∘ MarkItem.unit) = some e :=
    (find?_ascending allEntries_ascending mem_allEntries).mpr ⟨h, hlow⟩
  simp only [firstMark, markScan, List.find?_append, List.find?_map, hfind, Option.map_some, Option.some_or]

theorem unitMark_none (h : ∀ e : EntryId, s.dir[e].mark = false) : allEntries.find? (s.markSet ∘ MarkItem.unit) = none :=
  (find?_all_none mem_allEntries).mpr h

theorem firstMark_line {l : LineId} (hd : ∀ e : EntryId, s.dir[e].mark = false) (h : s.lines[l].mark = true)
    (hlow : ∀ k < l, s.lines[k].mark = false) : firstMark s = some (.line l) := by
  have hfind : allLines.find? (s.markSet ∘ MarkItem.line) = some l :=
    (find?_ascending allLines_ascending mem_allLines).mpr ⟨h, hlow⟩
  simp only [firstMark, markScan, List.find?_append, List.find?_map, unitMark_none hd, hfind, Option.map_some, Option.map_none,
    Option.some_or, Option.none_or]

theorem lineMark_none (h : ∀ l : LineId, s.lines[l].mark = false) : allLines.find? (s.markSet ∘ MarkItem.line) = none :=
  (find?_all_none mem_allLines).mpr h

theorem firstMark_card {p : Pos} (hd : ∀ e : EntryId, s.dir[e].mark = false) (hl : ∀ l : LineId, s.lines[l].mark = false)
    (h : s.card[p].mark = true) (hlow : ∀ q < p, s.card[q].mark = false) : firstMark s = some (.card p) := by
  have hfind : allPos.find? (s.markSet ∘ MarkItem.card) = some p :=
    (find?_ascending allPos_ascending mem_allPos).mpr ⟨h, hlow⟩
  simp only [firstMark, markScan, List.find?_append, List.find?_map, unitMark_none hd, lineMark_none hl, hfind, Option.map_some,
    Option.map_none, Option.some_or, Option.none_or]

theorem cardMark_none (h : ∀ p : Pos, s.card[p].mark = false) : allPos.find? (s.markSet ∘ MarkItem.card) = none :=
  (find?_all_none mem_allPos).mpr h

theorem firstMark_attendance (hd : ∀ e : EntryId, s.dir[e].mark = false) (hl : ∀ l : LineId, s.lines[l].mark = false)
    (hc : ∀ p : Pos, s.card[p].mark = false) :
    firstMark s = if s.time.mark then some .attendance else none := by
  simp only [firstMark, markScan, List.find?_append, List.find?_map, unitMark_none hd, lineMark_none hl, cardMark_none hc,
    Option.map_none, Option.none_or, List.find?_singleton]
  rfl

end

/-- R106, R107: the transmitter of a running part sends the first mark when no reply is finished. -/
theorem pauseReleased_mark {s : State} {m : MarkItem} (hrun : s.running = true) (htx : s.link.tx = none)
    (hr : ∀ i ∈ s.link.order, s.link.slots[i].state ≠ .replied) (h : firstMark s = some m) :
    exec .pauseReleased s = .next (sendMark { s with pausePin := false } m) := by
  rw [pauseReleased_chooses hrun, settleLink_mark (s := { s with pausePin := false }) htx rfl (oldestReply_none hr) h]

/-- Settles O9: the first mark in each of the four parts of the scan. -/
theorem stateNoticeFollowsReplies : Obligations.StateNoticeFollowsReplies := by
  unfold Obligations.StateNoticeFollowsReplies
  intro s hrun htx hr
  have send := fun m => pauseReleased_mark (m := m) hrun htx hr
  refine ⟨fun e he hlow => ?_, fun hd => ⟨fun l hl hlow => ?_, fun hl => ⟨fun p hp hlow => ?_, fun hc ht => ?_⟩⟩⟩
  · rw [send _ (firstMark_unit he hlow)]
    rfl
  · rw [send _ (firstMark_line hd hl hlow)]
    rfl
  · rw [send _ (firstMark_card hd hl hp hlow)]
    rfl
  · rw [send .attendance (by rw [firstMark_attendance hd hl hc, ht]; rfl)]
    rfl

/-! ## Notices (R106, R108) -/

theorem bulkAged_cons {s : State} {n : Notice} {rest : List Notice} (h : s.w2 = n :: rest) :
    bulkAged s = decide (s.profile.bulkAge < elapsed s.time.mono s.pool.recs[n.record].arrival) := by
  rw [bulkAged, h]
  rfl

theorem bulkAged_false {s : State} (h : ∀ m ∈ s.w2.head?, elapsed s.time.mono s.pool.recs[m.record].arrival ≤ s.profile.bulkAge) :
    bulkAged s = false := by
  unfold bulkAged
  split
  · rfl
  · rename_i n rest hw
    rw [hw] at h
    exact decide_eq_false (not_lt.mpr (h n rfl))

/-- R178: the head of each workstation queue, taken. -/
theorem sendNotice_head {s : State} {n : Notice} {rest : List Notice} :
    (s.w0 = n :: rest → sendNotice s 0 = { s with w0 := rest, link := sending s (.notice n.record) (noticeRecord s n) }) ∧
      (s.w1 = n :: rest → sendNotice s 1 = { s with w1 := rest, link := sending s (.notice n.record) (noticeRecord s n) }) ∧
      (s.w2 = n :: rest → sendNotice s 2 = { s with w2 := rest, link := sending s (.notice n.record) (noticeRecord s n) }) := by
  refine ⟨fun h => ?_, fun h => ?_, fun h => ?_⟩
  · rw [sendNotice, show s.wqueue 0 = n :: rest from h, show dropHead s 0 = { s with w0 := s.w0.drop 1 } from rfl, h]
    rfl
  · rw [sendNotice, show s.wqueue 1 = n :: rest from h, show dropHead s 1 = { s with w1 := s.w1.drop 1 } from rfl, h]
    rfl
  · rw [sendNotice, show s.wqueue 2 = n :: rest from h, show dropHead s 2 = { s with w2 := s.w2.drop 1 } from rfl, h]
    rfl

/-- Settles O10: the four places of the queues, and the stamp of a notice. -/
theorem noticeQueuesInServiceOrder : Obligations.NoticeQueuesInServiceOrder := by
  unfold Obligations.NoticeQueuesInServiceOrder
  refine ⟨fun s hrun htx hr hd hl hc ht => ?_, fun s n => ?_⟩
  · have mark : firstMark s = none := by rw [firstMark_attendance hd hl hc, ht]; rfl
    have send : ∀ {q : Cls}, noticeChoice s = some q →
        exec .pauseReleased s = .next (sendNotice { s with pausePin := false } q) := fun h => by
      rw [pauseReleased_chooses hrun, settleLink_notice (s := { s with pausePin := false }) htx rfl (oldestReply_none hr) mark h]
    refine ⟨fun n rest h => ?_, fun h0 => ⟨fun n rest h2 hage => ?_, fun hyoung =>
      ⟨fun n rest h1 => ?_, fun h1 n rest h2 => ?_, fun h1 h2 => ?_⟩⟩⟩
    · rw [send (q := 0) (by rw [noticeChoice, h]; rfl), (sendNotice_head (s := { s with pausePin := false })).1 h]
      rfl
    · rw [send (q := 2) (by rw [noticeChoice, h0, bulkAged_cons h2, decide_eq_true hage]; rfl), (sendNotice_head (s := { s with pausePin := false })).2.2 h2]
      rfl
    · rw [send (q := 1) (by rw [noticeChoice, h0, bulkAged_false hyoung, h1]; rfl), (sendNotice_head (s := { s with pausePin := false })).2.1 h1]
      rfl
    · rw [send (q := 2) (by rw [noticeChoice, h0, bulkAged_false hyoung, h1, h2]; rfl), (sendNotice_head (s := { s with pausePin := false })).2.2 h2]
      rfl
    · rw [pauseReleased_chooses hrun, settleLink_nothing (s := { s with pausePin := false }) htx rfl (oldestReply_none hr) mark
        (by
          show noticeChoice s = none
          rw [noticeChoice, h0, bulkAged_false hyoung, h1, h2]
          rfl)]
  · have hkind : (n.kind.ofUnit = true) = (n.kind = .key ∨ n.kind = .cardMove ∨ n.kind = .track ∨ n.kind = .alert ∨ n.kind = .data) := by
      cases n.kind <;> simp [NoticeKind.ofUnit]
    simp only [noticeRecord, hkind]
    rfl

/-! ## The end of a record (R178) -/

theorem dropRef_shared {p : Pool} {r : RecId} (h : 2 ≤ p.recs[r].refs) :
    p.dropRef r = p.modRec r fun x => { x with refs := x.refs - 1 } := by
  rw [Pool.dropRef, if_neg (by omega)]

theorem dropRef_last {p : Pool} {r : RecId} (h : p.recs[r].refs ≤ 1) : p.dropRef r = p.release r := by
  rw [Pool.dropRef, if_pos h]

theorem linkRecordSent_eq {s : State} {x : LinkTx} (hrun : s.running = true) (htx : s.link.tx = some x) :
    exec .linkRecordSent s = .next (recordSent s x) := by
  rw [exec, execLinkRecordSent, htx]
  dsimp only
  rw [hrun, if_pos rfl]

/-- Settles O11: by the source of the record that has ended. -/
theorem sentRecordFreesItsHolder : Obligations.SentRecordFreesItsHolder := by
  unfold Obligations.SentRecordFreesItsHolder
  intro s bytes hrun
  refine ⟨fun i htx hno => ?_, fun r htx hrefs => ?_, fun r htx hrefs => ?_, fun htx => ?_⟩
  · have hreply : isRestartReply s.link i = false := by
      rw [isRestartReply, Bool.eq_false_iff]
      simpa [and_assoc] using hno
    rw [linkRecordSent_eq hrun htx, recordSent]
    dsimp only
    rw [hreply, if_neg Bool.false_ne_true]
    rfl
  · rw [linkRecordSent_eq hrun htx, recordSent]
    show Host.Outcome.next (settleLink { s with link := { s.link with tx := none }, pool := s.pool.dropRef r }) = _
    rw [dropRef_shared hrefs]
    rfl
  · rw [linkRecordSent_eq hrun htx, recordSent]
    show Host.Outcome.next (settleLink { s with link := { s.link with tx := none }, pool := s.pool.dropRef r }) = _
    rw [dropRef_last hrefs.le]
    rfl
  · rw [linkRecordSent_eq hrun htx, recordSent]
    rfl

end Sys2Proof.Machine

/-! # The link receiver (9.1, 9.3, 9.4): O12, O13, O14 -/

namespace Sys2Proof.Machine

/-! ## Characters (R167) -/

theorem natOfBits_byte : ∀ b : Byte, byteOf (natOfBits [b.getLsbD 0, b.getLsbD 1, b.getLsbD 2, b.getLsbD 3, b.getLsbD 4, b.getLsbD 5,
    b.getLsbD 6, b.getLsbD 7]) = b := by
  decide

/-- R167: the byte that a character brings. -/
theorem linkByte_of_brings {k : Link} {c : LinkChar} {b : Byte} (h : bringsByte k c b) : linkByte c = b := by
  obtain ⟨-, -, -, hbits⟩ := h
  have hb := natOfBits_byte b
  rw [show b.getLsbD 0 = c.d0 from hbits 0, show b.getLsbD 1 = c.d1 from hbits 1, show b.getLsbD 2 = c.d2 from hbits 2,
    show b.getLsbD 3 = c.d3 from hbits 3, show b.getLsbD 4 = c.d4 from hbits 4, show b.getLsbD 5 = c.d5 from hbits 5,
    show b.getLsbD 6 = c.d6 from hbits 6, show b.getLsbD 7 = c.d7 from hbits 7] at hb
  exact hb

theorem byteEffect_nil (b : Byte) : byteEffect [] b = .assembles := rfl

theorem byteEffect_cons (x b : Byte) (inner : List Byte) :
    byteEffect (x :: inner) b = match judge (inner ++ [b]) with
      | .incomplete => .assembles
      | .damaged => .abandons
      | .wellFormed _ => .completes := rfl

section
variable {s : State} (hrun : s.running = true) (hrx : s.link.rxOn = true)
include hrun hrx

theorem linkOn_of : s.linkOn = true := by rw [State.linkOn, hrun, hrx]; rfl

/-- R167: whether the receiver sees a character. -/
theorem linkSees_of {c : LinkChar} (h : c.marked = true ∨ s.link.awaitMark = false) : s.linkSees c = true := by
  rw [State.linkSees, linkOn_of hrun hrx]
  rcases h with h | h <;> simp [h]

theorem linkBrings_of {c : LinkChar} {b : Byte} (h : bringsByte s.link c b) (e : ByteEffect) :
    linkBrings s c e = (byteEffect s.link.asm b == e) := by
  have hb := linkByte_of_brings h
  obtain ⟨hsees, hstart, hstop, -⟩ := h
  rw [linkBrings, linkSees_of hrun hrx hsees, hb, linkGood, hstart, hstop]
  rfl

/-- R169: a byte that neither completes nor abandons a record. -/
theorem linkByteReceived_assembles {c : LinkChar} {b : Byte} (h : bringsByte s.link c b) (he : byteEffect s.link.asm b = .assembles) :
    exec (.linkByteReceived c) s = .next
      (scan (s.link.asm ++ [b]) 0 { s with link := { s.link with asm := [], awaitMark := false } }) := by
  rw [exec, execLinkByteReceived, linkBrings_of hrun hrx h, he, if_pos (beq_self_eq_true _), receiveChar10, linkByte_of_brings h]
  rfl

/-- R172: the byte that completes a record. -/
theorem recordReceived_completes {c : LinkChar} {b : Byte} (h : bringsByte s.link c b) (he : byteEffect s.link.asm b = .completes) :
    exec (.recordReceived c) s = .next (settleLink
      (scan (s.link.asm ++ [b]) 0 { s with link := { s.link with asm := [], awaitMark := false } })) := by
  rw [exec, execRecordReceived, linkBrings_of hrun hrx h, he, if_pos (beq_self_eq_true _), receiveChar10, linkByte_of_brings h]
  rfl

/-- R170: the byte at which a record is abandoned. -/
theorem recordDamaged_abandons {c : LinkChar} {b : Byte} (h : bringsByte s.link c b) (he : byteEffect s.link.asm b = .abandons) :
    exec (.recordDamaged c) s = .next (settleLink
      (scan (s.link.asm ++ [b]) 0 { s with link := { s.link with asm := [], awaitMark := false } })) := by
  rw [exec, execRecordDamaged, linkBrings_of hrun hrx h, he, if_pos (beq_self_eq_true _), receiveChar10, linkByte_of_brings h]
  rfl

/-- R169: a byte of an open record is stored while the record stays open. -/
theorem linkByteReceived_open {c : LinkChar} {b : Byte} (h : bringsByte s.link c b) {inner : List Byte}
    (hasm : s.link.asm = 0xC3 :: inner) (ho : stillOpen (inner ++ [b])) :
    exec (.linkByteReceived c) s = .next { s with link := { s.link with asm := 0xC3 :: (inner ++ [b]), awaitMark := false } } := by
  have hj := judge_stillOpen ho
  rw [linkByteReceived_assembles hrun hrx h (by rw [hasm, byteEffect_cons, hj]), hasm]
  exact congrArg _ (scan_of_rescanned (.opened [] (inner ++ [b]) _ List.not_mem_nil ho))

/-- R167: a character that the receiver waiting for mark does not see. -/
theorem linkUnseen {c : LinkChar} (hm : c.marked = false) (ha : s.link.awaitMark = true) :
    ∀ i ∈ [Instr.linkByteReceived c, .recordReceived c, .recordDamaged c, .linkFramingError c], exec i s = .next s := by
  have hsees : s.linkSees c = false := by rw [State.linkSees, linkOn_of hrun hrx, hm, ha]; rfl
  have hbrings : ∀ e, linkBrings s c e = false := fun e => by rw [linkBrings, hsees]; rfl
  simp only [List.forall_mem_cons, List.not_mem_nil, false_implies, implies_true, and_true]
  refine ⟨?_, ?_, ?_, ?_⟩
  · rw [exec, execLinkByteReceived, hbrings, hsees]
    rfl
  · rw [exec, execRecordReceived, hbrings]
    rfl
  · rw [exec, execRecordDamaged, hbrings]
    rfl
  · rw [exec, execLinkFramingError, hsees]
    rfl

end

theorem abandonRecord_eq (s : State) :
    abandonRecord s = { s with
      link := { s.link with
        asm := [], damaged := if s.link.asm = [] then s.link.damaged else min 255 (s.link.damaged + 1) } } := by
  unfold abandonRecord
  cases h : s.link.asm with
  | nil =>
    rw [if_pos rfl, List.isEmpty_nil, if_pos rfl, ← h]
  | cons b bs => rfl

/-- R167: TXD through the ten bits of a byte. -/
theorem txd_bits {k : Link} {x : LinkTx} {n : Nat} (hx : k.tx = some x) (hn : n < x.bytes.length) :
    (List.range 10).map (k.txd n) = false :: ((List.range 8).map (x.bytes.getD n 0).getLsbD ++ [true]) := by
  have htxd : ∀ j, k.txd n j = linkSentBit (x.bytes.getD n 0) j := fun j => by
    rw [Link.txd, hx]
    dsimp only
    rw [decide_eq_false (by omega), Bool.false_or]
  rw [show k.txd n = linkSentBit (x.bytes.getD n 0) from funext htxd]
  rfl

/-- Settles O12: the transmitted levels, and each place of the receiver. -/
theorem linkBytesAssemble : Obligations.LinkBytesAssemble := by
  unfold Obligations.LinkBytesAssemble
  refine ⟨fun k x n j h => ?_, fun k x n hx hn => txd_bits hx hn, fun s hrun hrx => ⟨fun c b h => ⟨fun hasm hb => ?_, fun hasm hb => ?_,
    fun hasm => ?_, fun t hasm => ?_, fun t g hasm hb => ?_, fun t g n body hasm hn hlen => ?_⟩, fun c hsees hstart => ?_,
    fun c hsees hstart hstop => ?_, fun c hm ha => linkUnseen hrun hrx hm ha, fun hasm => ?_⟩⟩
  · rcases h with h | ⟨h, hn⟩
    · rw [Link.txd, h]
    · rw [Link.txd, h]
      dsimp only
      rw [decide_eq_true hn, Bool.true_or]
  · rw [linkByteReceived_assembles hrun hrx h (by rw [hasm, byteEffect_nil]), hasm]
    refine congrArg _ ((scan_of_rescanned (.hunting [b] _ fun hmem => hb (List.mem_singleton.mp hmem).symm)).trans ?_)
    rw [← hasm]
  · rw [linkByteReceived_assembles hrun hrx h (by rw [hasm, byteEffect_nil]), hasm, hb]
    exact congrArg _ (scan_of_rescanned (.opened [] [] _ List.not_mem_nil trivial))
  · exact linkByteReceived_open hrun hrx h hasm trivial
  · exact linkByteReceived_open hrun hrx h hasm trivial
  · exact linkByteReceived_open hrun hrx h hasm ⟨hb, Nat.zero_le _⟩
  · exact linkByteReceived_open hrun hrx h hasm ⟨hn, by change (body ++ [b]).length ≤ n.toNat; rw [List.length_append, List.length_singleton]; omega⟩
  · have hgood : ∀ e, linkBrings s c e = false := fun e => by rw [linkBrings, linkSees_of hrun hrx hsees, linkGood, hstart]; rfl
    rw [exec, execLinkByteReceived, hgood, linkSees_of hrun hrx hsees, linkFalseStart, hstart]
    rfl
  · rw [exec, execLinkFramingError, linkSees_of hrun hrx hsees, linkFramingBad, hstart, hstop, framingEnds, abandonRecord_eq]
    rfl
  · rw [exec, execLinkGapExpiry, linkOn_of hrun hrx, abandonRecord_eq, if_neg hasm]
    cases ha : s.link.asm with
    | nil => exact absurd ha hasm
    | cons b bs => rfl

/-! ## Well-formed records (R172, R173) -/

/-- R169: the check byte of a well-formed record. -/
theorem byteEffect_completes {asm : List Byte} {t g n b : Byte} {body : List Byte} (hasm : asm = 0xC3 :: t :: g :: n :: body)
    (hlen : body.length = n.toNat) (hn : n.toNat ≤ 250) (hk : byteSum (t :: g :: n :: body ++ [b]) = 0) :
    byteEffect asm b = .completes := by
  have hj := judge_wellFormed ⟨hlen, hn⟩ hk []
  rw [hasm, byteEffect_cons]
  exact congrArg (fun j => match j with
    | .incomplete => ByteEffect.assembles
    | .damaged => .abandons
    | .wellFormed _ => .completes) hj

theorem recordReceived_settled {s u : State} {c : LinkChar} {t g n b : Byte} {body : List Byte} (h : bringsByte s.link c b)
    (hrun : s.running = true) (hrx : s.link.rxOn = true) (hasm : s.link.asm = 0xC3 :: t :: g :: n :: body)
    (hlen : body.length = n.toNat) (hn : n.toNat ≤ 250) (hk : byteSum (t :: g :: n :: body ++ [b]) = 0)
    (hu : Settled { s with link := { s.link with asm := [], awaitMark := false } } t g body u) :
    exec (.recordReceived c) s = .next (settleLink u) := by
  rw [recordReceived_completes hrun hrx h (byteEffect_completes hasm hlen hn hk), hasm]
  exact congrArg (fun t => Host.Outcome.next (settleLink t)) (scan_of_rescanned
    (.settled [] body [] t g n b _ u u List.not_mem_nil ⟨hlen, hn⟩ hk hu (.hunting [] u List.not_mem_nil)))

/-- Settles O13: a completed record is settled by `Settled`, whatever its type. -/
theorem wellFormedRecordIsSettled : Obligations.WellFormedRecordIsSettled := by
  unfold Obligations.WellFormedRecordIsSettled
  refine ⟨fun s c t g n b body i h hrun hrx hasm hlen hn hk ht1 ht2 hpend hi hlow => ?_,
    fun s c t g n b body h hrun hrx hasm hlen hn hk hdrop => ?_⟩
  · rw [recordReceived_settled h hrun hrx hasm hlen hn hk (.taken i ⟨ht1, ht2⟩ hpend hi hlow)]
    rfl
  · rw [recordReceived_settled h hrun hrx hasm hlen hn hk (.dropped hdrop)]
    rfl

/-! ## Rescan (R170) -/

/-- The first lead of a run of bytes. -/
theorem firstLead (bs : List Byte) :
    (0xC3 : Byte) ∉ bs ∨ ∃ before rest, bs = before ++ 0xC3 :: rest ∧ (0xC3 : Byte) ∉ before := by
  induction bs with
  | nil => exact .inl List.not_mem_nil
  | cons b bs ih =>
    by_cases hb : b = 0xC3
    · exact .inr ⟨[], bs, by rw [hb]; rfl, List.not_mem_nil⟩
    · rcases ih with h | ⟨before, rest, rfl, h⟩
      · exact .inl fun hmem => (List.mem_cons.mp hmem).elim (fun e => hb e.symm) h
      · exact .inr ⟨b :: before, rest, rfl, fun hmem => (List.mem_cons.mp hmem).elim (fun e => hb e.symm) h⟩

/-- R169: the bytes after a lead are of an open record, or begin with a damaged one, or begin with a well-formed one. -/
theorem afterLead (rest : List Byte) :
    stillOpen rest ∨ (∃ inner b tail, rest = inner ++ b :: tail ∧ damagedBy inner b) ∨
      ∃ t g n k body tail, rest = t :: g :: n :: (body ++ k :: tail) ∧ (body.length = n.toNat ∧ n.toNat ≤ 250) ∧
        byteSum (t :: g :: n :: body ++ [k]) = 0 := by
  match rest with
  | [] | [_] | [_, _] => exact .inl trivial
  | t :: g :: n :: body =>
    by_cases hn : n.toNat ≤ 250
    · by_cases hb : body.length ≤ n.toNat
      · exact .inl ⟨hn, hb⟩
      · have hlen : n.toNat < body.length := by omega
        have hsplit : body = body.take n.toNat ++ body[n.toNat] :: body.drop (n.toNat + 1) := by
          rw [List.getElem_cons_drop, List.take_append_drop]
        have htake : (body.take n.toNat).length = n.toNat := by rw [List.length_take]; omega
        by_cases hk : byteSum (t :: g :: n :: body.take n.toNat ++ [body[n.toNat]]) = 0
        · exact .inr (.inr ⟨t, g, n, _, _, _, congrArg (fun x => t :: g :: n :: x) hsplit, ⟨htake, hn⟩, hk⟩)
        · exact .inr (.inl ⟨t :: g :: n :: body.take n.toNat, body[n.toNat], body.drop (n.toNat + 1),
            congrArg (fun x => t :: g :: n :: x) hsplit, hn, htake, hk⟩)
    · exact .inr (.inl ⟨[t, g], n, body, rfl, show 250 < n.toNat by omega⟩)

theorem settled_exists (s : State) (t g : Byte) (body : List Byte) : ∃ u, Settled s t g body u := by
  by_cases hd : t.toNat = 0 ∨ 0x40 ≤ t.toNat ∨ s.link.restartPending = true ∨ ∀ i : SlotId, s.link.slots[i].state ≠ .free
  · exact ⟨_, .dropped hd⟩
  · simp only [not_or, not_forall, not_not, Bool.not_eq_true] at hd
    obtain ⟨h0, h40, hpend, hfree⟩ := hd
    cases hslot : freeSlotOf s.link with
    | none =>
      obtain ⟨i, hi⟩ := hfree
      have := (find?_all_none mem_allSlots).mp hslot i
      rw [hi] at this
      exact absurd this (by decide)
    | some i =>
      obtain ⟨hi, hlow⟩ := (find?_ascending allSlots_ascending mem_allSlots).mp hslot
      exact ⟨_, .taken i ⟨by omega, by omega⟩ hpend (beq_iff_eq.mp hi) fun j hj => beq_eq_false_iff_ne.mp (hlow j hj)⟩

/-- R170: every run of stored bytes is rescanned to some end. -/
theorem rescanned_exists (n : Nat) : ∀ (bs : List Byte) (s : State), bs.length ≤ n → ∃ t, Rescanned bs s t := by
  induction n with
  | zero =>
    intro bs s hlen
    rw [List.length_eq_zero_iff.mp (Nat.le_zero.mp hlen)]
    exact ⟨s, .hunting [] s List.not_mem_nil⟩
  | succ n ih =>
    intro bs s hlen
    rcases firstLead bs with h | ⟨before, rest, rfl, h⟩
    · exact ⟨s, .hunting bs s h⟩
    · rw [List.length_append, List.length_cons] at hlen
      rcases afterLead rest with ho | ⟨inner, b, tail, rfl, hd⟩ | ⟨t, g, m, k, body, tail, rfl, hm, hk⟩
      · exact ⟨_, .opened before rest s h ho⟩
      · obtain ⟨t, ht⟩ := ih (inner ++ b :: tail) (damageCounted s) (by omega)
        exact ⟨t, .damaged before inner tail b s t h hd ht⟩
      · obtain ⟨u, hu⟩ := settled_exists s t g body
        simp only [List.length_cons, List.length_append] at hlen
        obtain ⟨v, hv⟩ := ih tail u (by omega)
        exact ⟨v, .settled before body tail t g m k s u v h hm hk hu hv⟩

/-- R170: RECORD_DAMAGED leaves what the rescan of the stored bytes leaves. -/
theorem recordDamaged_rescanned {s t : State} {c : LinkChar} {inner : List Byte} {b : Byte} (h : bringsByte s.link c b)
    (hrun : s.running = true) (hrx : s.link.rxOn = true) (hasm : s.link.asm = 0xC3 :: inner) (hd : damagedBy inner b)
    (ht : Rescanned (inner ++ [b])
      { s with link := { s.link with asm := [], awaitMark := false, damaged := min 255 (s.link.damaged + 1) } } t) :
    exec (.recordDamaged c) s = .next (settleLink t) := by
  have he : byteEffect s.link.asm b = .abandons := by
    have hj := judge_damagedBy hd []
    rw [hasm, byteEffect_cons, hj]
  rw [recordDamaged_abandons hrun hrx h he, hasm]
  exact congrArg (fun t => Host.Outcome.next (settleLink t)) (scan_of_rescanned
    (.damaged [] inner [] b _ t List.not_mem_nil hd ht))

/-- Settles O14: the rescan always ends, and its plain cases are its constructors. -/
theorem damagedRecordIsRescanned : Obligations.DamagedRecordIsRescanned := by
  unfold Obligations.DamagedRecordIsRescanned
  intro s c inner b h hrun hrx hasm hd
  have rescan := fun {t} => recordDamaged_rescanned (t := t) h hrun hrx hasm hd
  refine ⟨?_, fun t => rescan, fun hno => rescan (.hunting _ _ hno), fun before rest hsplit hno ho => ?_,
    fun before body t g n k i hsplit hno hlen hn hk ht1 ht2 hpend hi hlow => ?_,
    fun before body t g n k hsplit hno hlen hn hk hdrop => ?_,
    fun before inner' rest before' rest' b' hsplit hno hd' => ⟨fun hno' => ?_, fun hsplit' hno' ho' => ?_⟩⟩
  · obtain ⟨t, ht⟩ := rescanned_exists _ (inner ++ [b])
      { s with link := { s.link with asm := [], awaitMark := false, damaged := min 255 (s.link.damaged + 1) } } (le_refl _)
    exact ⟨t, ht, rescan ht⟩
  · rw [hsplit] at rescan
    exact rescan (.opened before rest _ hno ho)
  · rw [hsplit] at rescan
    exact rescan (.settled before body [] t g n k _ _ _ hno ⟨hlen, hn⟩ hk (.taken i ⟨ht1, ht2⟩ hpend hi hlow)
      (.hunting [] _ List.not_mem_nil))
  · rw [hsplit] at rescan
    exact rescan (.settled before body [] t g n k _ _ _ hno ⟨hlen, hn⟩ hk (.dropped hdrop) (.hunting [] _ List.not_mem_nil))
  all_goals
    have hcount : min 255 (min 255 (s.link.damaged + 1) + 1) = min 255 (s.link.damaged + 2) := by omega
    rw [hsplit] at rescan
    rw [← hcount]
  · exact rescan (.damaged before inner' rest b' _ _ hno hd' (.hunting _ _ hno'))
  · refine rescan (.damaged before inner' rest b' _ _ hno hd' ?_)
    rw [hsplit']
    exact .opened before' rest' _ hno' ho'

end Sys2Proof.Machine

/-! # The requests of the device and the time (R157, R174 to R182): O15, O16 -/

namespace Sys2Proof.Machine

/-! ## A request in turn -/

section
variable {s : State} {i : SlotId} {ty : Byte} {body : List Byte} {c : Instr} {rule : State → Slot → State × Answer}
  {fin : State → State}

/-- R175, R176: the handling of a request that is carried out. -/
theorem exec_asks_done {t : State} {fields : List Byte} (h : asks s i ty body)
    (hr : ∀ sl : Slot, sl.body = body → sl.tag = s.link.slots[i].tag → rule s sl = done t fields)
    (hx : exec c s = .next (handle s (ofType ty) rule fin)) : exec c s = .next (fin (replied t i .ok fields)) := by
  rw [hx, handle_of_asks_done h (hr _ h.2.2 rfl)]

/-- R176: the handling of a request that is refused. -/
theorem exec_asks_refuse {st : Status} (h : asks s i ty body) (hr : ∀ sl : Slot, sl.body = body → rule s sl = refuse s st)
    (hx : exec c s = .next (handle s (ofType ty) rule fin)) : exec c s = .next (fin (replied s i st [])) := by
  rw [hx, handle_of_asks_refuse h (hr _ h.2.2)]

end

/-- R164, R182: no request is in turn. -/
theorem handle_none {s : State} (h : currentSlot s = none) (sel : Slot → Bool) (rule : State → Slot → State × Answer)
    (fin : State → State) : handle s sel rule fin = s := by
  rw [handle, h]

theorem currentSlot_none {s : State} (h : s.link.restartPending = true ∨ s.time.attended = false) : currentSlot s = none := by
  rw [currentSlot]
  rcases h with h | h <;> simp [h]

/-- Whether a command handles a request. -/
def ofRequest : Instr → Bool
  | .unknownRequest | .identify | .deviceStatus | .restart | .timeSet | .timeGet | .lineStart | .lineStopDrain _ | .lineStopForce
  | .lineStatus | .poolStatus | .unitList | .unitInfo | .unitBind | .unitUnbind | .unitForget | .screenSet | .screenGet | .unitSend
  | .entryOpen | .entryCancel | .entryStatus | .cardRead | .cardResend | .cardEject | .cardRetain | .cardStatus | .profileSet
  | .profileGet | .profileCommit | .profileLoad => true
  | _ => false

/-- R164, R182: with no request in turn the handlings change nothing. -/
theorem exec_request_none {s : State} {c : Instr} (h : currentSlot s = none) (hc : ofRequest c = true) : exec c s = .next s := by
  have none_of : ∀ sel rule fin, (.next (handle s sel rule fin) : Host.Outcome State Fault Refusal) = .next s :=
    fun sel rule fin => congrArg _ (handle_none h sel rule fin)
  cases c with
  | unknownRequest | identify | deviceStatus | restart | timeSet | timeGet | lineStart | lineStopDrain _ | lineStopForce
  | lineStatus | poolStatus | unitList | unitInfo | unitBind | unitUnbind | unitForget | screenSet | screenGet | unitSend
  | entryOpen | entryCancel | entryStatus | cardRead | cardResend | cardEject | cardRetain | cardStatus | profileSet
  | profileGet | profileCommit | profileLoad => exact none_of _ _ _
  | _ => cases hc

/-! ## The device -/

theorem busySlots_eq (k : Link) : busySlots k = (List.finRange 4).countP fun j => k.slots[j].state != .free := by
  rw [busySlots, ← List.countP_eq_length_filter]
  rfl

/-- R174: the three conditions of HOLD. -/
theorem hold_iff (s : State) : s.hold = true ↔ 3 ≤ busySlots s.link ∨ s.link.restartPending = true ∨ s.link.rxOn = false := by
  simp [State.hold, or_assoc]

/-- R181, R203: the fields of DEVICE_STATUS. -/
theorem deviceStatusFields_eq (s : State) :
    deviceStatusFields s =
      [if s.time.attended then 0 else 1, byteOf s.profile.wsSilence] ++ leBytes 4 s.time.mono.toNat
        ++ [s.resetCause.code, s.profileOutcome.code, s.store.state.code, if s.store.commit.isSome then 1 else 0]
        ++ leBytes 2 s.pool.chunksFree
        ++ [byteOf s.pool.recsFree, byteOf ((List.finRange 4).countP fun j => s.link.slots[j].state != .free),
            if 3 ≤ ((List.finRange 4).countP fun j => s.link.slots[j].state != .free) ∨ s.link.restartPending = true ∨
              s.link.rxOn = false then 1 else 0,
            s.lines[(0 : LineId)].state.code, s.lines[(1 : LineId)].state.code, s.lines[(2 : LineId)].state.code,
            s.lines[(3 : LineId)].state.code] := by
  have hhold : boolByte s.hold = if 3 ≤ busySlots s.link ∨ s.link.restartPending = true ∨ s.link.rxOn = false then 1 else 0 := by
    unfold boolByte
    simp only [hold_iff]
  rw [deviceStatusFields, hhold, ← busySlots_eq, List.append_assoc]
  rfl

theorem not_mem_catalogue {ty : Byte} (h : ty ∉ catalogue) : (!catalogue.contains ty) = true := by
  rw [Bool.not_eq_true', ← Bool.not_eq_true, List.contains_iff_mem]
  exact h

/-- Settles O15: each request by its rule, and no request in turn while a RESTART is pending or the part is UNATTENDED. -/
theorem deviceRequestsAnswer : Obligations.DeviceRequestsAnswer := by
  unfold Obligations.DeviceRequestsAnswer
  refine ⟨fun s i body => ⟨fun h => ?_, fun h => ?_, fun hb h => ?_, fun hb h => ?_, fun ty hty h => ?_⟩, fun s i h => ?_,
    fun s i body hb h => ?_, fun s h => (hold_iff s).mpr (.inr (.inl h)), fun s h => ?_⟩
  · exact exec_asks_done h (fun sl hsl _ => emptyBody_of_eq_nil (fun t => done t (identifyFields t)) s hsl) rfl
  · rw [← deviceStatusFields_eq]
    exact exec_asks_done h (fun sl hsl _ => emptyBody_of_eq_nil (fun t => done t (deviceStatusFields t)) s hsl) rfl
  · exact exec_asks_refuse h (fun sl hsl => emptyBody_of_ne_nil _ s (hsl ▸ hb)) rfl
  · exact exec_asks_refuse h (fun sl hsl => emptyBody_of_ne_nil _ s (hsl ▸ hb)) rfl
  · obtain ⟨hturn, htype, -⟩ := h
    have hsel : (!catalogue.contains s.link.slots[i].type) = true := by
      rw [htype]
      exact not_mem_catalogue hty
    exact congrArg _ (handle_eq (currentSlot_of_inTurn hturn) hsel)
  · exact exec_asks_done h (fun sl hsl _ => emptyBody_of_eq_nil restartRule s hsl) rfl
  · exact exec_asks_refuse h (fun sl hsl => emptyBody_of_ne_nil _ s (hsl ▸ hb)) rfl
  · have unchanged := fun {c} => exec_request_none (s := s) (c := c) (currentSlot_none h)
    refine ⟨fun x => unchanged rfl, fun c hc => unchanged ?_⟩
    revert c
    decide

/-! ## The time -/

theorem numAt_four (a b c d : Byte) :
    numAt [a, b, c, d] 0 4 = a.toNat + 256 * b.toNat + 65536 * c.toNat + 16777216 * d.toNat := by
  show a.toNat + 256 * (b.toNat + 256 * (c.toNat + 256 * (d.toNat + 256 * 0))) = _
  omega

/-- Settles O16: a body of four bytes sets the offset, any other is refused. -/
theorem timeSetMovesTheOffset : Obligations.TimeSetMovesTheOffset := by
  unfold Obligations.TimeSetMovesTheOffset
  refine ⟨fun s i a b c d h => ?_, fun s i body hlen h => ?_⟩
  · refine exec_asks_done h (fun sl hsl _ => ?_) rfl
    rw [timeSetRule, hsl, if_neg (by simp), numAt_four]
    rfl
  · refine exec_asks_refuse h (fun sl hsl => ?_) rfl
    rw [timeSetRule, hsl, if_pos hlen]

end Sys2Proof.Machine

/-! # The requests that start and stop a line (R24, R39 to R42): O19, O20 -/

namespace Sys2Proof.Machine

/-! ## What becomes of a frame that the part offers -/

theorem failedTest_cases (prof : Profile) (p : Pool) (c : Cls) (n : Nat) (o : Origin) :
    admissible prof p c n o ∨ ∃ k, refusedAt prof p c n o k := by
  by_cases h1 : n + keptBack prof c ≤ p.chunksFree
  · by_cases h2 : recordsAsked c ≤ p.recsFree
    · by_cases h3 : withinQuota prof p n o
      · exact .inl ⟨h1, h2, h3⟩
      · exact .inr ⟨⟨6 + c.val, by omega⟩, .inr (.inr ⟨h1, h2, h3, rfl⟩)⟩
    · exact .inr ⟨⟨3 + c.val, by omega⟩, .inr (.inl ⟨h1, h2, rfl⟩)⟩
  · exact .inr ⟨⟨c.val, by omega⟩, .inl ⟨h1, rfl⟩⟩

theorem not_refusedAt_of_admissible {prof : Profile} {p : Pool} {c : Cls} {n : Nat} {o : Origin} (h : admissible prof p c n o)
    (k : Fin 9) : ¬ refusedAt prof p c n o k := by
  obtain ⟨h1, h2, h3⟩ := h
  rintro (⟨hn, -⟩ | ⟨-, hn, -⟩ | ⟨-, -, hn, -⟩)
  · exact hn h1
  · exact hn h2
  · exact hn h3

/-- R9: one test fails first, so one counter rises. -/
theorem counted_unique {prof : Profile} {p : Pool} {c : Cls} {n : Nat} {o : Origin} {k k' : Fin 9} (h : refusedAt prof p c n o k)
    (h' : refusedAt prof p c n o k') : counted p k = counted p k' := by
  obtain ⟨t, ht, hc⟩ := failedTest_of_refusedAt h
  obtain ⟨t', ht', hc'⟩ := failedTest_of_refusedAt h'
  rw [← hc, ← hc', Option.some.inj (ht.symm.trans ht')]

theorem urgencyOf_lt (k : FrameKind) : urgencyOf k < 3 := by cases k <;> decide

/-- R19, R44, R60: an offered frame is ended at once, queued, or refused. -/
theorem offerControl_cases (s : State) (l : LineId) (k : FrameKind) (dest : Addr) (target : Option EntryId) (owner : Owner)
    (body : List Byte) :
    (s.lines[l].state = .stopped ∧ offerControl s l k dest target owner body = (s, .stopped)) ∨
      (s.lines[l].state ≠ .stopped ∧ ∃ (r : RecId) (p : Pool), offerControl s l k dest target owner body =
        (onLine { s with pool := p } l
          { s.lines[l] with control := s.lines[l].control ++ [queuedFrame s r dest target owner] }, .carried r)) ∨
      (s.lines[l].state ≠ .stopped ∧ ∃ p : Pool, offerControl s l k dest target owner body = ({ s with pool := p }, .refused)) := by
  by_cases hl : s.lines[l].state = .stopped
  · exact .inl ⟨hl, offerControl_stopped hl _ _ _⟩
  · have hc : (⟨urgencyOf k, urgencyOf_lt k⟩ : Cls).val = urgencyOf k := rfl
    rcases failedTest_cases s.profile s.pool ⟨urgencyOf k, urgencyOf_lt k⟩ (chunksNeeded body.length) .part with h | ⟨x, h⟩
    · obtain ⟨r, -, -, heq⟩ := offerControl_granted hl hc h dest target owner
      exact .inr (.inl ⟨hl, r, _, heq⟩)
    · exact .inr (.inr ⟨hl, _, offerControl_refused hl hc h dest target owner⟩)

/-! ## A line starts (R40, R83) -/

/-- R83: a directory entry once its line has started. -/
def DirEntry.resumed (d : DirEntry) (l : LineId) (lost : Nat) : DirEntry :=
  if d.state = .silent ∧ d.line = l then { d with lostTimer := some (1000 * lost) } else d

theorem resume_fold (l : LineId) (es : List EntryId) (hes : es.Nodup) (s : State) :
    ∃ d, es.foldl (fun t e =>
        if t.dir[e].state = .silent ∧ t.dir[e].line = l then
          t.modDir e fun d => { d with lostTimer := armSec t.profile.lostLimit }
        else t) s = { s with dir := d } ∧
      ∀ x : EntryId, d[x] = if x ∈ es then s.dir[x].resumed l s.profile.lostLimit else s.dir[x] := by
  induction es generalizing s with
  | nil => exact ⟨s.dir, rfl, fun x => by simp⟩
  | cons e es ih =>
    obtain ⟨hne, hes⟩ := List.nodup_cons.mp hes
    have hstep : (if s.dir[e].state = .silent ∧ s.dir[e].line = l then
        s.modDir e fun d => { d with lostTimer := armSec s.profile.lostLimit } else s) =
        atUnit s e (s.dir[e].resumed l s.profile.lostLimit) := by
      unfold DirEntry.resumed
      split
      · rfl
      · simp [atUnit]
    rw [List.foldl_cons, hstep]
    obtain ⟨d, hd, hx⟩ := ih hes (atUnit s e (s.dir[e].resumed l s.profile.lostLimit))
    refine ⟨d, hd, fun x => ?_⟩
    rw [hx, atUnit_get]
    by_cases hxe : e = x
    · subst hxe
      simp [hne]
    · simp [hxe, Ne.symm hxe]
      rfl

theorem armLostOnLine_eq (s : State) (l : LineId) :
    ∃ d, armLostOnLine s l = { s with dir := d } ∧ ∀ x : EntryId, d[x] = s.dir[x].resumed l s.profile.lostLimit := by
  obtain ⟨d, hd, hx⟩ := resume_fold l allEntries (by decide) s
  exact ⟨d, hd, fun x => by rw [hx, if_pos (mem_allEntries x)]⟩

/-- R40: line l of s started, with the pool, the control queue and the directory given. -/
def startedWith (s : State) (l : LineId) (p : Pool) (c : List QEntry) (d : Vector DirEntry 16) : State :=
  { onLine s l { s.lines[l].started s.profile.lines[l] with control := c, mark := true, latest := s.time.mono } with
    pool := p, dir := d }

theorem startedWith_line (s : State) (l : LineId) (p : Pool) (c : List QEntry) (d : Vector DirEntry 16) :
    (startedWith s l p c d).lines[l] =
      { s.lines[l].started s.profile.lines[l] with control := c, mark := true, latest := s.time.mono } := onLine_self s l _

/-- R40: a line starts whatever becomes of the WHO. -/
theorem startLine_eq {s u : State} {l : LineId} {p : Pool} {c : List QEntry}
    (hu : offerGeneralWho (onLine s l (s.lines[l].started s.profile.lines[l])) l = u)
    (heq : u = onLine { s with pool := p } l { s.lines[l].started s.profile.lines[l] with control := c }) :
    ∃ d, setLineMark (startLine s l) l = startedWith s l p c d ∧ ∀ x : EntryId, d[x] = s.dir[x].resumed l s.profile.lostLimit := by
  obtain ⟨d, hd, hx⟩ := armLostOnLine_eq u l
  subst heq
  refine ⟨d, ?_, hx⟩
  rw [startLine_unfold, hu, hd, setLineMark, modLine_eq_onLine]
  simp [onLine, State.now, startedWith]

/-- R24, R40, R83: what a started line leaves, but for its pool and control queue. -/
theorem startedWith_parts {s t : State} {l : LineId} {p : Pool} {c : List QEntry} {d : Vector DirEntry 16}
    (ht : t = startedWith s l p c d) (hd : ∀ x : EntryId, d[x] = s.dir[x].resumed l s.profile.lostLimit) :
    t = { s with pool := t.pool, lines := t.lines, dir := t.dir } ∧ (∀ k ≠ l, t.lines[k] = s.lines[k]) ∧
      t.lines[l] =
        { s.lines[l] with
          state := .active, timing := some { d := s.profile.lines[l].d, s := s.profile.lines[l].s }
          idle := false, rx := .hunting, mark := true, latest := s.time.mono, control := t.lines[l].control } ∧
      (∀ e : EntryId, t.dir[e] =
        if s.dir[e].state = .silent ∧ s.dir[e].line = l then
          { s.dir[e] with lostTimer := some (1000 * s.profile.lostLimit) }
        else s.dir[e]) := by
  subst ht
  refine ⟨rfl, fun k hk => (onLine_get s l k _).trans (if_neg (Ne.symm hk)), ?_, hd⟩
  rw [startedWith_line]
  rfl

theorem lineStartRule_line {sl : Slot} {l : LineId} (s : State) (h : sl.body = [byteOf (l.val + 1)]) :
    lineStartRule s sl = if s.lines[l].state ≠ .stopped then refuse s .wrongState else done (setLineMark (startLine s l) l) [] := by
  have hl : lineOfByte (byteOf (l.val + 1)) = some l := lineOfByte_lineByte l
  rw [lineStartRule, h]
  dsimp only
  rw [hl]

theorem lineStartRule_noLine {sl : Slot} {n : Byte} (s : State) (h : sl.body = [n]) (hn : n = 0 ∨ 4 < n.toNat) :
    lineStartRule s sl = refuse s .badParameter := by
  rw [lineStartRule, h]
  dsimp only
  rw [lineOfByte_eq_none hn]

theorem lineStartRule_badLength {sl : Slot} (s : State) (h : sl.body.length ≠ 1) : lineStartRule s sl = refuse s .badLength := by
  unfold lineStartRule
  split
  case h_1 n hbody => simp [hbody] at h
  case h_2 => rfl

/-- Settles O19: the line starts whatever becomes of its WHO, which is queued or refused as any frame of the part. -/
theorem lineStartBeginsService : Obligations.LineStartBeginsService := by
  unfold Obligations.LineStartBeginsService
  refine ⟨fun s i l h hstop => ⟨setLineMark (startLine s l) l, ?_, ?_⟩, fun s i l h hne => ?_, fun s i n h hn => ?_,
    fun s i body h hlen => ?_⟩
  · exact exec_asks_done h (fun sl hsl _ => by rw [lineStartRule_line s hsl, if_neg (not_not_intro hstop)]) rfl
  · rcases failedTest_cases s.profile s.pool 2 1 .part with hadm | ⟨k, hk⟩
    · obtain ⟨r, p, hg, -, -, heq⟩ :=
        offerGeneralWho_onLine (l := l) (ln := s.lines[l].started s.profile.lines[l]) LineState.noConfusion hadm
      obtain ⟨d, ht, hd⟩ := startLine_eq heq rfl
      obtain ⟨hframe, hother, hline, hdir⟩ := startedWith_parts ht hd
      refine ⟨hframe, hother, hline, hdir, fun _ => ⟨r, ?_, ?_⟩, fun k hk => absurd hk (not_refusedAt_of_admissible hadm k)⟩
      · rw [ht]
        exact hg
      · rw [ht, startedWith_line]
        rfl
    · have heq : offerGeneralWho (onLine s l (s.lines[l].started s.profile.lines[l])) l =
          onLine { s with pool := counted s.pool k } l
            { s.lines[l].started s.profile.lines[l] with control := s.lines[l].control } :=
        congrArg Prod.fst (offerControl_refused (s := onLine s l (s.lines[l].started s.profile.lines[l])) (k := .who) (c := 2)
          (body := []) (by rw [onLine_self]; exact LineState.noConfusion) rfl hk 15 none .directory)
      obtain ⟨d, ht, hd⟩ := startLine_eq heq rfl
      obtain ⟨hframe, hother, hline, hdir⟩ := startedWith_parts ht hd
      refine ⟨hframe, hother, hline, hdir, fun hadm => absurd hk (not_refusedAt_of_admissible hadm k), fun k' hk' => ⟨?_, ?_⟩⟩
      · rw [ht, ← counted_unique hk hk']
        rfl
      · rw [ht, startedWith_line]
  · exact exec_asks_refuse h (fun sl hsl => by rw [lineStartRule_line s hsl, if_pos hne]) rfl
  · exact exec_asks_refuse h (fun sl hsl => lineStartRule_noLine s hsl hn) rfl
  · exact exec_asks_refuse h (fun sl hsl => lineStartRule_badLength s (hsl ▸ hlen)) rfl

/-! ## LINE_STOP (R39, R41, R42) -/

section
variable {s t : State} {i : SlotId} {sel : Slot → Bool} {rule : State → Slot → State × Answer} {fin : State → State}

theorem handle_sel_done {fields : List Byte} (h : inTurn s i) (hsel : sel s.link.slots[i] = true)
    (hr : rule s s.link.slots[i] = done t fields) : handle s sel rule fin = fin (replied t i .ok fields) := by
  rw [handle_eq (currentSlot_of_inTurn h) hsel, hr]
  rfl

theorem handle_sel_refuse {st : Status} (h : inTurn s i) (hsel : sel s.link.slots[i] = true)
    (hr : rule s s.link.slots[i] = refuse s st) : handle s sel rule fin = fin (replied s i st []) := by
  rw [handle_eq (currentSlot_of_inTurn h) hsel, hr]
  cases st <;> rfl

end

/-- R203: a LINE_STOP goes by the row of its mode, and by either when its body names no mode. -/
theorem stopMode_of_asks {s : State} {i : SlotId} {body : List Byte} {m : Byte} (h : asks s i 0x09 body)
    (hm : body.length = 2 → byteAt body 1 ≠ m) : stopMode m s.link.slots[i] = true := by
  obtain ⟨-, htype, hbody⟩ := h
  rw [stopMode, htype, hbody]
  by_cases hlen : body.length = 2
  · simp [hlen, hm hlen]
  · simp [hlen]

section
variable {sl : Slot} {n m : Byte} {l : LineId}

theorem lineStopRule_line (x : Option Ms) (s : State) (h : sl.body = [byteOf (l.val + 1), m]) :
    lineStopRule x s sl =
      if m = 0 then done (drainState s l x) [] else if m = 1 then done (forceState s l) [] else refuse s .badParameter := by
  have hl : lineOfByte (byteOf (l.val + 1)) = some l := lineOfByte_lineByte l
  rw [lineStopRule, h]
  dsimp only
  rw [hl]

theorem lineStopRule_badLength (x : Option Ms) (s : State) (h : sl.body.length ≠ 2) :
    lineStopRule x s sl = refuse s .badLength := by
  unfold lineStopRule
  split
  case h_1 a b hbody => simp [hbody] at h
  case h_2 => rfl

theorem lineStopRule_badParameter (x : Option Ms) (s : State) (h : sl.body = [n, m])
    (hb : n = 0 ∨ 4 < n.toNat ∨ 1 < m.toNat) : lineStopRule x s sl = refuse s .badParameter := by
  rw [lineStopRule, h]
  dsimp only
  cases hl : lineOfByte n with
  | none => rfl
  | some l =>
    have hn : ¬ (n = 0 ∨ 4 < n.toNat) := fun hn => by simp [lineOfByte_eq_none hn] at hl
    have h0 : m ≠ 0 := by bv_omega
    have h1 : m ≠ 1 := by bv_omega
    dsimp only
    rw [if_neg h0, if_neg h1]

end

/-- R41: a header in progress is one of a hunting line that does not send. -/
theorem headerBegun_none {ln : Line} {h : Option Ms} (hn : h = none ∨ ln.rx ≠ .hunting ∨ ln.tx ≠ none) :
    ln.headerBegun h = ln := by
  unfold Line.headerBegun
  split
  case h_1 edge hrx htx =>
    rcases hn with hn | hn | hn
    · cases hn
    · exact absurd hrx hn
    · exact absurd htx hn
  case h_2 => rfl

theorem headerBegun_some {ln : Line} {edge : Ms} (hrx : ln.rx = .hunting) (htx : ln.tx = none) :
    ln.headerBegun (some edge) = { ln with rx := .completing edge false, idle := false } := by
  unfold Line.headerBegun
  rw [hrx, htx]

theorem drainState_active {s : State} {l : LineId} (h : s.lines[l].state = .active) (x : Option Ms) :
    drainState s l x = onLine s l { s.lines[l].headerBegun x with state := .draining, mark := true, latest := s.time.mono } := by
  rw [drainState, h]
  dsimp only
  rw [setLineMark, modLine_eq_onLine, modLine_eq_onLine, onLine_self, onLine_onLine]
  rfl

theorem drainState_stuck {s : State} {l : LineId} (h : s.lines[l].state = .stuck false) (x : Option Ms) :
    drainState s l x = onLine s l { s.lines[l] with state := .stuck true, mark := true, latest := s.time.mono } := by
  rw [drainState, h]
  dsimp only
  rw [setLineMark, modLine_eq_onLine, modLine_eq_onLine, onLine_self, onLine_onLine]
  rfl

theorem drainState_same {s : State} {l : LineId}
    (h : s.lines[l].state = .stopped ∨ s.lines[l].state = .draining ∨ s.lines[l].state = .stuck true) (x : Option Ms) :
    drainState s l x = s := by
  rw [drainState]
  rcases h with h | h | h <;> rw [h]

theorem forceState_stopped {s : State} {l : LineId} (h : s.lines[l].state = .stopped) : forceState s l = s := by
  rw [forceState, h]

theorem forceState_enters {s : State} {l : LineId} (h : s.lines[l].state ≠ .stopped) : forceState s l = enterStopped s l := by
  unfold forceState
  split
  case h_1 hs => exact absurd hs h
  case h_2 => rfl

theorem exec_lineStopDrain (h : Option Ms) (s : State) :
    exec (.lineStopDrain h) s = .next (handle s (stopMode 1) (lineStopRule h) settle) := rfl

theorem exec_lineStopForce (s : State) :
    exec .lineStopForce s = .next (handle s (stopMode 0) (lineStopRule none) settle) := rfl

/-- R41: LINE_STOP with mode DRAIN. -/
theorem exec_drain {s t : State} {i : SlotId} {l : LineId} (ha : asks s i 0x09 [byteOf (l.val + 1), 0]) (x : Option Ms)
    (ht : drainState s l x = t) : exec (.lineStopDrain x) s = .next (settle (replied t i .ok [])) := by
  have ⟨hturn, _, hbody⟩ := ha
  rw [exec_lineStopDrain, handle_sel_done hturn (stopMode_of_asks ha fun _ => (by decide : (0 : Byte) ≠ 1))]
  rw [lineStopRule_line x s hbody, if_pos rfl, ht]

/-- R42: LINE_STOP with mode FORCE. -/
theorem exec_force {s t : State} {i : SlotId} {l : LineId} (ha : asks s i 0x09 [byteOf (l.val + 1), 1])
    (ht : forceState s l = t) : exec .lineStopForce s = .next (settle (replied t i .ok [])) := by
  have ⟨hturn, _, hbody⟩ := ha
  rw [exec_lineStopForce, handle_sel_done hturn (stopMode_of_asks ha fun _ => (by decide : (1 : Byte) ≠ 0))]
  rw [lineStopRule_line none s hbody, if_neg (by decide), if_pos rfl, ht]

/-- Settles O20: each mode by the line's state, and each refusal by either row. -/
theorem lineStopDrainsOrForces : Obligations.LineStopDrainsOrForces := by
  unfold Obligations.LineStopDrainsOrForces
  refine ⟨fun s i l ha => ⟨fun h hs hn => ?_, fun edge hs hrx htx => ?_, fun h hs => ?_, fun h hs => ?_⟩,
    fun s i l ha => ⟨fun hs => exec_force ha (forceState_enters hs), fun hs => exec_force ha (forceState_stopped hs)⟩,
    fun s i body ha hlen => ?_, fun s i n m ha hb => ?_⟩
  · refine exec_drain ha h ((drainState_active hs h).trans ?_)
    rw [headerBegun_none hn]
  · refine exec_drain ha _ ((drainState_active hs _).trans ?_)
    rw [headerBegun_some hrx htx]
  · exact exec_drain ha h (drainState_stuck hs h)
  · exact exec_drain ha h (drainState_same hs h)
  · have ⟨hturn, _, hbody⟩ := ha
    have hsel := fun m => stopMode_of_asks (m := m) ha fun h => absurd h hlen
    refine ⟨fun h => ?_, ?_⟩
    · rw [exec_lineStopDrain, handle_sel_refuse hturn (hsel 1) (lineStopRule_badLength h s (hbody ▸ hlen))]
    · rw [exec_lineStopForce, handle_sel_refuse hturn (hsel 0) (lineStopRule_badLength none s (hbody ▸ hlen))]
  · have ⟨hturn, _, hbody⟩ := ha
    have hsel := fun x (hx : m ≠ x) => stopMode_of_asks (m := x) ha fun _ => hx
    refine ⟨fun h hm => ?_, fun hm => ?_⟩
    · rw [exec_lineStopDrain, handle_sel_refuse hturn (hsel 1 hm) (lineStopRule_badParameter h s hbody hb)]
    · rw [exec_lineStopForce, handle_sel_refuse hturn (hsel 0 hm) (lineStopRule_badParameter none s hbody hb)]

end Sys2Proof.Machine

/-! # Stray frames and the bits of a character (R23 to R30, R84): O25, O31 -/

namespace Sys2Proof.Machine

/-! ## Stray frames -/

theorem strayCounted_eq (s : State) (l : LineId) : countLine s l LineCounters.addStray = strayCounted s l := rfl

/-- R84: whether a WHO is due, by the count now and that of the last one queued. -/
def whoDue (now : Ms) : Option Ms → Bool
  | none => true
  | some t => decide (1000 ≤ elapsed now t)

/-- R84: the time of a WHO that was queued is kept. -/
def whoKept (l : LineId) (a : Addr) : State × Offer → State
  | (s, .carried _) => onLine s l { s.lines[l] with whoAt := s.lines[l].whoAt.set a.toNat (some s.time.mono) }
  | (s, _) => s

theorem offerStrayWho_eq (s : State) (l : LineId) (a : Addr) :
    offerStrayWho s l a =
      if a = 0 ∨ a = 15 ∨ !whoDue s.time.mono s.lines[l].whoAt[a.toNat] then s
      else whoKept l a (offerControl s l .who a none .directory []) := rfl

theorem strayCounted_line (s : State) (l : LineId) :
    (strayCounted s l).lines[l] =
      { s.lines[l] with
        counters := { s.lines[l].counters with stray := min 65535 (s.lines[l].counters.stray + 1) } } := onLine_self s l _

/-- Settles O31: the frame is counted first, and the WHO of a due address is one more frame that the part offers. -/
theorem strayFrameDrawsAWho : Obligations.StrayFrameDrawsAWho := by
  unfold Obligations.StrayFrameDrawsAWho
  intro s l a
  have hwho : (strayCounted s l).lines[l].whoAt = s.lines[l].whoAt := by rw [strayCounted_line]
  have heq : strayFrame s l a =
      if a = 0 ∨ a = 15 ∨ !whoDue s.time.mono s.lines[l].whoAt[a.toNat] then strayCounted s l
      else whoKept l a (offerControl (strayCounted s l) l .who a none .directory []) := by
    rw [← hwho]
    exact offerStrayWho_eq (strayCounted s l) l a
  refine ⟨fun h => ?_, fun t ht hlt => ?_, fun h0 h15 hs hdue => ?_⟩
  · rw [heq, if_pos (h.imp_right .inl)]
  · rw [heq, ht, if_pos (.inr (.inr (by simp [whoDue, hlt])))]
  · have hnow : whoDue s.time.mono s.lines[l].whoAt[a.toNat] = true := by
      cases ht : s.lines[l].whoAt[a.toNat] with
      | none => rfl
      | some t => exact decide_eq_true (hdue t ht)
    have hs' : (strayCounted s l).lines[l].state ≠ .stopped := by rw [strayCounted_line]; exact hs
    rw [heq, hnow, if_neg (not_or.mpr ⟨h0, not_or.mpr ⟨h15, (by decide : ¬ (!true) = true)⟩⟩)]
    refine ⟨fun hadm => ?_, fun x hx => ?_⟩
    · obtain ⟨r, p, hg, -, -, hoffer⟩ := offerWho_granted (s := strayCounted s l) hs' hadm a
      refine ⟨r, p, hg, ?_⟩
      rw [hoffer, whoKept, onLine_self, onLine_onLine, strayCounted_line]
      exact onLine_onLine { s with pool := p } l _ _
    · rw [offerControl_refused (s := strayCounted s l) (k := .who) (c := 2) (body := []) hs' rfl hx a none .directory]
      rfl

/-! ## The bits of a character -/

theorem bitValue_cleanBit (v : Bool) : bitValue (cleanBit v) = v := by cases v <;> rfl

theorem bitNoisy_cleanBit (v : Bool) : bitNoisy (cleanBit v) = false := by cases v <;> rfl

theorem bitValue_eq_count (b : Bit3) : bitValue b = decide (2 ≤ [b.a, b.b, b.c].count true) := by
  obtain ⟨x, y, z⟩ := b
  revert x y z
  decide

theorem bitNoisy_iff (b : Bit3) : bitNoisy b = true ↔ ¬ (b.a = b.b ∧ b.b = b.c) := by
  rw [bitNoisy, Bool.not_eq_true', ← Bool.not_eq_true, Bool.and_eq_true, beq_iff_eq, beq_iff_eq]

/-- The exclusive or of bits says whether the number of ones is odd. -/
theorem foldr_xor_iff (bs : List Bool) : bs.foldr xor false = true ↔ ¬ Even (bs.count true) := by
  induction bs with
  | nil => simp
  | cons b bs ih =>
    cases b with
    | false => simpa using ih
    | true =>
      rw [List.foldr_cons, List.count_cons_self, Nat.even_add_one, not_not, ← Bool.not_eq_false, Bool.true_xor,
        Bool.not_eq_false, Bool.not_eq_true', ← Bool.not_eq_true, ih, not_not]

theorem charParityError_iff (c : RawChar) :
    charParityError c = true ↔ Even (([c.d0, c.d1, c.d2, c.d3, c.d4, c.d5, c.d6, c.d7, c.parity].map bitValue).count true) := by
  have hperm : ([c.d0, c.d1, c.d2, c.d3, c.d4, c.d5, c.d6, c.d7, c.parity].map bitValue).Perm (bitValue c.parity :: rawData c) :=
    List.perm_append_comm (l₁ := rawData c) (l₂ := [bitValue c.parity])
  rw [charParityError, Bool.not_eq_true', ← Bool.not_eq_true, foldr_xor_iff, not_not, hperm.count_eq]

theorem natOfBits_getLsbD : ∀ (b0 b1 b2 b3 b4 b5 b6 b7 : Bool) (k : Fin 8),
    (byteOf (natOfBits [b0, b1, b2, b3, b4, b5, b6, b7])).getLsbD k = [b0, b1, b2, b3, b4, b5, b6, b7][k.val]! := by
  decide

theorem rawData_cleanChar (b : Byte) : rawData (cleanChar b) =
    [b.getLsbD 0, b.getLsbD 1, b.getLsbD 2, b.getLsbD 3, b.getLsbD 4, b.getLsbD 5, b.getLsbD 6, b.getLsbD 7] := by
  simp [rawData, cleanChar, bitValue_cleanBit, sentBit]

/-- R26, R29: the parity bit that is sent makes the number of ones odd. -/
theorem charParityError_cleanChar (b : Byte) : charParityError (cleanChar b) = false := by
  have hparity : bitValue (cleanChar b).parity = !((rawData (cleanChar b)).foldr xor false) := by
    rw [rawData_cleanChar]
    exact bitValue_cleanBit _
  rw [charParityError, List.foldr_cons, hparity]
  cases (rawData (cleanChar b)).foldr xor false <;> rfl

theorem rawBits_cleanChar (b : Byte) (k : Nat) :
    (rawBits (cleanChar b))[k]? = if k ≤ 10 then some (cleanBit (sentBit b k)) else none := by
  have hbits : rawBits (cleanChar b) = (List.range 11).map fun k => cleanBit (sentBit b k) := rfl
  rw [hbits, List.getElem?_map]
  by_cases h : k ≤ 10
  · rw [if_pos h, List.getElem?_range (by omega)]
    rfl
  · rw [if_neg h, List.getElem?_eq_none (by rw [List.length_range]; omega)]
    rfl

theorem charNoisy_cleanChar (b : Byte) : charNoisy (cleanChar b) = false := by
  simp [charNoisy, rawBits, cleanChar, bitNoisy_cleanBit]

/-- R23: a line is driven dominant in the zeros of what it sends. -/
theorem drives_iff {ln : Line} {x : Tx} (h : ln.tx = some x) (chr bit : Nat) :
    ln.drives chr bit = true ↔
      ∃ b : Bit3, x.chars[chr]?.bind (fun y => (rawBits (cleanChar y))[bit]?) = some b ∧ bitValue b = false := by
  rw [Line.drives, h]
  dsimp only
  by_cases hc : chr < x.chars.length
  · have hget : x.chars[chr]? = some (x.chars.getD chr 0) := by simp [hc]
    rw [hget, Option.bind_some, rawBits_cleanChar]
    by_cases hb : bit ≤ 10
    · simp [hc, hb, txBit, bitValue_cleanBit]
    · simp [hb]
  · rw [List.getElem?_eq_none (Nat.not_lt.mp hc)]
    simp [hc]

/-- Settles O25: a bit by its three reads, a character by its eleven bits. -/
theorem characterBitsAreJudged : Obligations.CharacterBitsAreJudged := by
  unfold Obligations.CharacterBitsAreJudged
  refine ⟨bitValue_eq_count, fun c => ?_, charParityError_iff, fun c k => natOfBits_getLsbD _ _ _ _ _ _ _ _ k, fun b => ⟨?_,
    charNoisy_cleanChar b, charParityError_cleanChar b, bitValue_cleanBit _, bitValue_cleanBit _⟩, fun ln chr bit => ⟨fun h => ?_,
    fun x h => drives_iff h chr bit, fun others => ?_⟩⟩
  · rw [charNoisy, List.any_eq_true]
    simp only [bitNoisy_iff]
    rfl
  · rw [charByte, rawData_cleanChar, natOfBits_byte]
  · rw [Line.drives, h]
  · rw [Line.level]
    cases ln.drives chr bit <;> cases others <;> simp

end Sys2Proof.Machine

/-! # The requests of the Unit Directory (R85 to R88): O42, O43 -/

namespace Sys2Proof.Machine

/-! ## Fields of bytes (chapter 11) -/

theorem toNat_byteOf (n : Nat) : (byteOf n).toNat = n % 256 := BitVec.toNat_ofNat n 8

theorem byteOf_toNat (b : Byte) : byteOf b.toNat = b := BitVec.ofNat_toNat 8 b

@[simp] theorem length_leBytes (k n : Nat) : (leBytes k n).length = k := by
  induction k generalizing n with
  | zero => rfl
  | succ k ih => rw [leBytes, List.length_cons, ih]

theorem leNat_leBytes (k n : Nat) : leNat (leBytes k n) = n % 256 ^ k := by
  induction k generalizing n with
  | zero => rw [leBytes, leNat, pow_zero, Nat.mod_one]
  | succ k ih => rw [leBytes, leNat, ih, toNat_byteOf, pow_succ', Nat.mod_mul]

theorem leBytes_leNat (bs : List Byte) : leBytes bs.length (leNat bs) = bs := by
  induction bs with
  | nil => rfl
  | cons b bs ih =>
    have hb := b.isLt
    have hhead : byteOf (b.toNat + 256 * leNat bs) = b :=
      BitVec.eq_of_toNat_eq (by rw [toNat_byteOf]; omega)
    have htail : (b.toNat + 256 * leNat bs) / 256 = leNat bs := by omega
    rw [List.length_cons, leNat, leBytes, hhead, htail, ih]

theorem leNat_lt (bs : List Byte) : leNat bs < 256 ^ bs.length := by
  induction bs with
  | nil => exact Nat.one_pos
  | cons b bs ih =>
    have hb := b.isLt
    rw [leNat, List.length_cons, pow_succ']
    omega

theorem identityAt_leBytes (i : Identity) (tail : List Byte) : identityAt (leBytes 6 i.toNat ++ tail) 0 = i := by
  have htake : bytesAt (leBytes 6 i.toNat ++ tail) 0 6 = leBytes 6 i.toNat := by
    rw [bytesAt, List.drop_zero, List.take_append_of_le_length (by rw [length_leBytes]),
      List.take_of_length_le (by rw [length_leBytes])]
  rw [identityAt, numAt, htake, leNat_leBytes]
  refine BitVec.eq_of_toNat_eq ?_
  have := i.isLt
  rw [BitVec.toNat_ofNat]
  omega

theorem identityAt_alone (i : Identity) : identityAt (leBytes 6 i.toNat) 0 = i := by
  rw [← List.append_nil (leBytes 6 i.toNat)]
  exact identityAt_leBytes i []

theorem byteAt_last (bs : List Byte) (b : Byte) : byteAt (bs ++ [b]) bs.length = b := by
  rw [byteAt, List.getD_eq_getElem?_getD, List.getElem?_concat_length]
  rfl

theorem posOfByte_posByte (p : Pos) : posOfByte (byteOf (p.val + 1)) = some p := by decide +revert

theorem posOfByte_eq_none {b : Byte} (h : b = 0 ∨ 8 < b.toNat) : posOfByte b = none := dif_neg (by bv_omega)

/-! ## Who holds an identity (R70) -/

theorem holderOf_of_holds {s : State} {e : EntryId} {i : Identity} (h : holds s e i) : holderOf s i = some e := by
  obtain ⟨hstate, hid, honly⟩ := h
  cases hx : holderOf s i with
  | none => exact absurd hid (holderOf_none hx e hstate)
  | some x =>
    have hfound := List.find?_some (p := fun e : EntryId => s.dir[e].state != .free && s.dir[e].identity == i) hx
    rw [Bool.and_eq_true, bne_iff_ne, beq_iff_eq] at hfound
    rw [honly x hfound.1 hfound.2]

theorem holderOf_of_none {s : State} {i : Identity} (h : ∀ e : EntryId, s.dir[e].state ≠ .free → s.dir[e].identity ≠ i) :
    holderOf s i = none := by
  refine List.find?_eq_none.mpr fun e _ he => ?_
  rw [Bool.and_eq_true, bne_iff_ne, beq_iff_eq] at he
  exact h e he.1 he.2

section
variable {s : State} {sl : Slot} {i : Identity} (rule : State → EntryId → State × Answer)

theorem identityBody_held {e : EntryId} (hsl : sl.body = leBytes 6 i.toNat) (h : holds s e i) :
    identityBody rule s sl = rule s e := by
  rw [identityBody, hsl, length_leBytes, if_neg (not_not_intro rfl), identityAt_alone, holderOf_of_holds h]

theorem identityBody_unknown (hsl : sl.body = leBytes 6 i.toNat)
    (h : ∀ e : EntryId, s.dir[e].state ≠ .free → s.dir[e].identity ≠ i) : identityBody rule s sl = refuse s .noSuchUnit := by
  rw [identityBody, hsl, length_leBytes, if_neg (not_not_intro rfl), identityAt_alone, holderOf_of_none h]

theorem identityBody_badLength (h : sl.body.length ≠ 6) : identityBody rule s sl = refuse s .badLength := if_pos h

end

/-! ## Reports (R85, R202, R203) -/

theorem unitFlags_eq (d : DirEntry) :
    unitFlags d = byteOf ((if d.pinned then 1 else 0) + (if d.condition = .fault then 2 else 0) + (if d.established then 4 else 0)) := by
  rw [unitFlags]
  cases d.pinned <;> cases d.condition <;> cases d.established <;> rfl

theorem unitItem_eq (s : State) (e : EntryId) : unitItem s e = unitBytes s e := by
  unfold unitItem unitBytes
  dsimp only
  rw [unitFlags_eq, List.append_assoc]
  cases s.dir[e].addr <;> cases s.dir[e].pos <;> rfl

theorem timerFields_eq (t : Timer) : timerFields t = timerBytes t := by cases t <;> rfl

/-- R203: the inbound bit in a report. -/
theorem inBitByte_eq (b : Option Bool) : inBitByte b = match b with
    | none => 2
    | some true => 1
    | some false => 0 := by
  rcases b with _ | _ | _ <;> rfl

theorem unitListFields_eq (s : State) : unitListFields s = (List.finRange 16).flatMap fun e => unitBytes s e := by
  have hitem : unitItem s = fun e => unitBytes s e := funext (unitItem_eq s)
  rw [unitListFields, allEntries_eq_finRange, hitem, List.flatMap_def]

/-- Settles O42: the items are those of R202, entry by entry. -/
theorem unitsAreReported : Obligations.UnitsAreReported := by
  unfold Obligations.UnitsAreReported
  refine ⟨fun s i h => ?_, fun s i body h hb => ?_, fun s i e h he => ?_, fun s i n h hn => ?_, fun s i body h hlen => ?_⟩
  · rw [← unitListFields_eq]
    exact exec_asks_done h (fun sl hsl _ => emptyBody_of_eq_nil (fun t => done t (unitListFields t)) s hsl) rfl
  · exact exec_asks_refuse h (fun sl hsl => emptyBody_of_ne_nil _ s (hsl ▸ hb)) rfl
  · refine exec_asks_done h (fun sl hsl _ => (identityBody_held (fun t e => done t (unitInfoFields t e)) hsl he).trans ?_) rfl
    rw [unitInfoFields, unitItem_eq, timerFields_eq, timerFields_eq, timerFields_eq, inBitByte_eq]
    rw [Nat.min_comm 65535]
    rfl
  · exact exec_asks_refuse h (fun sl hsl => identityBody_unknown _ hsl hn) rfl
  · exact exec_asks_refuse h (fun sl hsl => identityBody_badLength _ (hsl ▸ hlen)) rfl

/-! ## Bindings (R86 to R88) -/

theorem endUnitSessions_eq (s : State) (k : UnitKind) (pos : Option Pos) (c : Cause) :
    endUnitSessions s k pos c = sessionsEnded s k pos c := by
  cases pos <;> cases k <;> rfl

theorem setDirMark_eq (s : State) (e : EntryId) : setDirMark s e = marked s e := rfl

theorem modDir_eq_atUnit (s : State) (e : EntryId) (f : DirEntry → DirEntry) : s.modDir e f = atUnit s e (f s.dir[e]) := rfl

theorem atUnit_same (s : State) (e : EntryId) : atUnit s e s.dir[e] = s := by
  unfold atUnit
  simp

theorem atUnit_atUnit (s : State) (e : EntryId) (c d : DirEntry) : atUnit (atUnit s e c) e d = atUnit s e d := by
  simp [atUnit]

section
variable {s : State} {sl : Slot} {i : Identity} {p : Pos}

/-- R86: a UNIT_BIND of a known unit. -/
theorem unitBindRule_held {e : EntryId} (hsl : sl.body = leBytes 6 i.toNat ++ [byteOf (p.val + 1)]) (h : holds s e i) :
    unitBindRule s sl =
      match slotOf s s.dir[e].kind p with
      | some o => if o = e then done s [] else refuse s .slotTaken
      | none => done (bindUnit s e p) [] := by
  have hbyte : byteAt (leBytes 6 i.toNat ++ [byteOf (p.val + 1)]) 6 = byteOf (p.val + 1) := byteAt_last _ _
  have hlen : (leBytes 6 i.toNat ++ [byteOf (p.val + 1)]).length = 7 := by simp
  rw [unitBindRule, hsl, hlen, if_neg (not_not_intro rfl), hbyte, posOfByte_posByte]
  dsimp only
  rw [identityAt_leBytes, holderOf_of_holds h] <;> rfl

theorem unitBindRule_unknown (hsl : sl.body = leBytes 6 i.toNat ++ [byteOf (p.val + 1)])
    (h : ∀ e : EntryId, s.dir[e].state ≠ .free → s.dir[e].identity ≠ i) : unitBindRule s sl = refuse s .noSuchUnit := by
  have hbyte : byteAt (leBytes 6 i.toNat ++ [byteOf (p.val + 1)]) 6 = byteOf (p.val + 1) := byteAt_last _ _
  have hlen : (leBytes 6 i.toNat ++ [byteOf (p.val + 1)]).length = 7 := by simp
  rw [unitBindRule, hsl, hlen, if_neg (not_not_intro rfl), hbyte, posOfByte_posByte]
  dsimp only
  rw [identityAt_leBytes, holderOf_of_none h]

theorem unitBindRule_badParameter {body : List Byte} {b : Byte} (hsl : sl.body = body ++ [b]) (hlen : body.length = 6)
    (hb : b = 0 ∨ 8 < b.toNat) : unitBindRule s sl = refuse s .badParameter := by
  have hbyte : byteAt (body ++ [b]) 6 = b := hlen ▸ byteAt_last body b
  have hlen' : (body ++ [b]).length = 7 := by simp [hlen]
  rw [unitBindRule, hsl, hlen', if_neg (not_not_intro rfl), hbyte, posOfByte_eq_none hb]

theorem unitBindRule_badLength (h : sl.body.length ≠ 7) : unitBindRule s sl = refuse s .badLength := if_pos h

end

/-- R86: a unit is bound to an empty slot, from v, where its old binding is gone. -/
theorem bindUnit_eq {s v : State} {e : EntryId} (p : Pos) (hnone : s.dir[e].pos = none → v = s)
    (hsome : s.dir[e].pos ≠ none →
      v = sessionsEnded (atUnit s e { s.dir[e] with pos := none, pinned := false }) s.dir[e].kind s.dir[e].pos .unbound) :
    bindUnit s e p = marked (atUnit v e { v.dir[e] with pos := some p, pinned := false }) e := by
  have hv : (if s.dir[e].pos.isSome then endUnitSessions (unbindEntry s e) s.dir[e].kind s.dir[e].pos .unbound else s) = v := by
    cases hpos : s.dir[e].pos with
    | none => exact (hnone hpos).symm
    | some x =>
      rw [hsome (by rw [hpos]; exact Option.some_ne_none x), hpos, Option.isSome_some, if_pos rfl, endUnitSessions_eq]
      rfl
  rw [bindUnit]
  dsimp only
  rw [hv]
  rfl

/-- R73: the release of an address leaves the unit's kind and position. -/
theorem releaseAddress_binding (s : State) (e : EntryId) :
    (releaseAddress s e).dir[e].kind = s.dir[e].kind ∧ (releaseAddress s e).dir[e].pos = s.dir[e].pos := by
  have h : cores (releaseAddress s e) e = { cores s e with addr := none } := by
    rw [cores_releaseAddress, Function.update_self]
  have hkind : (cores (releaseAddress s e) e).kind = s.dir[e].kind := by rw [h]; rfl
  have hpos : (cores (releaseAddress s e) e).pos = s.dir[e].pos := by rw [h]; rfl
  exact ⟨hkind, hpos⟩

/-- R88: a unit is forgotten. -/
theorem unitForgetRule_eq {s v w : State} {e : EntryId} (hv : v = if s.dir[e].addr = none then s else releaseAddress s e)
    (hw : w = sessionsEnded v s.dir[e].kind s.dir[e].pos .unbound) :
    unitForgetRule s e =
      done (marked (atUnit w e { w.dir[e] with state := .free, pos := none, pinned := false, established := false }) e) [] := by
  have hrelease : (if s.dir[e].addr.isSome then releaseAddress s e else s) = v := by
    rw [hv]
    cases s.dir[e].addr <;> rfl
  have hbinding : v.dir[e].kind = s.dir[e].kind ∧ v.dir[e].pos = s.dir[e].pos := by
    rw [hv]
    split
    · exact ⟨rfl, rfl⟩
    · exact releaseAddress_binding s e
  rw [unitForgetRule]
  dsimp only
  rw [hrelease, hbinding.1, hbinding.2, endUnitSessions_eq, ← hw]
  cases hpos : s.dir[e].pos with
  | none =>
    have hvw : w = v := by rw [hw, hpos]; rfl
    subst hvw
    have hsame : ({ w.dir[e] with state := .free, pos := none, pinned := false, established := false } : DirEntry) =
        { w.dir[e] with state := .free, pinned := false, established := false } := by
      rw [← hpos, ← hbinding.2]
    rw [hsame]
    rfl
  | some p =>
    dsimp only [Option.isSome_some]
    rw [if_pos rfl, unbindEntry, modDir_eq_atUnit, modDir_eq_atUnit, atUnit_self, atUnit_atUnit]
    rfl

/-- Settles O43: each binding request by its rule, the unit found by its identity. -/
theorem bindingsChange : Obligations.BindingsChange := by
  unfold Obligations.BindingsChange
  refine ⟨fun s i e p h he => ⟨fun hslot => ?_, fun x hslot hx => ?_, fun v hslot hnone hsome => ?_⟩,
    fun s i e h he => ⟨fun hpos => ?_, fun hpos => ?_⟩, fun s v w i e h he hv hw => ?_,
    fun s i n hn => ⟨fun p h => ?_, fun h => ?_, fun h => ?_⟩,
    fun s i body => ⟨fun b hlen hb h => ?_, fun hlen h => ?_, fun hlen h => ?_, fun hlen h => ?_⟩⟩
  · exact exec_asks_done h (fun sl hsl _ => by rw [unitBindRule_held hsl he, hslot]; exact if_pos rfl) rfl
  · exact exec_asks_refuse h (fun sl hsl => by rw [unitBindRule_held hsl he, hslot]; exact if_neg hx) rfl
  · exact exec_asks_done h (fun sl hsl _ => by rw [unitBindRule_held hsl he, hslot, ← bindUnit_eq p hnone hsome]) rfl
  · refine exec_asks_done h (fun sl hsl _ => (identityBody_held unitUnbindRule hsl he).trans ?_) rfl
    rw [unitUnbindRule, hpos]
  · obtain ⟨p, hp⟩ := Option.ne_none_iff_exists'.mp hpos
    refine exec_asks_done h (fun sl hsl _ => (identityBody_held unitUnbindRule hsl he).trans ?_) rfl
    rw [unitUnbindRule, hp]
    dsimp only
    rw [endUnitSessions_eq]
    rfl
  · exact exec_asks_done h (fun sl hsl _ => (identityBody_held unitForgetRule hsl he).trans (unitForgetRule_eq hv hw)) rfl
  · exact exec_asks_refuse h (fun sl hsl => unitBindRule_unknown hsl hn) rfl
  · exact exec_asks_refuse h (fun sl hsl => identityBody_unknown unitUnbindRule hsl hn) rfl
  · exact exec_asks_refuse h (fun sl hsl => identityBody_unknown unitForgetRule hsl hn) rfl
  · exact exec_asks_refuse h (fun sl hsl => unitBindRule_badParameter hsl hlen hb) rfl
  · exact exec_asks_refuse h (fun sl hsl => unitBindRule_badLength (hsl ▸ hlen)) rfl
  · exact exec_asks_refuse h (fun sl hsl => identityBody_badLength unitUnbindRule (hsl ▸ hlen)) rfl
  · exact exec_asks_refuse h (fun sl hsl => identityBody_badLength unitForgetRule (hsl ▸ hlen)) rfl

end Sys2Proof.Machine

/-! # The screen list and the reports of contexts (R91 to R96, R134, R153, R202, R203): O44, O53 -/

namespace Sys2Proof.Machine

/-! ## A screen item read back -/

theorem screenType_ofCode {b : Byte} {x : ScreenType} : ScreenType.ofCode b = some x ↔ b = x.code := by
  unfold ScreenType.ofCode
  cases x <;> split_ifs <;> simp_all [ScreenType.code]

theorem selectorKind_ofCode {b : Byte} {x : SelectorKind} : SelectorKind.ofCode b = some x ↔ b = x.code := by
  unfold SelectorKind.ofCode
  cases x <;> split_ifs <;> simp_all [SelectorKind.code]

theorem screenKind_ofCode {b : Byte} {x : ScreenKind} : ScreenKind.ofCode b = some x ↔ b = x.code := by
  unfold ScreenKind.ofCode
  cases x <;> split_ifs <;> simp_all [ScreenKind.code]

theorem screenAction_ofCode {b : Byte} {x : ScreenAction} : ScreenAction.ofCode b = some x ↔ b = x.code := by
  unfold ScreenAction.ofCode
  cases x <;> split_ifs <;> simp_all [ScreenAction.code]

theorem boolOfByte_iff {b : Byte} {u : Bool} : boolOfByte b = some u ↔ b = if u then 1 else 0 := by
  unfold boolOfByte
  cases u <;> split_ifs <;> simp_all

theorem clsOfByte_iff {b : Byte} {c : Cls} : clsOfByte b = some c ↔ b = byteOf c.val := by
  revert c b
  decide

theorem screenIndex_iff {b : Byte} {i : EntryId} : screenIndex b = some i ↔ b = byteOf i.val := by
  revert i b
  decide

theorem screenIndex_none {b : Byte} (h : 16 ≤ b.toNat) : screenIndex b = none := dif_neg (Nat.not_lt.mpr h)

theorem isSome_posOfByte (b : Byte) : (posOfByte b).isSome = true ↔ 1 ≤ b.toNat ∧ b.toNat ≤ 8 := by
  unfold posOfByte
  split_ifs with h <;> simpa using h

theorem isSome_lineOfByte (b : Byte) : (lineOfByte b).isSome = true ↔ 1 ≤ b.toNat ∧ b.toNat ≤ 4 := by
  unfold lineOfByte
  split_ifs with h <;> simpa using h

/-- R94: the first selector value byte is judged by what the selector is. -/
theorem selectorValueOk_iff (x : ScreenEntry) {b : Byte} (h : b.toNat = x.selValue.toNat % 256) :
    selectorValueOk x.selector b = true ↔ selectorNamed x := by
  unfold selectorValueOk selectorNamed
  rw [← h]
  cases x.selector with
  | any | identity => simp
  | position => simp [isSome_posOfByte]
  | line => simp [isSome_lineOfByte]

theorem leBytes_six (n : Nat) : leBytes 6 n =
    [byteOf n, byteOf (n / 256), byteOf (n / 256 / 256), byteOf (n / 256 / 256 / 256), byteOf (n / 256 / 256 / 256 / 256),
      byteOf (n / 256 / 256 / 256 / 256 / 256)] := rfl

/-- R202: the thirteen bytes of a screen item are read field by field. -/
theorem parseScreen_iff (b0 b1 b2 b3 b4 b5 b6 b7 b8 b9 b10 b11 b12 : Byte) (i : EntryId) (x : ScreenEntry) :
    parseScreen [b0, b1, b2, b3, b4, b5, b6, b7, b8, b9, b10, b11, b12] = some (i, x) ↔
      selectorNamed x ∧ [b0, b1, b2, b3, b4, b5, b6, b7, b8, b9, b10, b11, b12] = screenBytes i x := by
  have hval : identityAt [b0, b1, b2, b3, b4, b5, b6, b7, b8, b9, b10, b11, b12] 4 =
      BitVec.ofNat 48 (leNat [b4, b5, b6, b7, b8, b9]) := rfl
  have hlt : leNat [b4, b5, b6, b7, b8, b9] < 2 ^ 48 := (leNat_lt _).trans_eq (by norm_num)
  have hb4 : leNat [b4, b5, b6, b7, b8, b9] % 256 = b4.toNat := by
    have := b4.isLt
    rw [leNat]
    omega
  constructor
  · intro h
    unfold parseScreen at h
    split at h
    case h_1 i' u t sel k a c hi hu ht hsel hk ha hc =>
      split at h
      · rename_i hok
        obtain ⟨rfl, rfl⟩ := Prod.mk.inj (Option.some.inj h)
        have htoNat : (BitVec.ofNat 48 (leNat [b4, b5, b6, b7, b8, b9])).toNat = leNat [b4, b5, b6, b7, b8, b9] := by
          rw [BitVec.toNat_ofNat, Nat.mod_eq_of_lt hlt]
        refine ⟨(selectorValueOk_iff _ (b := b4) ?_).mp hok, ?_⟩
        · rw [hval, htoNat, hb4]
        · have e0 : b0 = byteOf i'.val := screenIndex_iff.mp hi
          have e1 : b1 = if u then 1 else 0 := boolOfByte_iff.mp hu
          have e2 : b2 = t.code := screenType_ofCode.mp ht
          have e3 : b3 = sel.code := selectorKind_ofCode.mp hsel
          have e10 : b10 = k.code := screenKind_ofCode.mp hk
          have e11 : b11 = a.code := screenAction_ofCode.mp ha
          have e12 : b12 = byteOf c.val := clsOfByte_iff.mp hc
          have hmid : leBytes 6 (leNat [b4, b5, b6, b7, b8, b9]) = [b4, b5, b6, b7, b8, b9] := leBytes_leNat [b4, b5, b6, b7, b8, b9]
          rw [screenBytes, hval, htoNat, hmid, ← e0, ← e1, ← e2, ← e3, ← e10, ← e11, ← e12]
          rfl
      · cases h
    case h_2 => cases h
  · rintro ⟨hsel, hbytes⟩
    rw [screenBytes, leBytes_six] at hbytes
    simp only [List.cons_append, List.nil_append, List.cons.injEq, and_true] at hbytes
    obtain ⟨e0, e1, e2, e3, e4, e5, e6, e7, e8, e9, e10, e11, e12⟩ := hbytes
    have hmid : [b4, b5, b6, b7, b8, b9] = leBytes 6 x.selValue.toNat := by
      rw [leBytes_six, e4, e5, e6, e7, e8, e9]
    have hsv : x.selValue = BitVec.ofNat 48 (leNat [b4, b5, b6, b7, b8, b9]) := by
      rw [hmid, leNat_leBytes]
      refine BitVec.eq_of_toNat_eq ?_
      have := x.selValue.isLt
      rw [BitVec.toNat_ofNat]
      omega
    have hok : selectorValueOk x.selector b4 = true := (selectorValueOk_iff x (by rw [e4, toNat_byteOf])).mpr hsel
    simp only [parseScreen, byteAt, List.getD_cons_zero, List.getD_cons_succ, screenIndex_iff.mpr e0, boolOfByte_iff.mpr e1,
      screenType_ofCode.mpr e2, selectorKind_ofCode.mpr e3, screenKind_ofCode.mpr e10, screenAction_ofCode.mpr e11,
      clsOfByte_iff.mpr e12, hval, ← hsv]
    exact if_pos hok

/-! ## SCREEN_SET and SCREEN_GET (R94, R95) -/

theorem screenBytes_length (i : EntryId) (x : ScreenEntry) : (screenBytes i x).length = 13 := by
  simp [screenBytes]

/-- R94: a body of thirteen bytes gives the entry whose item it is. -/
theorem parseScreen_eq_some {body : List Byte} (hlen : body.length = 13) (i : EntryId) (x : ScreenEntry) :
    parseScreen body = some (i, x) ↔ selectorNamed x ∧ body = screenBytes i x := by
  match body, hlen with
  | [b0, b1, b2, b3, b4, b5, b6, b7, b8, b9, b10, b11, b12], _ => exact parseScreen_iff _ _ _ _ _ _ _ _ _ _ _ _ _ i x

theorem screenItem_eq (i : EntryId) (x : ScreenEntry) : screenItem i x = screenBytes i x := rfl

section
variable {s : State} {sl : Slot}

theorem screenSetRule_item {i : EntryId} {x : ScreenEntry} (h : sl.body = screenBytes i x) (hx : selectorNamed x) :
    screenSetRule s sl = done (writeScreen s i x) [] := by
  have hparse := (parseScreen_eq_some (screenBytes_length i x) i x).mpr ⟨hx, rfl⟩
  rw [screenSetRule, h, screenBytes_length, if_neg (not_not_intro rfl), hparse]

theorem screenSetRule_badParameter (hlen : sl.body.length = 13)
    (h : ∀ (i : EntryId) (x : ScreenEntry), selectorNamed x → sl.body ≠ screenBytes i x) :
    screenSetRule s sl = refuse s .badParameter := by
  rw [screenSetRule, if_neg (not_not_intro hlen)]
  cases hparse : parseScreen sl.body with
  | none => rfl
  | some y =>
    obtain ⟨i, x⟩ := y
    obtain ⟨hx, hbody⟩ := (parseScreen_eq_some hlen i x).mp hparse
    exact absurd hbody (h i x hx)

theorem screenSetRule_badLength (h : sl.body.length ≠ 13) : screenSetRule s sl = refuse s .badLength := if_pos h

theorem screenGetRule_all (h : sl.body = []) :
    screenGetRule s sl = done s ((List.finRange 16).flatMap fun n => screenBytes n s.profile.screen[n] ++ leBytes 2 s.hits[n]) := by
  rw [screenGetRule, h]
  dsimp only
  rw [allEntries_eq_finRange, ← List.flatMap_def]
  rfl

theorem screenGetRule_one {b : Byte} (h : sl.body = [b]) :
    screenGetRule s sl = match screenIndex b with
      | none => refuse s .badParameter
      | some i => done s (screenReport s i) := by
  rw [screenGetRule, h] <;> rfl

theorem screenGetRule_badLength (h : 2 ≤ sl.body.length) : screenGetRule s sl = refuse s .badLength := by
  unfold screenGetRule
  split
  case h_1 hbody => simp [hbody] at h
  case h_2 b hbody => simp [hbody] at h
  case h_3 => rfl

end

/-- Settles O44: a body of thirteen bytes is the item of one entry, or of none. -/
theorem screenListIsKept : Obligations.ScreenListIsKept := by
  unfold Obligations.ScreenListIsKept
  refine ⟨fun s i n x h hx => ?_, fun s i body h hlen hno => ?_, fun s i body h hlen => ?_, fun s i h => ?_, fun s i n h => ?_,
    fun s i b h hb => ?_, fun s i body h hlen => ?_⟩
  · exact exec_asks_done h (fun sl hsl _ => screenSetRule_item hsl hx) rfl
  · exact exec_asks_refuse h (fun sl hsl => screenSetRule_badParameter (hsl ▸ hlen) fun i x hx => hsl ▸ hno i x hx) rfl
  · exact exec_asks_refuse h (fun sl hsl => screenSetRule_badLength (hsl ▸ hlen)) rfl
  · exact exec_asks_done h (fun sl hsl _ => screenGetRule_all hsl) rfl
  · exact exec_asks_done h (fun sl hsl _ => by rw [screenGetRule_one hsl, screenIndex_iff.mpr rfl]; rfl) rfl
  · exact exec_asks_refuse h (fun sl hsl => by rw [screenGetRule_one hsl, screenIndex_none hb]) rfl
  · exact exec_asks_refuse h (fun sl hsl => screenGetRule_badLength (hsl ▸ hlen)) rfl

/-! ## The reports of contexts (R134, R153) -/

theorem padTo_of_le {n : Nat} {v : Byte} {bs : List Byte} (h : bs.length ≤ n) :
    padTo n v bs = bs ++ List.replicate (n - bs.length) v := by
  rw [padTo, List.take_of_length_le h]

theorem length_packDigits : ∀ ds : List Nat, (packDigits ds).length = (ds.length + 1) / 2
  | [] => rfl
  | [_] => by simp [packDigits]
  | _ :: _ :: rest => by
    rw [packDigits, List.length_cons, length_packDigits rest, List.length_cons, List.length_cons]
    omega

/-- R122, R201: packed digits, filled to twelve bytes. -/
theorem padTo_packDigits {ds : List Nat} (h : ds.length ≤ 24) :
    padTo 12 0xFF (packDigits ds) = packDigits ds ++ List.replicate (12 - (ds.length + 1) / 2) 0xFF := by
  rw [padTo_of_le (by rw [length_packDigits]; omega), length_packDigits]

/-- R127, R201: the value field of a sound session. -/
theorem valueField_eq {ss : Session} (hv : valueSound ss) (hf : fieldSound ss.field) (c : Option Cause) :
    valueField ss c = resultValue ss c := by
  unfold valueField resultValue
  unfold valueSound at hv
  unfold fieldSound at hf
  cases hfield : ss.field with
  | amount => rfl
  | confirm => rfl
  | digits lo hi mask =>
    rw [hfield] at hv hf
    dsimp only at hv hf ⊢
    rw [padTo_packDigits (by omega)]
    rfl
  | pin lo hi =>
    rw [hfield] at hv hf
    dsimp only at hv hf ⊢
    rw [padTo_packDigits (by omega)]
    cases c <;> rfl

theorem length_fieldBytes_le (f : Field) : (fieldBytes f).length ≤ 13 := by
  cases f <;> simp [fieldBytes]

theorem fieldParameters_eq (f : Field) :
    fieldParameters f = fieldBytes f ++ List.replicate (13 - (fieldBytes f).length) 0 := by
  rw [← padTo_of_le (length_fieldBytes_le f)]
  cases f <;> rfl

section
variable {rule : State → Pos → Slot → State × Answer} {s : State} {sl : Slot}

theorem positionBody_named {p : Pos} (h : sl.body = [byteOf (p.val + 1)]) : positionBody rule s sl = rule s p sl := by
  have hbyte : posOfByte (byteAt [byteOf (p.val + 1)] 0) = some p := posOfByte_posByte p
  rw [positionBody, h, if_neg (by simp), hbyte]

theorem positionBody_badLength (h : sl.body.length ≠ 1) : positionBody rule s sl = refuse s .badLength := if_pos h

theorem positionBody_badParameter {b : Byte} (h : sl.body = [b]) (hb : b = 0 ∨ 8 < b.toNat) :
    positionBody rule s sl = refuse s .badParameter := by
  have hbyte : posOfByte (byteAt [b] 0) = none := posOfByte_eq_none hb
  rw [positionBody, h, if_neg (by simp), hbyte]

end

/-- R134, R203: what an ENTRY_STATUS reports after the session fields. -/
def contextTail (c : EntryCtx) : List Byte :=
  [boolByte c.dispPending, c.pendTone.code, boolByte c.target.isSome] ++ identityBytes ((c.target.map Prod.snd).getD 0)
    ++ boolByte c.guardTimer.isSome :: count2 (timerLeft c.guardTimer)

theorem contextTail_eq (c : EntryCtx) :
    contextTail c = [if c.dispPending then (1 : Byte) else 0, c.pendTone.code]
      ++ (match c.target with
          | some (_, x) => (1 : Byte) :: leBytes 6 x.toNat
          | none => List.replicate 7 (0 : Byte))
      ++ (match c.guardTimer with
          | some n => (1 : Byte) :: leBytes 2 (min 65535 n)
          | none => [(0 : Byte), 0, 0]) := by
  unfold contextTail
  cases c.guardTimer with
  | none => rcases c.target with _ | ⟨e, i⟩ <;> rfl
  | some n =>
    rw [show timerLeft (some n) = n from rfl, count2, Nat.min_comm n]
    rcases c.target with _ | ⟨e, i⟩ <;> rfl

theorem entryStatusFields_idle {s : State} {p : Pos} (h : s.entry[p].sess = none) :
    entryStatusFields s p = List.replicate 62 0 ++ contextTail s.entry[p] := by
  rw [entryStatusFields, h]
  rfl

theorem entryStatusFields_open {s : State} {p : Pos} {ss : Session} (h : s.entry[p].sess = some ss) :
    entryStatusFields s p = sessionCode (some ss) :: sessionFields ss ++ contextTail s.entry[p] := by
  rw [entryStatusFields, h]
  simp [contextTail]

theorem sessionTimerFields_eq (ss : Session) : sessionTimerFields ss =
    match ss.firstTimer, ss.interTimer with
    | some n, _ => (1 : Byte) :: leBytes 4 n
    | none, some n => 2 :: leBytes 4 n
    | none, none => [0, 0, 0, 0, 0] := by
  rw [sessionTimerFields]
  cases ss.firstTimer <;> cases ss.interTimer <;> rfl

theorem sessionFields_eq {ss : Session} (hp : ss.prompt.length = 16) (hx : ss.pfx.length ≤ 3) (hv : valueSound ss)
    (hf : fieldSound ss.field) :
    sessionFields ss = [ss.field.code] ++ fieldBytes ss.field ++ List.replicate (13 - (fieldBytes ss.field).length) 0 ++ ss.prompt
      ++ [byteOf ss.pfx.length] ++ ss.pfx ++ List.replicate (3 - ss.pfx.length) 0
      ++ [byteOf ss.firstKey, byteOf ss.interKey, ss.tag] ++ leBytes 6 ss.keypadId.toNat ++ resultValue ss none
      ++ sessionTimerFields ss := by
  rw [sessionFields, fieldParameters_eq, padTo_of_le hp.le, padTo_of_le hx, valueField_eq hv hf, hp, identityBytes]
  simp

theorem trackFields_eq (s : State) (c : CardCtx) (k : Fin 3) : trackFields s c k =
    match c.holds[k] with
    | some (st, r) => [(1 : Byte), st.code, byteOf (min 255 (s.pool.recs[r].len - 2))]
    | none => [0, 0, 0] := by
  rw [trackFields]
  rcases c.holds[k] with _ | ⟨st, r⟩
  · rfl
  · dsimp only
    rw [count1, Nat.min_comm]
    rfl

theorem cardStatusFields_eq (s : State) (p : Pos) : cardStatusFields s p =
      [s.card[p].state.code, s.card[p].cause.code]
        ++ (match slotOf s .reader p with
            | some e => (1 : Byte) :: leBytes 6 s.dir[e].identity.toNat
            | none => List.replicate 7 (0 : Byte))
        ++ [byteOf s.card[p].mask.toNat, s.card[p].tag]
        ++ ((List.finRange 3).flatMap fun k => trackFields s s.card[p] k)
        ++ [match s.card[p].current with
            | some (.read, _) => (1 : Byte)
            | some (.eject, _) => 2
            | some (.retain, _) => 3
            | none => 0]
        ++ (match s.card[p].readTimer, s.card[p].takeTimer, s.card[p].moveTimer with
            | some n, _, _ => (1 : Byte) :: leBytes 4 n
            | none, some n, _ => 2 :: leBytes 4 n
            | none, none, some n => 3 :: leBytes 4 n
            | none, none, none => [0, 0, 0, 0, 0]) := by
  have htracks : ((List.finRange 3).flatMap fun k => trackFields s s.card[p] k) =
      trackFields s s.card[p] 0 ++ (trackFields s s.card[p] 1 ++ (trackFields s s.card[p] 2 ++ [])) := rfl
  rw [cardStatusFields, htracks, slotIdentity]
  have htimer : cardTimerFields s.card[p] =
      match s.card[p].readTimer, s.card[p].takeTimer, s.card[p].moveTimer with
      | some n, _, _ => (1 : Byte) :: leBytes 4 n
      | none, some n, _ => 2 :: leBytes 4 n
      | none, none, some n => 3 :: leBytes 4 n
      | none, none, none => [0, 0, 0, 0, 0] := by
    rw [cardTimerFields]
    cases s.card[p].readTimer <;> cases s.card[p].takeTimer <;> cases s.card[p].moveTimer <;> rfl
  rw [htimer]
  congr 1
  rcases hcur : s.card[p].current with _ | ⟨cmd, r⟩
  · cases slotOf s .reader p <;> simp [boolByte, identityBytes, leBytes, List.replicate]
  · cases slotOf s .reader p <;> cases cmd <;> simp [boolByte, identityBytes, leBytes, List.replicate, CardCommand.code]

/-- Settles O53: the fields of each context, in the layout of R203. -/
theorem contextsAreReported : Obligations.ContextsAreReported := by
  unfold Obligations.ContextsAreReported
  refine ⟨fun s i p tail h htail => ⟨fun hs => ?_, fun ss hs hp hx hv hf => ?_⟩, fun s i p h => ?_, fun s i body => ⟨fun hlen =>
    ⟨fun h => ?_, fun h => ?_⟩, fun b hb hbad => ⟨fun h => ?_, fun h => ?_⟩⟩⟩
  · obtain rfl : tail = contextTail s.entry[p] := htail.trans (contextTail_eq _).symm
    refine exec_asks_done h (fun sl hsl _ => (positionBody_named hsl).trans ?_) rfl
    rw [entryStatusFields_idle hs]
  · obtain rfl : tail = contextTail s.entry[p] := htail.trans (contextTail_eq _).symm
    refine exec_asks_done h (fun sl hsl _ => (positionBody_named hsl).trans ?_) rfl
    rw [entryStatusFields_open hs, sessionFields_eq hp hx hv hf, sessionTimerFields_eq, sessionCode]
    simp <;> rfl
  · refine exec_asks_done h (fun sl hsl _ => (positionBody_named hsl).trans ?_) rfl
    rw [cardStatusFields_eq]
    simp only [trackFields_eq] <;> rfl
  · exact exec_asks_refuse h (fun sl hsl => positionBody_badLength (hsl ▸ hlen)) rfl
  · exact exec_asks_refuse h (fun sl hsl => positionBody_badLength (hsl ▸ hlen)) rfl
  · exact exec_asks_refuse h (fun sl hsl => positionBody_badParameter (hsl.trans hb) hbad) rfl
  · exact exec_asks_refuse h (fun sl hsl => positionBody_badParameter (hsl.trans hb) hbad) rfl

end Sys2Proof.Machine

/-! # The profile store (R189 to R194): O56 -/

namespace Sys2Proof.Machine

/-! ## PROFILE_COMMIT and PROFILE_LOAD -/

section
variable {s : State} {sl : Slot}

theorem profileCommitRule_busy {c : Commit} (h : s.store.commit = some c) : profileCommitRule s sl = refuse s .storeBusy := by
  rw [profileCommitRule, h]
  rfl

theorem profileCommitRule_refused (h : s.store.commit = none) {x : Fin 9} (hx : refusedAt s.profile s.pool 0 1 .part x) :
    profileCommitRule s sl = refuse { s with pool := counted s.pool x } .poolFull := by
  rw [profileCommitRule, h, reserve_refused (k := .commitDone) hx]
  rfl

theorem profileCommitRule_granted (h : s.store.commit = none) (hadm : admissible s.profile s.pool 0 1 .part) :
    ∃ (r : RecId) (p : Pool), granted s.pool p r (promised s .commitDone sl.tag) ∧
      profileCommitRule s sl = done (beginCommit { s with pool := p } r) [] := by
  obtain ⟨r, -, hg, -, heq⟩ := reserve_granted (k := .commitDone) sl.tag hadm
  refine ⟨r, _, hg, ?_⟩
  rw [profileCommitRule, h, heq]
  rfl

theorem profileLoadRule_busy {c : Commit} (h : s.store.commit = some c) : profileLoadRule s = refuse s .storeBusy := by
  rw [profileLoadRule, h]
  rfl

theorem profileLoadRule_wrongState (h : s.store.commit = none) (hs : s.store.state ≠ .complete) :
    profileLoadRule s = refuse s .wrongState := by
  rw [profileLoadRule, h, if_pos hs]
  rfl

theorem profileLoadRule_done (h : s.store.commit = none) (hs : s.store.state = .complete) :
    profileLoadRule s = done { s with profile := s.store.blocks[(0 : Fin 8)], hits := Vector.replicate 16 0 } [] := by
  rw [profileLoadRule, h, if_neg (not_not_intro hs)]
  rfl

end

/-- PROFILE_COMMIT's rule on an empty body. -/
def commitOnEmpty (s : State) (sl : Slot) : State × Answer :=
  if sl.body.isEmpty then profileCommitRule s sl else refuse s .badLength

theorem commitOnEmpty_nil {s : State} {sl : Slot} (h : sl.body = []) : commitOnEmpty s sl = profileCommitRule s sl := by
  rw [commitOnEmpty, h]
  rfl

theorem commitOnEmpty_badLength {s : State} {sl : Slot} (h : sl.body ≠ []) : commitOnEmpty s sl = refuse s .badLength :=
  if_neg (mt List.isEmpty_iff.1 h)

/-! ## The two endings of a write (R191) -/

theorem exec_verifyPasses (w : Nat) (s : State) : exec (.verifyPasses w) s = .next (writeEvent s w writeVerified) := rfl

theorem exec_writeLimitReached (w : Nat) (s : State) : exec (.writeLimitReached w) s = .next (writeEvent s w writeFailed) := rfl

section
variable {s : State} {c : Commit}

theorem writeEvent_current (hrun : s.running = true) (h : s.store.commit = some c) (rule : State → Commit → State) :
    writeEvent s c.write rule = settleLink (rule s c) := by
  rw [writeEvent, h]
  dsimp only
  rw [hrun, if_pos (by simp)]

/-- Log 42: an event of a write that is not in progress. -/
theorem writeEvent_late {w : Nat} (h : ∀ c : Commit, s.store.commit = some c → c.write ≠ w) (rule : State → Commit → State) :
    writeEvent s w rule = s := by
  unfold writeEvent
  cases hc : s.store.commit with
  | none => rfl
  | some c =>
    have hne : (w == c.write) = false := beq_eq_false_iff_ne.mpr (h c hc).symm
    dsimp only
    rw [hne, Bool.and_false, if_neg Bool.false_ne_true]

theorem writeVerified_next {st : Store} {u : Fin 10} (hst : writeBlock s.store c = st) (hu : u.val = c.unit.val + 1) :
    writeVerified s c = { s with store := beginWrite st { c with unit := u, attempt := 1 } } := by
  have hlt : c.unit.val < 9 := by omega
  have huu : (⟨c.unit.val + 1, by omega⟩ : Fin 10) = u := Fin.ext hu.symm
  rw [writeVerified, dif_pos hlt, hst, huu]

theorem writeBlock_none (h : ¬ (1 ≤ c.unit.val ∧ c.unit.val ≤ 8)) (st : Store) : writeBlock st c = st := dif_neg h

theorem writeBlock_block {k : Fin 8} (h : c.unit.val = k.val + 1) (st : Store) :
    writeBlock st c = { st with blocks := st.blocks.set k c.snapshot } := by
  have hk : c.unit.val - 1 = k.val := by omega
  rw [writeBlock, dif_pos (by omega)]
  simp only [hk]

theorem writeVerified_last (h : c.unit = 9) :
    writeVerified s c = commitEnds { s with store := { s.store with state := .complete } } c false := by
  have hu : c.unit.val = 9 := congrArg Fin.val h
  rw [writeVerified]
  dsimp only
  rw [dif_neg (by omega), writeBlock_none (by omega)]

/-- R191: the number that the next write gets is not that of the one that has ended. -/
theorem writeVerified_number {d : Commit} (hc : c.write = s.store.begun) (h : (writeVerified s c).store.commit = some d) :
    d.write ≠ c.write := by
  have hbegun : (writeBlock s.store c).begun = s.store.begun := by
    unfold writeBlock
    split_ifs <;> rfl
  unfold writeVerified at h
  dsimp only at h
  split_ifs at h
  · obtain rfl := Option.some.inj h
    dsimp only
    omega
  · cases h

theorem writeFailed_number {d : Commit} (hc : c.write = s.store.begun) (h : (writeFailed s c).store.commit = some d) :
    d.write ≠ c.write := by
  unfold writeFailed at h
  split_ifs at h
  · obtain rfl := Option.some.inj h
    dsimp only
    omega
  · cases h

end

/-- Settles O56: each request and each ending of a write by its rule; the next write has a number of its own. -/
theorem storeKeepsTheProfile : Obligations.StoreKeepsTheProfile := by
  unfold Obligations.StoreKeepsTheProfile
  refine ⟨fun s i h => ⟨fun c hc => ?_, fun hc => ⟨fun x hx => ?_, fun hadm => ?_⟩⟩,
    fun s i h => ⟨fun c hc => ?_, fun hc hs => ?_, fun hc hs => ?_⟩, fun s i body hb => ⟨fun h => ?_, fun h => ?_⟩,
    fun s c hrun hc => ⟨fun hu => ?_, fun k u hk hu => ?_, fun hu => ?_, fun ha => ?_, fun ha => ?_⟩,
    fun s w hw => ⟨?_, ?_⟩, fun s t c hrun hc hsound ht => ?_⟩
  · exact exec_asks_refuse h (fun sl hsl => (commitOnEmpty_nil hsl).trans (profileCommitRule_busy hc)) rfl
  · rw [show exec .profileCommit s = .next (handle s (ofType 0x32) commitOnEmpty settleLink) from rfl, handle_of_asks h,
      commitOnEmpty_nil h.2.2, profileCommitRule_refused hc hx]
    rfl
  · obtain ⟨r, p, hg, heq⟩ := profileCommitRule_granted (sl := s.link.slots[i]) hc hadm
    refine ⟨r, p, hg, ?_⟩
    rw [show exec .profileCommit s = .next (handle s (ofType 0x32) commitOnEmpty settleLink) from rfl,
      handle_of_asks_done h ((commitOnEmpty_nil h.2.2).trans heq)]
    rfl
  · exact exec_asks_refuse h (fun sl hsl => (emptyBody_of_eq_nil profileLoadRule s hsl).trans (profileLoadRule_busy hc)) rfl
  · exact exec_asks_refuse h
      (fun sl hsl => (emptyBody_of_eq_nil profileLoadRule s hsl).trans (profileLoadRule_wrongState hc hs)) rfl
  · exact exec_asks_done h (fun sl hsl _ => (emptyBody_of_eq_nil profileLoadRule s hsl).trans (profileLoadRule_done hc hs)) rfl
  · exact exec_asks_refuse h (fun sl hsl => commitOnEmpty_badLength (hsl ▸ hb)) rfl
  · exact exec_asks_refuse h (fun sl hsl => emptyBody_of_ne_nil profileLoadRule s (hsl ▸ hb)) rfl
  · rw [exec_verifyPasses, writeEvent_current hrun hc, writeVerified_next (u := 1) (writeBlock_none (by rw [hu]; decide) _) (by rw [hu]; rfl)]
    rfl
  · rw [exec_verifyPasses, writeEvent_current hrun hc, writeVerified_next (u := u) (writeBlock_block hk _) (by omega)]
    rfl
  · rw [exec_verifyPasses, writeEvent_current hrun hc, writeVerified_last hu, commitEnds, commitDoneBody, count2, Nat.min_comm 65535]
    rfl
  · rw [exec_writeLimitReached, writeEvent_current hrun hc, writeFailed, if_pos ha.le]
    rfl
  · rw [exec_writeLimitReached, writeEvent_current hrun hc, writeFailed, if_neg (by omega), commitEnds, commitDoneBody, count2,
      Nat.min_comm 65535]
    rfl
  · rw [exec_verifyPasses, writeEvent_late hw]
  · rw [exec_writeLimitReached, writeEvent_late hw]
  · obtain ⟨-, -, -, -, -, hwrite, -⟩ := hsound
    have late : ∀ d : Commit, t.store.commit = some d → d.write ≠ c.write := by
      rcases ht with ht | ht
      · rw [exec_verifyPasses, writeEvent_current hrun hc] at ht
        obtain rfl := Host.Outcome.next.inj ht
        rw [(sends_settleLink _).store]
        exact fun d => writeVerified_number hwrite
      · rw [exec_writeLimitReached, writeEvent_current hrun hc] at ht
        obtain rfl := Host.Outcome.next.inj ht
        rw [(sends_settleLink _).store]
        exact fun d => writeFailed_number hwrite
    exact ⟨by rw [exec_verifyPasses, writeEvent_late late], by rw [exec_writeLimitReached, writeEvent_late late]⟩

end Sys2Proof.Machine

/-! # The profile items (R24, R184 to R188, R202): O55 -/

namespace Sys2Proof.Machine

/-! ## Places -/

theorem vector_set_get {α : Type} {n : Nat} (v : Vector α n) (i k : Fin n) (x : α) :
    (v.set i x)[k] = if i = k then x else v[k] := by
  by_cases h : i = k
  · subst h
    simp
  · simp [h, Fin.val_ne_of_ne h]

theorem indexKind_none_iff (it : Item) : it.indexKind = .none ↔ it ∉ [Item.lineEnabled, .lineD, .lineS, .pin] := by
  cases it <;> decide

theorem indexKind_line_iff (it : Item) : it.indexKind = .line ↔ it ∈ [Item.lineEnabled, .lineD, .lineS] := by
  cases it <;> decide

theorem indexKind_pin_iff (it : Item) : it.indexKind = .pin ↔ it = .pin := by
  cases it <;> decide

theorem lineOfByte_iff {b : Byte} {l : LineId} : lineOfByte b = some l ↔ b = byteOf (l.val + 1) := by
  revert l b
  decide

/-- R202: the pin that an index byte names. -/
theorem placeOf_pin : ∀ (b : Byte) (k : Fin 16), placeOf .pin b = some (.pin k) ↔ b = byteOf (k.val + 1) := by
  decide

/-- R186: the place that the index byte of an item names. -/
theorem placeOf_iff (it : Item) (b : Byte) (pl : Place) : placeOf it b = some pl ↔ namesPlace it b pl := by
  cases hk : it.indexKind with
  | none =>
    have hin : it ∉ [Item.lineEnabled, .lineD, .lineS, .pin] := (indexKind_none_iff it).mp hk
    have hplace : placeOf it b = some .whole := by rw [placeOf, hk]
    rw [hplace]
    cases pl with
    | whole => exact iff_of_true rfl hin
    | line l => exact iff_of_false (by simp) fun h => hin (List.mem_append_left [Item.pin] h.1)
    | pin k => exact iff_of_false (by simp) fun h => hin (by rw [h.1]; decide)
  | line =>
    have hin : it ∈ [Item.lineEnabled, .lineD, .lineS] := (indexKind_line_iff it).mp hk
    have hplace : placeOf it b = (lineOfByte b).map .line := by rw [placeOf, hk]
    rw [hplace]
    cases pl with
    | whole => exact iff_of_false (by simp) fun h => h (List.mem_append_left [Item.pin] hin)
    | line l =>
      rw [Option.map_eq_some_iff]
      refine ⟨fun ⟨k, hb, hkl⟩ => ⟨hin, ?_⟩, fun ⟨_, hb⟩ => ⟨l, lineOfByte_iff.mpr hb, rfl⟩⟩
      rw [← Place.line.inj hkl]
      exact lineOfByte_iff.mp hb
    | pin k =>
      refine iff_of_false (by simp) fun h => ?_
      rw [h.1] at hk
      cases hk
  | pin =>
    obtain rfl := (indexKind_pin_iff it).mp hk
    cases pl with
    | whole => exact iff_of_false (by revert b; decide) fun h => h (by decide)
    | line l => exact iff_of_false (by revert b l; decide) fun h => absurd h.1 (by decide)
    | pin k => exact (placeOf_pin b k).trans (by simp [namesPlace])

theorem placeOf_none {it : Item} {b : Byte} (h : ∀ pl : Place, ¬ namesPlace it b pl) : placeOf it b = none :=
  Option.eq_none_iff_forall_ne_some.mpr fun pl hpl => h pl ((placeOf_iff it b pl).mp hpl)

theorem mem_places_line {it : Item} (h : it.indexKind = .line) {y : Place} (hy : y ∈ it.places) : ∃ l : LineId, y = .line l := by
  rw [Item.places, h] at hy
  obtain ⟨l, -, rfl⟩ := List.mem_map.mp hy
  exact ⟨l, rfl⟩

/-! ## What the bytes of the items are after a write -/

/-- R202: the bytes of an item of a line. -/
def lineItemBytes (x : LineItems) : Item → List Byte
  | .lineEnabled => [boolByte x.enabled]
  | .lineD => [byteOf x.d]
  | .lineS => [byteOf x.s]
  | _ => []

theorem lineItemBytes_enabled (x : LineItems) (b : Bool) (it : Item) :
    lineItemBytes { x with enabled := b } it = if it = .lineEnabled then [boolByte b] else lineItemBytes x it := by
  cases it <;> rfl

theorem lineItemBytes_d (x : LineItems) (n : Nat) (it : Item) :
    lineItemBytes { x with d := n } it = if it = .lineD then [byteOf n] else lineItemBytes x it := by
  cases it <;> rfl

theorem lineItemBytes_s (x : LineItems) (n : Nat) (it : Item) :
    lineItemBytes { x with s := n } it = if it = .lineS then [byteOf n] else lineItemBytes x it := by
  cases it <;> rfl

/-- R184: the items of the lines are those of the lines' items, and no other item is. -/
theorem itemBytes_lines (p : Profile) (ls : Vector LineItems 4) (x : Item) (y : Place) :
    itemBytes { p with lines := ls } x y =
      if x.indexKind = .line then lineItemBytes (({ p with lines := ls } : Profile).lineAt y) x else itemBytes p x y := by
  cases x <;> rfl

theorem itemBytes_modLineItems (p : Profile) (l : LineId) (f : LineItems → LineItems) {x : Item} {y : Place} (hy : y ∈ x.places) :
    itemBytes (p.modLineItems (.line l) f) x y =
      if x.indexKind = .line ∧ y = .line l then lineItemBytes (f p.lines[l]) x else itemBytes p x y := by
  have hold := itemBytes_lines p p.lines x y
  have hnew := itemBytes_lines p (p.lines.set l (f p.lines[l])) x y
  by_cases hx : x.indexKind = .line
  · obtain ⟨k, rfl⟩ := mem_places_line hx hy
    rw [if_pos hx] at hold hnew
    refine hnew.trans ?_
    have hget : ({ p with lines := p.lines.set l (f p.lines[l]) } : Profile).lineAt (.line k) =
        if l = k then f p.lines[l] else p.lines[k] := vector_set_get p.lines l k _
    rw [hget]
    by_cases hk : l = k
    · subst hk
      rw [if_pos rfl, if_pos ⟨hx, rfl⟩]
    · rw [if_neg hk, if_neg fun h => hk (Place.line.inj h.2).symm]
      exact hold.symm
  · rw [if_neg hx] at hnew
    rw [if_neg fun h => hx h.1]
    exact hnew

/-- Whether an item is one number for the part. -/
def Item.isNumber (it : Item) : Bool := it.range.isSome && it.indexKind == .none

/-- R184: each number of the part has a field of its own. -/
theorem itemBytes_setNumber (p : Profile) (it : Item) (n : Nat) (x : Item) (y : Place) :
    itemBytes (setNumber p it .whole n) x y =
      if x = it ∧ it.isNumber = true then leBytes it.size n else itemBytes p x y := by
  cases it <;> cases x <;> rfl

theorem setNumber_screen (p : Profile) (it : Item) (pl : Place) (n : Nat) : (setNumber p it pl n).screen = p.screen := by
  cases it <;> cases pl <;> rfl

theorem itemBytes_readOnInsert (p : Profile) (b : Byte) (x : Item) (y : Place) :
    itemBytes { p with readOnInsert := b } x y = if x = .readOnInsert then [b] else itemBytes p x y := by
  cases x <;> rfl

theorem itemBytes_closedText (p : Profile) (t : List Byte) (x : Item) (y : Place) :
    itemBytes { p with closedText := t } x y = if x = .closedText then t else itemBytes p x y := by
  cases x <;> rfl

theorem itemBytes_writeLimit (p : Profile) (n : Nat) (x : Item) (y : Place) :
    itemBytes { p with writeLimit := n } x y = if x = .writeLimit then [byteOf n] else itemBytes p x y := by
  cases x <;> rfl

theorem itemBytes_pinList (p : Profile) (v : Vector (Option (Identity × Pos)) 16) (x : Item) (y : Place) :
    itemBytes { p with pins := v } x y = if x = .pin then itemBytes { p with pins := v } .pin y else itemBytes p x y := by
  cases x <;> rfl

theorem itemBytes_pins (p : Profile) (k : Fin 16) (o : Option (Identity × Pos)) {x : Item} {y : Place} (hy : y ∈ x.places) :
    itemBytes { p with pins := p.pins.set k o } x y = if x = .pin ∧ y = .pin k then pinBytes o else itemBytes p x y := by
  by_cases hx : x = .pin
  · subst hx
    obtain ⟨j, -, rfl⟩ := List.mem_map.mp hy
    have hget : itemBytes { p with pins := p.pins.set k o } .pin (.pin j) = pinBytes (if k = j then o else p.pins[j]) :=
      congrArg pinBytes (vector_set_get p.pins k j o)
    rw [hget]
    by_cases hk : k = j
    · subst hk
      rw [if_pos rfl, if_pos ⟨rfl, rfl⟩]
    · rw [if_neg hk, if_neg fun h => hk (Place.pin.inj h.2).symm]
      rfl
  · rw [if_neg fun h => hx h.1]
    exact (itemBytes_pinList p (p.pins.set k o) x y).trans (if_neg hx)

/-! ## The value taken (R186, R187) -/

theorem range_bounds {it : Item} {lo hi : Nat} (h : it.range = some (lo, hi)) : lo ≤ hi ∧ hi < 256 ^ it.size := by
  cases it <;> simp [Item.range] at h <;> obtain ⟨rfl, rfl⟩ := h <;> decide

theorem clampTo_eq_nearest {lo hi : Nat} (h : lo ≤ hi) (n : Nat) : clampTo lo hi n = nearest lo hi n := by
  unfold clampTo nearest
  split_ifs <;> omega

theorem takenNumber_eq (p : Profile) (it : Item) (lo hi n : Nat) :
    takenNumber p it lo hi n = if it = .lostLimit then max (p.silenceLimit + 1) (clampTo lo hi n) else clampTo lo hi n := by
  cases it <;> rfl

theorem raisesLost_iff (p : Profile) (it : Item) (n : Nat) :
    raisesLost p it n = true ↔ it = .silenceLimit ∧ p.lostLimit < n + 1 := by
  cases it <;> simp [raisesLost]

section
variable {p : Profile} {it : Item} {lo hi : Nat} {v : List Byte}

theorem bytesTaken_number (h : it.range = some (lo, hi)) :
    bytesTaken p it v = leBytes it.size (takenNumber p it lo hi (leNat v)) := by
  rw [bytesTaken, h, takenNumber_eq, clampTo_eq_nearest (range_bounds h).1]

/-- R184, R187: a number taken has room in its item. -/
theorem takenNumber_lt (h : it.range = some (lo, hi)) (hs : profileSound p) (n : Nat) :
    takenNumber p it lo hi n < 256 ^ it.size := by
  obtain ⟨hle, hlt⟩ := range_bounds h
  have hclamp := (clampTo_bounds hle n).2
  rw [takenNumber_eq]
  split_ifs with hit
  · subst hit
    obtain ⟨-, hn, -⟩ := (profileSound_iff p).mp hs
    unfold numbersSound at hn
    have : Item.lostLimit.size = 2 := rfl
    rw [this] at hlt ⊢
    omega
  · omega

theorem bytesTaken_eq_iff (h : it.range = some (lo, hi)) (hs : profileSound p) (hv : v.length = it.size) :
    bytesTaken p it v = v ↔ takenNumber p it lo hi (leNat v) = leNat v := by
  rw [bytesTaken_number h]
  constructor
  · intro heq
    have := congrArg leNat heq
    rwa [leNat_leBytes, Nat.mod_eq_of_lt (takenNumber_lt h hs _)] at this
  · intro heq
    rw [heq, ← hv, leBytes_leNat]

theorem raisesLost_taken (h : it.range = some (lo, hi)) :
    raisesLost p it (takenNumber p it lo hi (leNat v)) = true ↔ lostRaised p it v := by
  rw [raisesLost_iff]
  refine and_congr_right fun hit => ?_
  subst hit
  obtain ⟨rfl, rfl⟩ := Prod.mk.inj (Option.some.inj h)
  rw [takenNumber_eq, if_neg (by decide), clampTo_eq_nearest (by decide)]

end

/-- R186: a write that changes one item alone. -/
theorem itemWritten_of {p w : Profile} {it : Item} {pl : Place} {v : List Byte} (hbytes : itemBytes w it pl = bytesTaken p it v)
    (hscreen : w.screen = p.screen) (hlost : ¬ lostRaised p it v)
    (hother : ∀ (x : Item) (y : Place), y ∈ x.places → ¬ (x = it ∧ y = pl) → itemBytes w x y = itemBytes p x y) :
    itemWritten p w it pl v :=
  ⟨hbytes, hscreen, fun h => absurd h hlost, fun x y hy hne _ => hother x y hy hne⟩

/-- R186: a write of an item of a line. -/
theorem itemWritten_line {p : Profile} {it : Item} {l : LineId} {f : LineItems → LineItems} {v : List Byte}
    (hit : it.indexKind = .line) (hbytes : lineItemBytes (f p.lines[l]) it = bytesTaken p it v)
    (hother : ∀ x, x ≠ it → lineItemBytes (f p.lines[l]) x = lineItemBytes p.lines[l] x) :
    itemWritten p (p.modLineItems (.line l) f) it (.line l) v := by
  have hmem : Place.line l ∈ it.places := by
    rw [Item.places, hit]
    exact List.mem_map.mpr ⟨l, mem_allLines l, rfl⟩
  refine itemWritten_of ?_ rfl (fun h => ?_) fun x y hy hne => ?_
  · rw [itemBytes_modLineItems p l f hmem, if_pos ⟨hit, rfl⟩, hbytes]
  · rw [h.1] at hit
    cases hit
  · rw [itemBytes_modLineItems p l f hy]
    split_ifs with h
    · obtain ⟨hx, rfl⟩ := h
      rw [hother x fun h => hne ⟨h, rfl⟩]
      exact ((itemBytes_lines p p.lines x (.line l)).trans (if_pos hx)).symm
    · rfl

/-! ## A number is written (R187) -/

theorem place_of_line {it : Item} (h : it.indexKind = .line) {b : Byte} {pl : Place} (hb : namesPlace it b pl) :
    ∃ l, pl = .line l := by
  cases pl with
  | whole => exact absurd (List.mem_append_left [Item.pin] ((indexKind_line_iff it).mp h)) hb
  | line l => exact ⟨l, rfl⟩
  | pin k =>
    rw [hb.1] at h
    cases h

theorem place_of_none {it : Item} (h : it.indexKind = .none) {b : Byte} {pl : Place} (hb : namesPlace it b pl) : pl = .whole := by
  cases pl with
  | whole => rfl
  | line l =>
    rw [(indexKind_line_iff it).mpr hb.1] at h
    cases h
  | pin k =>
    rw [hb.1] at h
    cases h

section
variable {p : Profile} {it : Item} {lo hi : Nat} {v : List Byte}

/-- R187: a number of a line is written. -/
theorem itemWritten_lineNumber (h : it.range = some (lo, hi)) (hk : it.indexKind = .line) (l : LineId) :
    itemWritten p (writeNumber p it (.line l) lo hi (leNat v)).profile it (.line l) v := by
  have hnot : ¬ raisesLost p it (takenNumber p it lo hi (leNat v)) = true := fun hr => by
    rw [((raisesLost_iff _ _ _).mp hr).1] at hk
    cases hk
  have hprofile : (writeNumber p it (.line l) lo hi (leNat v)).profile =
      setNumber p it (.line l) (takenNumber p it lo hi (leNat v)) := if_neg hnot
  have hbytes := bytesTaken_number (p := p) (v := v) h
  have hin := (indexKind_line_iff it).mp hk
  rw [hprofile]
  rcases List.mem_cons.mp hin with rfl | hin
  · cases h
  · rcases List.mem_cons.mp hin with rfl | hin
    · exact itemWritten_line (f := fun x => { x with d := takenNumber p .lineD lo hi (leNat v) }) rfl hbytes.symm
        fun x hx => (lineItemBytes_d _ _ x).trans (if_neg hx)
    · obtain rfl := List.mem_singleton.mp hin
      exact itemWritten_line (f := fun x => { x with s := takenNumber p .lineS lo hi (leNat v) }) rfl hbytes.symm
        fun x hx => (lineItemBytes_s _ _ x).trans (if_neg hx)

/-- R187: a number of the part is written, and the lost limit with a silence limit that reaches it. -/
theorem itemWritten_partNumber (h : it.range = some (lo, hi)) (hk : it.indexKind = .none) :
    itemWritten p (writeNumber p it .whole lo hi (leNat v)).profile it .whole v := by
  have hup := raisesLost_taken (p := p) (v := v) h
  have hnumber : it.isNumber = true := by
    rw [Item.isNumber, h, hk]
    rfl
  have hset := fun x y => itemBytes_setNumber p it (takenNumber p it lo hi (leNat v)) x y
  have hself : ∀ {x : Item} {y : Place}, y ∈ x.places → ¬ (x = it ∧ y = .whole) → ¬ (x = it ∧ it.isNumber = true) :=
    fun hy hx hxi => by
      obtain ⟨rfl, -⟩ := hxi
      rw [Item.places, hk] at hy
      exact hx ⟨rfl, List.mem_singleton.mp hy⟩
  by_cases hr : raisesLost p it (takenNumber p it lo hi (leNat v)) = true
  · have hprofile : (writeNumber p it .whole lo hi (leNat v)).profile =
        setNumber (setNumber p it .whole (takenNumber p it lo hi (leNat v))) .lostLimit .whole
          (takenNumber p it lo hi (leNat v) + 1) := if_pos hr
    obtain ⟨hit, -⟩ := hup.mp hr
    have htaken : takenNumber p it lo hi (leNat v) = nearest 1 30 (leNat v) := by
      subst hit
      obtain ⟨rfl, rfl⟩ := Prod.mk.inj (Option.some.inj h)
      rw [takenNumber_eq, if_neg (by decide), clampTo_eq_nearest (by decide)]
    have hne : it ≠ .lostLimit := by rw [hit]; decide
    rw [hprofile]
    refine ⟨?_, ?_, fun _ => ?_, fun x y hy hx hlost => ?_⟩
    · rw [itemBytes_setNumber, if_neg fun k => hne k.1, hset, if_pos ⟨rfl, hnumber⟩, bytesTaken_number h]
    · rw [setNumber_screen, setNumber_screen]
    · rw [itemBytes_setNumber, if_pos ⟨rfl, rfl⟩, htaken]
      rfl
    · rw [itemBytes_setNumber, if_neg fun k => hlost ⟨k.1, hup.mp hr⟩, hset, if_neg (hself hy hx)]
  · have hprofile : (writeNumber p it .whole lo hi (leNat v)).profile =
        setNumber p it .whole (takenNumber p it lo hi (leNat v)) := if_neg hr
    rw [hprofile]
    refine itemWritten_of ?_ (setNumber_screen _ _ _ _) (mt hup.mpr hr) fun x y hy hx => ?_
    · rw [hset, if_pos ⟨rfl, hnumber⟩, bytesTaken_number h]
    · rw [hset, if_neg (hself hy hx)]

theorem itemWritten_number {pl : Place} {b : Byte} (h : it.range = some (lo, hi)) (hb : namesPlace it b pl) :
    itemWritten p (writeNumber p it pl lo hi (leNat v)).profile it pl v := by
  cases hk : it.indexKind with
  | pin =>
    rw [(indexKind_pin_iff it).mp hk] at h
    cases h
  | line =>
    obtain ⟨l, rfl⟩ := place_of_line hk hb
    exact itemWritten_lineNumber h hk l
  | none =>
    obtain rfl := place_of_none hk hb
    exact itemWritten_partNumber h hk

end

/-! ## Any item is written (R186) -/

/-- R186, R187: what a write of an item leaves, and when it counts as clamped. -/
structure WrittenAs (p : Profile) (it : Item) (pl : Place) (v : List Byte) (w : Written) : Prop where
  item : itemWritten p w.profile it pl v
  second : w.second = true ↔ lostRaised p it v
  clamped : w.clamped = true ↔ lostRaised p it v ∨ (it.range ≠ none ∧ bytesTaken p it v ≠ v)

theorem writtenAs_number {p : Profile} {it : Item} {lo hi : Nat} {v : List Byte} {pl : Place} {b : Byte}
    (h : it.range = some (lo, hi)) (hb : namesPlace it b pl) (hs : profileSound p) (hv : v.length = it.size) :
    WrittenAs p it pl v (writeNumber p it pl lo hi (leNat v)) := by
  have hup := raisesLost_taken (p := p) (v := v) h
  refine ⟨itemWritten_number h hb, hup, ?_⟩
  show (decide (takenNumber p it lo hi (leNat v) ≠ leNat v) || raisesLost p it (takenNumber p it lo hi (leNat v))) = true ↔ _
  rw [Bool.or_eq_true, decide_eq_true_iff, hup, h, or_comm, ne_eq, ← bytesTaken_eq_iff h hs hv]
  simp

/-- R186: a write that brings no value within its range. -/
theorem writtenAs_plain {p w : Profile} {it : Item} {pl : Place} {v : List Byte} (h : itemWritten p w it pl v)
    (hrange : it.range = none) : WrittenAs p it pl v { profile := w, clamped := false, second := false } := by
  have hlost : ¬ lostRaised p it v := fun hl => by
    rw [hl.1] at hrange
    cases hrange
  refine ⟨h, ?_, ?_⟩
  · simp [hlost]
  · simp [hlost, hrange]

theorem not_lostRaised_of_range {p : Profile} {it : Item} {v : List Byte} (h : it.range = none) : ¬ lostRaised p it v := fun hl => by
  rw [hl.1] at h
  cases h

theorem bytesTaken_plain {p : Profile} {it : Item} {v : List Byte} (h : it.range = none) (hpin : it ≠ .pin) :
    bytesTaken p it v = v := by
  rw [bytesTaken, h]
  exact if_neg fun k => hpin k.1

theorem exists_one {v : List Byte} (h : v.length = 1) : v = [byteAt v 0] := by
  obtain ⟨b, rfl⟩ := List.length_eq_one_iff.mp h
  rfl

/-- R186: the last check of an item, and its write. -/
def WritesAs (p : Profile) (it : Item) (pl : Place) (v : List Byte) : Prop :=
  (¬ suits it v → writeItem p it pl v = none) ∧
    (suits it v → profileSound p → ∃ w, writeItem p it pl v = some w ∧ WrittenAs p it pl v w)

section
variable {p : Profile} {v : List Byte}

theorem writesAs_lineEnabled (l : LineId) (hv : v.length = 1) : WritesAs p .lineEnabled (.line l) v := by
  obtain ⟨b, rfl⟩ := List.length_eq_one_iff.mp hv
  have hwrite : writeItem p .lineEnabled (.line l) [b] =
      if b.toNat ≤ 1 then plainWrite (p.modLineItems (.line l) fun x => { x with enabled := b == 1 }) else none := rfl
  have hbyte : b.toNat ≤ 1 → boolByte (b == 1) = b := by
    clear hwrite hv
    revert b
    decide
  refine ⟨fun h => ?_, fun h _ => ⟨_, hwrite.trans (if_pos (h.1 rfl)), writtenAs_plain (itemWritten_line
    (f := fun x => { x with enabled := b == 1 }) rfl ?_ fun x hx => (lineItemBytes_enabled _ _ x).trans (if_neg hx)) rfl⟩⟩
  · refine hwrite.trans (if_neg fun hb => h ⟨fun _ => hb, ?_, ?_, ?_⟩) <;> exact Item.noConfusion
  · rw [bytesTaken_plain rfl (by decide), lineItemBytes_enabled, if_pos rfl, hbyte (h.1 rfl)]

theorem writesAs_readOnInsert (hv : v.length = 1) : WritesAs p .readOnInsert .whole v := by
  obtain ⟨b, rfl⟩ := List.length_eq_one_iff.mp hv
  have hsuits : suits .readOnInsert [b] := by refine ⟨?_, ?_, ?_, ?_⟩ <;> exact Item.noConfusion
  refine ⟨fun h => absurd hsuits h, fun _ _ => ⟨_, rfl, writtenAs_plain (itemWritten_of ?_ rfl
    (not_lostRaised_of_range rfl) fun x y hy hx => ?_) rfl⟩⟩
  · exact (bytesTaken_plain rfl (by decide)).symm
  · rw [itemBytes_readOnInsert, if_neg]
    rintro rfl
    exact hx ⟨rfl, List.mem_singleton.mp hy⟩

theorem textOk_iff : textOk v = true ↔ ∀ b ∈ v, 0x20 ≤ b.toNat ∧ b.toNat ≤ 0x7E := by
  simp [textOk]

theorem writesAs_closedText : WritesAs p .closedText .whole v := by
  have hwrite : writeItem p .closedText .whole v = if textOk v then plainWrite { p with closedText := v } else none := rfl
  refine ⟨fun h => ?_, fun h _ => ⟨_, hwrite.trans (if_pos (textOk_iff.mpr (h.2.1 rfl))), writtenAs_plain (itemWritten_of ?_ rfl
    (not_lostRaised_of_range rfl) fun x y hy hx => ?_) rfl⟩⟩
  · refine hwrite.trans (if_neg fun ht => h ⟨?_, fun _ => textOk_iff.mp ht, ?_, ?_⟩) <;> exact Item.noConfusion
  · exact (bytesTaken_plain rfl (by decide)).symm
  · rw [itemBytes_closedText, if_neg]
    rintro rfl
    exact hx ⟨rfl, List.mem_singleton.mp hy⟩

theorem writesAs_writeLimit (hv : v.length = 1) : WritesAs p .writeLimit .whole v := by
  obtain ⟨b, rfl⟩ := List.length_eq_one_iff.mp hv
  have hwrite : writeItem p .writeLimit .whole [b] =
      if b.toNat ≤ 3 then plainWrite { p with writeLimit := b.toNat } else none := rfl
  refine ⟨fun h => ?_, fun h _ => ⟨_, hwrite.trans (if_pos (h.2.2.1 rfl)), writtenAs_plain (itemWritten_of ?_ rfl
    (not_lostRaised_of_range rfl) fun x y hy hx => ?_) rfl⟩⟩
  · refine hwrite.trans (if_neg fun hb => h ⟨?_, ?_, fun _ => hb, ?_⟩) <;> exact Item.noConfusion
  · rw [bytesTaken_plain rfl (by decide), itemBytes_writeLimit, if_pos rfl, byteOf_toNat]
  · rw [itemBytes_writeLimit, if_neg]
    rintro rfl
    exact hx ⟨rfl, List.mem_singleton.mp hy⟩

/-- R186, R202: the seven bytes of a pin. -/
theorem parsePin_eq (hv : v.length = 7) :
    (¬ (byteAt v 6).toNat ≤ 8 → parsePin v = none) ∧
      ((byteAt v 6).toNat ≤ 8 → ∃ x, parsePin v = some x ∧ pinBytes x = bytesTaken p .pin v) := by
  match v, hv with
  | [b0, b1, b2, b3, b4, b5, b6], _ =>
    have hparse : parsePin [b0, b1, b2, b3, b4, b5, b6] =
        if b6 = 0 then some none
        else (posOfByte b6).map fun q => some (BitVec.ofNat 48 (leNat [b0, b1, b2, b3, b4, b5]), q) := rfl
    have htaken : bytesTaken p .pin [b0, b1, b2, b3, b4, b5, b6] =
        if b6 = 0 then List.replicate 7 0 else [b0, b1, b2, b3, b4, b5, b6] := by
      by_cases h0 : b6 = 0
      · rw [if_pos h0]
        exact if_pos ⟨rfl, h0⟩
      · rw [if_neg h0]
        exact if_neg fun h => h0 h.2
    rw [hparse, htaken]
    show (¬ b6.toNat ≤ 8 → _) ∧ (b6.toNat ≤ 8 → _)
    by_cases h0 : b6 = 0
    · subst h0
      exact ⟨fun h => absurd (Nat.zero_le 8) h, fun _ => ⟨none, if_pos rfl, (if_pos rfl).symm⟩⟩
    · rw [if_neg h0, if_neg h0]
      refine ⟨fun h => by rw [posOfByte_eq_none (by omega)]; rfl, fun h => ?_⟩
      obtain ⟨q, hq, hbyte⟩ : ∃ q : Pos, posOfByte b6 = some q ∧ byteOf (q.val + 1) = b6 := by
        have h1 : 1 ≤ b6.toNat := by bv_omega
        refine ⟨⟨b6.toNat - 1, by omega⟩, dif_pos ⟨h1, h⟩, ?_⟩
        rw [show b6.toNat - 1 + 1 = b6.toNat by omega, byteOf_toNat]
      have hmid : identityBytes (BitVec.ofNat 48 (leNat [b0, b1, b2, b3, b4, b5])) = [b0, b1, b2, b3, b4, b5] := by
        have hlt : leNat [b0, b1, b2, b3, b4, b5] < 2 ^ 48 := (leNat_lt _).trans_eq (by norm_num)
        rw [identityBytes, BitVec.toNat_ofNat, Nat.mod_eq_of_lt hlt]
        exact leBytes_leNat [b0, b1, b2, b3, b4, b5]
      refine ⟨_, by rw [hq]; rfl, ?_⟩
      rw [pinBytes, hmid, posByte, hbyte]
      rfl

theorem writesAs_pin (k : Fin 16) (hv : v.length = 7) : WritesAs p .pin (.pin k) v := by
  obtain ⟨hnone, hsome⟩ := parsePin_eq (p := p) hv
  have hmem : Place.pin k ∈ Item.pin.places := List.mem_map.mpr ⟨k, List.mem_finRange k, rfl⟩
  refine ⟨fun h => ?_, fun h _ => ?_⟩
  · have hpin := hnone fun hb => h ⟨Item.noConfusion, Item.noConfusion, Item.noConfusion, fun _ => hb⟩
    unfold writeItem
    dsimp only [Item.range]
    rw [hpin]
  · obtain ⟨x, hx, hbytes⟩ := hsome (h.2.2.2 rfl)
    refine ⟨{ profile := { p with pins := p.pins.set k x }, clamped := false, second := false }, ?_, writtenAs_plain
      (itemWritten_of ?_ rfl (not_lostRaised_of_range rfl) fun z y hy hz => ?_) rfl⟩
    · unfold writeItem
      dsimp only [Item.range]
      rw [hx]
      rfl
    · rw [itemBytes_pins p k x hmem, if_pos ⟨rfl, rfl⟩, hbytes]
    · rw [itemBytes_pins p k x hy, if_neg hz]

end

/-- R186: the last check and the write, item by item. -/
theorem writesAs {p : Profile} {it : Item} {pl : Place} {v : List Byte} {b : Byte} (hb : namesPlace it b pl)
    (hv : v.length = it.size) : WritesAs p it pl v := by
  cases hrange : it.range with
  | some r =>
    obtain ⟨lo, hi⟩ := r
    have hsuits : suits it v := by
      refine ⟨fun h => ?_, fun h => ?_, fun h => ?_, fun h => ?_⟩ <;> · rw [h] at hrange; cases hrange
    refine ⟨fun h => absurd hsuits h, fun _ hs => ⟨_, ?_, writtenAs_number hrange hb hs hv⟩⟩
    unfold writeItem
    rw [hrange]
  | none =>
    have hitems : it = .lineEnabled ∨ it = .readOnInsert ∨ it = .closedText ∨ it = .writeLimit ∨ it = .pin := by
      revert hrange
      cases it <;> simp [Item.range]
    rcases hitems with rfl | rfl | rfl | rfl | rfl
    · obtain ⟨l, rfl⟩ := place_of_line rfl hb
      exact writesAs_lineEnabled l hv
    · obtain rfl := place_of_none rfl hb
      exact writesAs_readOnInsert hv
    · obtain rfl := place_of_none rfl hb
      exact writesAs_closedText
    · obtain rfl := place_of_none rfl hb
      exact writesAs_writeLimit hv
    · cases pl with
      | whole => exact absurd (by decide) hb
      | line l => exact absurd hb.1 (by decide)
      | pin k => exact writesAs_pin k hv

/-! ## PROFILE_SET and PROFILE_GET -/

theorem ofCode_code (it : Item) : Item.ofCode it.code = some it := by cases it <;> rfl

theorem ofCode_none {c : Byte} (h : c = 0 ∨ 0x17 < c.toNat) : Item.ofCode c = none := by
  revert c
  decide

section
variable {s : State} {sl : Slot} {it : Item} {x : Byte} {v : List Byte}

/-- R186: the checks of a PROFILE_SET whose item and length are in order. -/
theorem profileSetRule_item (h : sl.body = it.code :: x :: v) (hv : v.length = it.size) :
    profileSetRule s sl =
      match placeOf it x with
      | none => refuse s .badParameter
      | some pl =>
        if !placeFree s pl then refuse s .wrongState
        else match writeItem s.profile it pl v with
          | none => refuse s .badParameter
          | some w => doneClamped { s with profile := w.profile } w.clamped (setFields w it pl) := by
  have hlen : ¬ (it.code :: x :: v).length ≠ 2 + it.size := by simp; omega
  rw [profileSetRule, h]
  dsimp only
  rw [ofCode_code]
  dsimp only
  rw [if_neg hlen] <;> rfl

theorem profileSetRule_badLength {rest : List Byte} (h : sl.body = it.code :: rest) (hr : rest.length ≠ 1 + it.size) :
    profileSetRule s sl = refuse s .badLength := by
  have hlen : (it.code :: rest).length ≠ 2 + it.size := by simp; omega
  rw [profileSetRule, h]
  dsimp only
  rw [ofCode_code]
  exact if_pos hlen

theorem profileSetRule_noItem {c : Byte} {rest : List Byte} (h : sl.body = c :: rest) (hc : c = 0 ∨ 0x17 < c.toNat) :
    profileSetRule s sl = refuse s .badParameter := by
  rw [profileSetRule, h]
  dsimp only
  rw [ofCode_none hc]

theorem profileSetRule_empty (h : sl.body = []) : profileSetRule s sl = refuse s .badLength := by
  rw [profileSetRule, h]

theorem profileGetRule_all (h : sl.body = []) : profileGetRule s sl = done s (wholeProfile s.profile) := by
  rw [profileGetRule, h]

theorem profileGetRule_item (h : sl.body = [it.code, x]) :
    profileGetRule s sl =
      match placeOf it x with
      | none => refuse s .badParameter
      | some pl => done s (itemReport s.profile it pl) := by
  rw [profileGetRule, h]
  dsimp only
  rw [ofCode_code] <;> rfl

theorem profileGetRule_noItem {c : Byte} (h : sl.body = [c, x]) (hc : c = 0 ∨ 0x17 < c.toNat) :
    profileGetRule s sl = refuse s .badParameter := by
  rw [profileGetRule, h]
  dsimp only
  rw [ofCode_none hc]

theorem profileGetRule_badLength (h : sl.body.length = 1 ∨ 2 < sl.body.length) : profileGetRule s sl = refuse s .badLength := by
  unfold profileGetRule
  split
  case h_1 hbody => simp [hbody] at h
  case h_2 c i hbody => simp [hbody] at h
  case h_3 => rfl

end

theorem wholeProfile_eq (p : Profile) :
    wholeProfile p = allItems.flatMap fun it => it.places.flatMap fun pl => itemBytes p it pl := by
  rw [wholeProfile]
  induction allItems with
  | nil => rfl
  | cons it its ih => rw [List.flatMap_cons, List.flatMap_cons, List.flatten_append, ih, ← List.flatMap_def]

/-- R176: a request that a rule answers OK or CLAMPED. -/
theorem exec_asks_clamped {s t : State} {i : SlotId} {ty : Byte} {body fields : List Byte} {c : Instr} {b : Bool}
    {rule : State → Slot → State × Answer} {fin : State → State} (h : asks s i ty body)
    (hr : rule s s.link.slots[i] = doneClamped t b fields) (hx : exec c s = .next (handle s (ofType ty) rule fin)) :
    exec c s = .next (fin (replied t i (if b then .clamped else .ok) fields)) := by
  rw [hx, handle_of_asks h, hr]
  cases b <;> rfl

theorem placeFree_line (s : State) (l : LineId) : placeFree s (.line l) = true ↔ s.lines[l].state = .stopped := beq_iff_eq

theorem placeFree_of {s : State} {pl : Place} (h : ∀ l : LineId, pl = .line l → s.lines[l].state = .stopped) :
    placeFree s pl = true := by
  cases pl with
  | line l => exact (placeFree_line s l).mpr (h l rfl)
  | whole | pin k => rfl

/-- Settles O55: the checks in their order, then the write of the item and what it leaves. -/
theorem profileItemsAreKept : Obligations.ProfileItemsAreKept := by
  unfold Obligations.ProfileItemsAreKept
  refine ⟨fun s i it x pl v h hv hpl => ⟨fun l hl hne => ?_, fun hstop => ⟨fun hs => ?_, fun hs hsound => ?_⟩⟩,
    fun s i body h => ⟨fun hb => ?_, fun c rest hb => ⟨fun hc => ?_, fun it hc => ⟨fun hlen => ?_, fun x v hr hv hno => ?_⟩⟩⟩,
    fun s i h => ?_, fun s i it x h => ⟨fun pl hpl => ?_, fun hno => ?_⟩, fun s i c x h hc => ?_, fun s i body h hlen => ?_⟩
  · subst hl
    have hfree : placeFree s (.line l) = false := Bool.eq_false_iff.mpr (mt (placeFree_line s l).mp hne)
    exact exec_asks_refuse h (fun sl hsl => by
      rw [profileSetRule_item hsl hv, (placeOf_iff it x _).mpr hpl]
      dsimp only
      rw [hfree]
      rfl) rfl
  · exact exec_asks_refuse h (fun sl hsl => by
      rw [profileSetRule_item hsl hv, (placeOf_iff it x _).mpr hpl]
      dsimp only
      rw [placeFree_of hstop, (writesAs hpl hv).1 hs]
      rfl) rfl
  · obtain ⟨w, hw, hitem, hsecond, hclamped⟩ := (writesAs hpl hv).2 hs hsound
    have hrule : profileSetRule s s.link.slots[i] =
        doneClamped { s with profile := w.profile } w.clamped (setFields w it pl) := by
      rw [profileSetRule_item h.2.2 hv, (placeOf_iff it x _).mpr hpl]
      dsimp only
      rw [placeFree_of hstop, hw]
      rfl
    have hexec := exec_asks_clamped (c := .profileSet) (fin := settleLink) h hrule rfl
    refine ⟨w.profile, hitem, fun hl => ?_, fun hl hr ht => ?_, fun hl ht => ?_⟩
    · rw [hexec, hclamped.mpr (.inl hl), setFields, hsecond.mpr hl]
      rfl
    · rw [hexec, hclamped.mpr (.inr ⟨hr, ht⟩), setFields, if_neg (mt hsecond.mp hl), List.append_nil]
      rfl
    · have hnot : w.clamped = false := Bool.eq_false_iff.mpr fun hc =>
        (hclamped.mp hc).elim hl fun ⟨hr, hne⟩ => ht.elim hr hne
      rw [hexec, hnot, setFields, if_neg (mt hsecond.mp hl), List.append_nil]
      rfl
  · exact exec_asks_refuse h (fun sl hsl => profileSetRule_empty (hsl.trans hb)) rfl
  · exact exec_asks_refuse h (fun sl hsl => profileSetRule_noItem (hsl.trans hb) hc) rfl
  · exact exec_asks_refuse h (fun sl hsl => profileSetRule_badLength (hsl.trans (hc ▸ hb)) hlen) rfl
  · refine exec_asks_refuse h (fun sl hsl => ?_) rfl
    rw [profileSetRule_item (hsl.trans (hr ▸ hc ▸ hb)) hv, placeOf_none hno]
  · exact exec_asks_done h (fun sl hsl _ => (profileGetRule_all hsl).trans (by rw [wholeProfile_eq])) rfl
  · exact exec_asks_done h (fun sl hsl _ => by rw [profileGetRule_item hsl, (placeOf_iff it x pl).mpr hpl]; rfl) rfl
  · exact exec_asks_refuse h (fun sl hsl => by rw [profileGetRule_item hsl, placeOf_none hno]) rfl
  · exact exec_asks_refuse h (fun sl hsl => profileGetRule_noItem hsl hc) rfl
  · exact exec_asks_refuse h (fun sl hsl => profileGetRule_badLength (hsl ▸ hlen)) rfl

end Sys2Proof.Machine

/-! # Characters, and the frames that they build or break (R27 to R32, R52, R53): O26, O27 -/

namespace Sys2Proof.Machine

/-! ## A character is heard (R27 to R30) -/

theorem next_settle {u v : State} (h : u = v) : (.next (settle u) : Host.Outcome State Fault Refusal) = .next (settle v) := by
  rw [h]

theorem lineHears_of {s : State} {l : LineId} (h : hears s l) : lineHears s l = true := by
  obtain ⟨hrun, hstate, htx⟩ := h
  rw [lineHears, hrun, receiving, awake, htx]
  rcases hstate with hs | hs <;> rw [hs] <;> rfl

theorem charGood_of {c : RawChar} (h : handedOn c) : charGood c = true := by
  obtain ⟨hstart, hstop⟩ := h
  rw [charGood, charFalseStart, charFramingError, hstart, hstop]
  rfl

theorem setRx_onLine (s : State) (l : LineId) (ln : Line) (rx : Rx) : setRx (onLine s l ln) l rx = onLine s l { ln with rx := rx } := by
  rw [setRx, modLine_eq_onLine, onLine_self, onLine_onLine]

theorem modPool_onLine (s : State) (l : LineId) (ln : Line) (f : Pool → Pool) :
    (onLine s l ln).modPool f = onLine (s.modPool f) l ln := rfl

/-- R5, R12: one byte is added to a body. -/
theorem appendBody_one (p : Pool) (r : RecId) (b : Byte) :
    p.appendBody r [b] =
      { p with
        mem := memWrite p.mem (p.recs[r].chunks.getD (p.recs[r].len / 32) 0 * 32 + p.recs[r].len % 32) b
        recs := p.recs.set r { p.recs[r] with len := p.recs[r].len + 1 } } := rfl

theorem countLine_onLine (s : State) (l : LineId) (ln : Line) (f : LineCounters → LineCounters) :
    countLine (onLine s l ln) l f = onLine s l { ln with counters := f ln.counters } := by
  rw [countLine, modLine_eq_onLine, onLine_self, onLine_onLine]

/-- R27, R29, R32: the counters of a character as it is judged. -/
theorem counted_character (s : State) (l : LineId) (c : RawChar) (k : State → State) :
    (let s0 := s.modLine l fun ln => { ln with idle := false }
     let s1 := if charNoisy c then countLine s0 l LineCounters.addNoisy else s0
     let s2 := if charParityError c then countLine s1 l LineCounters.addParity else s1
     k s2) = k (onLine s l (heardChar s.lines[l] c)) := by
  dsimp only
  rw [modLine_eq_onLine, heardChar]
  cases charNoisy c <;> cases charParityError c <;> simp only [Bool.false_eq_true, if_false, if_true, countLine_onLine] <;> rfl

/-- R30: a character that frame assembly takes. -/
theorem receiveChar_handedOn {c : RawChar} (h : handedOn c) (s : State) (l : LineId) (edge : Ms) :
    receiveChar s l edge c = assemble (onLine s l (heardChar s.lines[l] c)) l edge (charByte c) (charParityError c) := by
  obtain ⟨hstart, hstop⟩ := h
  unfold receiveChar
  rw [charFalseStart, hstart, charFramingError, hstop]
  exact counted_character s l c fun t => assemble t l edge (charByte c) (charParityError c)

/-- R30: a character with a framing error. -/
theorem receiveChar_framing {c : RawChar} (hstart : bitValue c.start = false) (hstop : bitValue c.stop = false) (s : State) (l : LineId)
    (edge : Ms) : receiveChar s l edge c =
      abandonFrame (countLine (onLine s l (heardChar s.lines[l] c)) l LineCounters.addFraming) l := by
  unfold receiveChar
  rw [charFalseStart, hstart, charFramingError, hstop]
  exact counted_character s l c fun t => abandonFrame (countLine t l LineCounters.addFraming) l

theorem exec_characterReceived {s : State} {l : LineId} (h : hears s l) (edge : Ms) (c : RawChar) :
    exec (.characterReceived l edge c) s = .next (settle (receiveChar s l edge c)) := by
  rw [exec, execCharacterReceived, lineHears_of h, if_pos rfl]

/-! ## A frame is assembled (R52, R53) -/

section
variable {s : State} {l : LineId} {edge : Ms} {b : Byte} {bad : Bool}

theorem assemble_hunting (h : s.lines[l].rx = .hunting) :
    assemble s l edge b bad = startFrame s l b bad edge (beganInDrain s l) := by
  rw [assemble, h]

theorem assemble_completing {a : Ms} {d : Bool} (h : s.lines[l].rx = .completing a d) :
    assemble s l edge b bad = startFrame s l b bad a d := by
  rw [assemble, h]

theorem assemble_abandoned (h : s.lines[l].rx = .abandoned) : assemble s l edge b bad = s := by
  rw [assemble, h]

variable {f : RxFrame} {c : RawChar} (h : s.lines[l].rx = .inFrame f)
include h

theorem assemble_second (hs : f.stage = .second) :
    assemble s l edge (charByte c) (charParityError c) =
      setRx s l (.inFrame { tookChar f c with
        second := charByte c, discarded := rxDiscards f.head (charByte c), stage := .length }) := by
  rw [assemble, h]
  dsimp only
  rw [hs]
  simp only [tookChar]

theorem assemble_length (hs : f.stage = .length) :
    assemble s l edge (charByte c) (charParityError c) = takeLength s l (tookChar f c) (charByte c).toNat := by
  rw [assemble, h]
  dsimp only
  rw [hs]
  rfl

theorem assemble_body {left : Nat} (hs : f.stage = .body left) :
    assemble s l edge (charByte c) (charParityError c) = takeBody s l (tookChar f c) (charByte c) left := by
  rw [assemble, h]
  dsimp only
  rw [hs]
  rfl

theorem assemble_check (hs : f.stage = .check) :
    assemble s l edge (charByte c) (charParityError c) = takeCheck s l (tookChar f c) := by
  rw [assemble, h]
  dsimp only
  rw [hs]
  rfl

end

/-- R51, R199: the families and kind codes of the frames that units send. -/
theorem unitFrameKind_isNone : ∀ (a : Fin 4) (b : Fin 8), (unitFrameKind (Family.ofCode a.val) b.val).isNone =
    decide ((a.val, b.val) ∉ [(0, 0), (0, 1), (0, 2), (1, 0), (2, 0), (2, 1), (3, 0), (3, 1)]) := by
  decide

/-- R52: whether the second character marks the frame discarded. -/
theorem rxDiscards_eq (head second : Byte) :
    rxDiscards head second = decide (second.toNat % 16 ≠ 0 ∨ head.toNat / 4 % 16 = 0 ∨
      (head.toNat / 64, second.toNat / 32) ∉ [(0, 0), (0, 1), (0, 2), (1, 0), (2, 0), (2, 1), (3, 0), (3, 1)]) := by
  have hkind := unitFrameKind_isNone ⟨head.toNat / 64, by have := head.isLt; omega⟩ ⟨second.toNat / 32, by have := second.isLt; omega⟩
  dsimp only at hkind
  have hzero : ∀ n : Nat, BitVec.ofNat 4 n = 0 ↔ n % 16 = 0 := fun n => by
    rw [← BitVec.toNat_inj, BitVec.toNat_ofNat]
    rfl
  rw [rxDiscards, headFamily, secondKind, hkind, secondDest, headSource]
  have hdest : (BitVec.ofNat 4 second.toNat != 0) = decide (second.toNat % 16 ≠ 0) := by
    rw [Bool.eq_iff_iff, bne_iff_ne, decide_eq_true_iff, ne_eq, hzero]
  have hsrc : (BitVec.ofNat 4 (head.toNat / 4) == 0) = decide (head.toNat / 4 % 16 = 0) := by
    rw [Bool.eq_iff_iff, beq_iff_eq, decide_eq_true_iff, hzero]
  rw [hdest, hsrc, Bool.decide_or, Bool.decide_or, Bool.or_assoc]

theorem bodyStage_left (left : Nat) : bodyStage (left - 1) = if left ≤ 1 then .check else .body (left - 1) := by
  unfold bodyStage
  by_cases h : left ≤ 1
  · rw [if_pos h, if_pos (by omega)]
  · rw [if_neg h, if_neg (by omega)]

/-- R53: a body character whose frame has no record. -/
theorem takeBody_elsewhere {s : State} {l : LineId} {f : RxFrame} (h : ∀ r e, f.dest ≠ .record r e) (c : RawChar) (left : Nat) :
    takeBody s l (tookChar f c) (charByte c) left = setRx s l (.inFrame { tookChar f c with
      buf := if f.dest = .buffer then f.buf ++ [charByte c] else f.buf
      stage := if left ≤ 1 then .check else .body (left - 1) }) := by
  unfold takeBody
  rw [bodyStage_left]
  obtain ⟨st, hd, sc, su, bd, di, dr, ar, dest, buf⟩ := f
  cases dest with
  | record r e => exact absurd rfl (h r e)
  | undecided | buffer | refused | stray | nowhere => rfl

/-- R12: a body character of a frame that is written into its record. -/
theorem takeBody_record {s : State} {l : LineId} {ln : Line} {f : RxFrame} {r : RecId} {e : EntryId} (h : f.dest = .record r e)
    (c : RawChar) (left : Nat) :
    takeBody (onLine s l ln) l (tookChar f c) (charByte c) left =
      onLine { s with pool := s.pool.appendBody r [charByte c] } l
        { ln with rx := .inFrame { tookChar f c with stage := if left ≤ 1 then .check else .body (left - 1) } } := by
  unfold takeBody
  rw [bodyStage_left]
  obtain ⟨st, hd, sc, su, bd, di, dr, ar, dest, buf⟩ := f
  subst h
  exact setRx_onLine { s with pool := s.pool.appendBody r [charByte c] } l ln _

theorem beganInDrain_eq (s : State) (l : LineId) : beganInDrain s l = decide (s.lines[l].state = .draining) := rfl

/-- Settles O26: each character by what the receiver was doing, after its counters. -/
theorem charactersBuildFrames : Obligations.CharactersBuildFrames := by
  unfold Obligations.CharactersBuildFrames
  refine ⟨fun s l edge c h => ?_, fun s l edge c h hc => ?_⟩
  · have hexec : exec (.characterReceived l edge c .startEdge) s = .next (settle (startEdge s l)) := by
      rw [exec, execCharacterReceived, lineHears_of h, if_pos rfl]
    rw [hexec]
    refine ⟨fun hrx => ?_, fun hrx => ?_⟩
    · rw [startEdge, modLine_eq_onLine, hrx, Rx.afterStartEdge, beganInDrain_eq, State.now]
    · have hsame : s.lines[l].rx.afterStartEdge s.now (beganInDrain s l) = s.lines[l].rx := by
        cases hx : s.lines[l].rx with
        | hunting => exact absurd hx hrx
        | _ => rfl
      rw [startEdge, modLine_eq_onLine, hsame]
  · rw [exec_characterReceived h, receiveChar_handedOn hc]
    have hline : (onLine s l (heardChar s.lines[l] c)).lines[l] = heardChar s.lines[l] c := onLine_self s l _
    have hrxs : ∀ rx, s.lines[l].rx = rx → (onLine s l (heardChar s.lines[l] c)).lines[l].rx = rx := fun rx hrx => by
      rw [hline]
      exact hrx
    refine ⟨fun hrx => ?_, fun a d hrx => ?_, fun hrx => ?_, fun f hrx => ⟨fun hs => ?_, fun left hs => ⟨fun hd => ?_,
      fun r e hd => ?_⟩⟩⟩
    · rw [assemble_hunting (hrxs _ hrx), startFrame, setRx_onLine, beganInDrain_eq, hline]
      rfl
    · rw [assemble_completing (hrxs _ hrx), startFrame, setRx_onLine]
    · rw [assemble_abandoned (hrxs _ hrx)]
    · rw [assemble_second (hrxs _ hrx) hs, setRx_onLine, rxDiscards_eq]
    · rw [assemble_body (hrxs _ hrx) hs, takeBody_elsewhere hd, setRx_onLine]
    · rw [assemble_body (hrxs _ hrx) hs, takeBody_record hd, appendBody_one]

/-! ## Broken receptions (R28, R30, R31) -/

theorem withoutReception_eq {ln : Line} {f : RxFrame} (h : ln.rx = .inFrame f) (p : Pool) :
    receptionDropped p ln = withoutReception p f := by
  unfold receptionDropped withoutReception
  rw [h]
  obtain ⟨st, hd, sc, su, bd, di, dr, ar, dest, buf⟩ := f
  cases dest <;> rfl

theorem receptionDropped_none {ln : Line} (h : ∀ f, ln.rx ≠ .inFrame f) (p : Pool) : receptionDropped p ln = p := by
  unfold receptionDropped
  cases hrx : ln.rx with
  | inFrame f => exact absurd hrx (h f)
  | hunting | completing | abandoned => rfl

/-- R12: the frame in progress on a line is given up. -/
theorem dropReception_inFrame {s : State} {l : LineId} {ln : Line} {f : RxFrame} (h : ln.rx = .inFrame f) :
    dropReception (onLine s l ln) l = onLine { s with pool := withoutReception s.pool f } l { ln with rx := .hunting } := by
  rw [dropReception_eq, onLine_self, withoutReception_eq h]
  exact onLine_onLine { s with pool := withoutReception s.pool f } l ln _

theorem dropReception_none {s : State} {l : LineId} {ln : Line} (h : ∀ f, ln.rx ≠ .inFrame f) :
    dropReception (onLine s l ln) l = onLine s l { ln with rx := .hunting } := by
  rw [dropReception_eq, onLine_self, receptionDropped_none h]
  exact onLine_onLine s l ln _

/-- R30: what a framing error leaves of a reception. -/
theorem abandonFrame_inFrame {s : State} {l : LineId} {ln : Line} {f : RxFrame} (h : ln.rx = .inFrame f) :
    abandonFrame (onLine s l ln) l = onLine { s with pool := withoutReception s.pool f } l { ln with rx := .hunting } := by
  rw [abandonFrame, onLine_self, h]
  exact dropReception_inFrame h

theorem abandonFrame_none {s : State} {l : LineId} {ln : Line} (h : ∀ f, ln.rx ≠ .inFrame f) :
    abandonFrame (onLine s l ln) l = onLine s l { ln with rx := if ln.rx = .abandoned then .abandoned else .hunting } := by
  rw [abandonFrame, onLine_self]
  cases hrx : ln.rx with
  | inFrame f => exact absurd hrx (h f)
  | abandoned =>
    have hsame : ({ ln with rx := .abandoned } : Line) = ln := by rw [← hrx]
    rw [if_pos rfl, hsame]
  | hunting =>
    rw [if_neg Rx.noConfusion]
    exact dropReception_none h
  | completing a d =>
    rw [if_neg Rx.noConfusion]
    exact dropReception_none h

theorem awake_of {s : State} {l : LineId} (h : listens s l) : (s.running && awake s l) = true := by
  obtain ⟨hrun, hstate⟩ := h
  rw [hrun, awake]
  rcases hstate with hs | hs <;> rw [hs] <;> rfl

theorem onLine_same (s : State) (l : LineId) : onLine s l s.lines[l] = s := by
  simp [onLine]

/-- Settles O27: each breakage by its counter, and by what the receiver was doing. -/
theorem brokenReceptionIsCounted : Obligations.BrokenReceptionIsCounted := by
  unfold Obligations.BrokenReceptionIsCounted
  refine fun s l => ⟨fun h => ⟨fun b hb => ?_, fun c hstart hstop => ?_⟩, fun h => ⟨fun f hf => ?_, fun hrx => ?_⟩⟩
  · have hafter : s.lines[l].rx.afterFalseStart = match s.lines[l].rx with
        | .completing _ _ => .hunting
        | x => x := by
      cases s.lines[l].rx <;> rfl
    rw [exec, execFalseStart, lineHears_of h, hb, Bool.and_self, if_pos rfl, falseStarts, modLine_eq_onLine, hafter, countLine_onLine]
    rfl
  · have hexec : exec (.framingError l c) s = .next (settle (receiveChar s l s.now c)) := by
      rw [exec, execFramingError, lineHears_of h, charFalseStart, charFramingError, hstart, hstop,
        show (true && (!false && !false)) = true from rfl, if_pos rfl]
    rw [hexec, receiveChar_framing hstart hstop, countLine_onLine]
    have hrx : (heardChar s.lines[l] c).rx = s.lines[l].rx := rfl
    have hframing : (heardChar s.lines[l] c).counters.framing = s.lines[l].counters.framing := rfl
    rw [← hrx, ← hframing]
    generalize heardChar s.lines[l] c = ln
    exact ⟨fun f hf => next_settle (abandonFrame_inFrame (ln := { ln with counters := ln.counters.addFraming }) hf),
      fun hf => next_settle (abandonFrame_none (ln := { ln with counters := ln.counters.addFraming }) hf)⟩
  · have hgap : (s.running && awake s l && insideFrame s.lines[l]) = true := by
      rw [awake_of h, insideFrame, hf]
      rfl
    rw [exec, execCharacterGapExpiry, hgap, if_pos rfl, countLine, modLine_eq_onLine]
    exact next_settle (dropReception_inFrame hf)
  · have habandoned : (s.running && awake s l && s.lines[l].rx == .abandoned) = true := by
      rw [awake_of h, hrx]
      rfl
    rw [exec, execOversizeAbandonEnd, habandoned, if_pos rfl]
    rfl

end Sys2Proof.Machine

/-! # The length character (R53): O28 -/

namespace Sys2Proof.Machine

/-! ## The length character (R53) -/

/-- R53: the lengths that make a frame oversize. -/
def tooLong (f : RxFrame) (n : Nat) : Prop := 120 < n ∨ ((f.head.toNat / 64 = 1 ∨ f.head.toNat / 64 = 2) ∧ 16 < n)

theorem oversize_iff (f : RxFrame) (n : Nat) : oversize (headFamily f.head) n = true ↔ tooLong f n := by
  have hlt : f.head.toNat / 64 < 4 := by have := f.head.isLt; omega
  unfold oversize tooLong headFamily
  rw [Bool.or_eq_true, decide_eq_true_iff]
  refine or_congr Iff.rfl ?_
  generalize f.head.toNat / 64 = a at hlt ⊢
  match a, hlt with
  | 0, _ | 3, _ => exact iff_of_false Bool.false_ne_true (by omega)
  | 1, _ | 2, _ =>
    refine decide_eq_true_iff.trans ⟨fun h => ⟨by omega, h⟩, fun h => h.2⟩

theorem bodyStage_eq (n : Nat) : bodyStage n = if n = 0 then .check else .body n := rfl

theorem takeLength_oversize {s : State} {l : LineId} {f : RxFrame} {n : Nat} (h : tooLong f n) :
    takeLength s l f n = setRx (countLine s l LineCounters.addOversize) l .abandoned :=
  if_pos ((oversize_iff f n).mpr h)

theorem takeLength_placed {s t : State} {l : LineId} {f : RxFrame} {n : Nat} {d : BodyDest} (h : ¬ tooLong f n)
    (hp : placeBody s l f n = (t, d)) :
    takeLength s l f n = setRx t l (.inFrame { f with dest := d, stage := if n = 0 then .check else .body n }) := by
  rw [takeLength, if_neg (mt (oversize_iff f n).mp h), hp, bodyStage_eq]

theorem takeLength_onLine {s : State} {l : LineId} {ln : Line} {f : RxFrame} {n : Nat} {d : BodyDest} {p : Pool} (h : ¬ tooLong f n)
    (hp : placeBody (onLine s l ln) l f n = ({ onLine s l ln with pool := p }, d)) :
    takeLength (onLine s l ln) l f n = onLine { s with pool := p } l
      { ln with rx := .inFrame { f with dest := d, stage := if n = 0 then .check else .body n } } := by
  rw [takeLength_placed h hp]
  exact setRx_onLine { s with pool := p } l ln _

section
variable {s : State} {l : LineId} {f : RxFrame} {k : FrameKind} {n : Nat}

/-- R52, R53: the body of a discarded, bad or unknown frame goes nowhere. -/
theorem placeBody_dropped (h : f.discarded = true ∨ f.bad = true ∨ rxKind f = none) : placeBody s l f n = (s, .nowhere) := by
  unfold placeBody
  rcases h with h | h | h
  · rw [h]
    rfl
  · rw [h, Bool.or_true, if_pos rfl]
  · rw [h]
    split_ifs <;> rfl

variable (hd : f.discarded = false) (hb : f.bad = false) (hk : rxKind f = some k)
include hd hb hk

theorem placeBody_buffer (hf : k.family = .control ∨ k.family = .exchange) : placeBody s l f n = (s, .buffer) := by
  unfold placeBody
  rw [hd, hb, hk]
  dsimp only
  rcases hf with hf | hf <;> rw [hf] <;> rfl

variable (hf : k.family = .event ∨ k.family = .data)
include hf

theorem placeBody_inDrain (hdr : f.inDrain = true) : placeBody s l f n = (s, .nowhere) := by
  unfold placeBody
  rw [hd, hb, hk]
  dsimp only
  rcases hf with hf | hf <;> rw [hf] <;> exact if_pos hdr

theorem placeBody_stray (hdr : f.inDrain = false) (he : entryAt s l (headSource f.head) = none) :
    placeBody s l f n = (s, .stray) := by
  unfold placeBody
  rw [hd, hb, hk]
  dsimp only
  rcases hf with hf | hf <;> rw [hf] <;> simp only [hdr, he, Bool.false_eq_true, if_false, Bool.or_false]

/-- R12: a frame from a unit asks the pool for its record. -/
theorem placeBody_asks (hdr : f.inDrain = false) {e : EntryId} (he : entryAt s l (headSource f.head) = some e) :
    placeBody s l f n =
      match admitRec s (frameAdmission f k e l n) with
      | (s1, some r) => (s1, .record r e)
      | (s1, none) => (s1, .refused e) := by
  unfold placeBody
  rw [hd, hb, hk]
  dsimp only
  rcases hf with hf | hf <;> rw [hf] <;> simp only [hdr, he, Bool.false_eq_true, if_false, Bool.or_false] <;> rfl

end

/-- R6: the class of a frame by the urgency of its header. -/
theorem class_of_head {b : Byte} {c : Cls} (h : c.val = min 2 (b.toNat % 4)) : classOfUrgency (headUrgency b) = c := by
  have hclass : ∀ u : Urgency, (classOfUrgency u).val = min 2 u.toNat := by decide
  refine Fin.ext ?_
  rw [hclass, h, headUrgency, BitVec.toNat_ofNat]

/-- R53: LENGTH_CHARACTER. -/
theorem exec_lengthCharacter {s : State} {l : LineId} {c : RawChar} {f : RxFrame} (h : hears s l) (hc : handedOn c)
    (hrx : s.lines[l].rx = .inFrame f) (hs : f.stage = .length) :
    exec (.lengthCharacter l c) s =
      .next (settle (takeLength (onLine s l (heardChar s.lines[l] c)) l (tookChar f c) (charByte c).toNat)) := by
  have htakes : takesRole s l c (· == .length) = true := by
    rw [takesRole, lineHears_of h, charGood_of hc, nextRole, hrx]
    dsimp only
    rw [hs]
    rfl
  have hrx' : (onLine s l (heardChar s.lines[l] c)).lines[l].rx = .inFrame f := by
    rw [onLine_self]
    exact hrx
  rw [exec, execLengthCharacter, htakes, if_pos rfl, receiveChar_handedOn hc, assemble_length hrx' hs]

section
variable {s : State} {l : LineId} {ln : Line} {f : RxFrame} {n : Nat}

/-- R53: an oversize frame is counted and given up. -/
theorem takeLength_tooLong (h : tooLong f n) :
    takeLength (onLine s l ln) l f n = onLine s l { ln with rx := .abandoned, counters := ln.counters.addOversize } := by
  rw [takeLength_oversize h, countLine_onLine, setRx_onLine]

/-- R41, R52, R53: the body of a frame that asks the pool for nothing. -/
theorem takeLength_unasked {d : BodyDest} (h : ¬ tooLong f n)
    (hd : (f.discarded = true ∨ f.bad = true ∨ rxKind f = none) ∧ d = .nowhere ∨
      (f.discarded = false ∧ f.bad = false ∧ ∃ k, rxKind f = some k ∧
        ((k.family = .control ∨ k.family = .exchange) ∧ d = .buffer ∨
          (k.family = .event ∨ k.family = .data) ∧
            (f.inDrain = true ∧ d = .nowhere ∨ f.inDrain = false ∧ entryAt s l (headSource f.head) = none ∧ d = .stray)))) :
    takeLength (onLine s l ln) l f n =
      onLine s l { ln with rx := .inFrame { f with dest := d, stage := if n = 0 then .check else .body n } } := by
  have hplace : placeBody (onLine s l ln) l f n = (onLine s l ln, d) := by
    rcases hd with ⟨hdrop, rfl⟩ | ⟨hd, hb, k, hk, ⟨hf, rfl⟩ | ⟨hf, ⟨hdr, rfl⟩ | ⟨hdr, he, rfl⟩⟩⟩
    · exact placeBody_dropped hdrop
    · exact placeBody_buffer hd hb hk hf
    · exact placeBody_inDrain hd hb hk hf hdr
    · exact placeBody_stray hd hb hk hf hdr he
  rw [takeLength_placed h hplace, setRx_onLine]

variable {k : FrameKind} {e : EntryId} (hlen : ¬ tooLong f n) (hd : f.discarded = false) (hb : f.bad = false)
  (hdr : f.inDrain = false) (hk : rxKind f = some k) (hf : k.family = .event ∨ k.family = .data)
  (he : entryAt s l (headSource f.head) = some e)
include hlen hd hb hdr hk hf he

/-- R12: a frame from a held source takes the record that it asked for. -/
theorem takeLength_granted
    (hadm : admissible s.profile s.pool (classOfUrgency (headUrgency f.head)) (chunkNeed n) (.unit e l (headSource f.head))) :
    ∃ (r : RecId) (p : Pool), granted s.pool p r (frameAdmission f k e l n) ∧
      takeLength (onLine s l ln) l f n = onLine { s with pool := p } l
        { ln with rx := .inFrame { f with dest := .record r e, stage := if n = 0 then .check else .body n } } := by
  have hasks := placeBody_asks (s := onLine s l ln) (n := n) hd hb hk hf hdr he
  obtain ⟨r, -, hg, -, hadmit⟩ := admitRec_granted (s := onLine s l ln) (a := frameAdmission f k e l n) hadm
  rw [hadmit] at hasks
  exact ⟨r, s.pool.grant r (frameAdmission f k e l n), hg, takeLength_onLine hlen hasks⟩

/-- R12, R21: a frame from a held source whose record is refused. -/
theorem takeLength_refused {x : Fin 9}
    (hx : refusedAt s.profile s.pool (classOfUrgency (headUrgency f.head)) (chunkNeed n) (.unit e l (headSource f.head)) x) :
    takeLength (onLine s l ln) l f n = onLine { s with pool := counted s.pool x } l
      { ln with rx := .inFrame { f with dest := .refused e, stage := if n = 0 then .check else .body n } } := by
  have hasks := placeBody_asks (s := onLine s l ln) (n := n) hd hb hk hf hdr he
  rw [admitRec_refused (s := onLine s l ln) (a := frameAdmission f k e l n) (k := x) hx] at hasks
  exact takeLength_onLine hlen hasks

end

section
variable (f : RxFrame) (c : RawChar)

@[simp] theorem tookChar_head : (tookChar f c).head = f.head := by unfold tookChar; rfl
@[simp] theorem tookChar_second : (tookChar f c).second = f.second := by unfold tookChar; rfl
@[simp] theorem tookChar_discarded : (tookChar f c).discarded = f.discarded := by unfold tookChar; rfl
@[simp] theorem tookChar_inDrain : (tookChar f c).inDrain = f.inDrain := by unfold tookChar; rfl
@[simp] theorem tookChar_arrival : (tookChar f c).arrival = f.arrival := by unfold tookChar; rfl
@[simp] theorem tookChar_dest : (tookChar f c).dest = f.dest := by unfold tookChar; rfl
@[simp] theorem tookChar_buf : (tookChar f c).buf = f.buf := by unfold tookChar; rfl

@[simp] theorem rxKind_tookChar : rxKind (tookChar f c) = rxKind f := by
  rw [rxKind, tookChar_head, tookChar_second, rxKind]

theorem tooLong_tookChar (n : Nat) : tooLong (tookChar f c) n ↔ tooLong f n := by
  rw [tooLong, tookChar_head, tooLong]

end

/-- Settles O28: an oversize frame is given up, any other has its body placed by what it is and whom it is from. -/
theorem lengthCharacterPlacesTheBody : Obligations.LengthCharacterPlacesTheBody := by
  unfold Obligations.LengthCharacterPlacesTheBody
  intro s l c f n h hc hrx hs hn
  have hexec := exec_lengthCharacter h hc hrx hs
  rw [← hn] at hexec
  have hlong := tooLong_tookChar f c n
  refine ⟨fun h => ?_, fun h => ⟨fun d hd => ?_, fun k e cls hd hb hdr hk hf he hcls => ⟨fun hadm => ?_, fun x hx => ?_⟩⟩⟩
  · exact hexec.trans (next_settle (takeLength_tooLong (hlong.mpr h)))
  · have hlen := mt hlong.mp h
    rw [← rxKind_tookChar f c, ← tookChar_discarded f c, ← tookChar_inDrain f c, ← tookChar_head f c] at hd
    exact hexec.trans (next_settle (takeLength_unasked hlen hd))
  all_goals
    obtain rfl := class_of_head hcls
    have hlen := mt hlong.mp h
    rw [← rxKind_tookChar f c] at hk
    rw [← tookChar_discarded f c] at hd
    rw [← tookChar_inDrain f c] at hdr
    rw [← tookChar_head f c] at he
  · rw [← tookChar_head f c] at hadm
    obtain ⟨r, p, hg, htake⟩ := takeLength_granted (ln := heardChar s.lines[l] c) hlen hd hb hdr hk hf he hadm
    rw [frameAdmission, tookChar_head, tookChar_arrival] at hg
    exact ⟨r, p, hg, hexec.trans (next_settle htake)⟩
  · rw [← tookChar_head f c] at hx
    exact hexec.trans (next_settle (takeLength_refused hlen hd hb hdr hk hf he hx))

end Sys2Proof.Machine

/-! # The check character (R52, R54): O29 -/

namespace Sys2Proof.Machine

/-! ## The row of a check character -/

/-- R199: a frame of a known kind is a HELLO, a STATUS, an ACK, or an event or data frame. -/
theorem unitFrameKind_cases {a : Family} {n : Nat} {k : FrameKind} (h : unitFrameKind a n = some k) :
    k = .hello ∨ k = .status ∨ k = .ack ∨ k.family = .event ∨ k.family = .data := by
  unfold unitFrameKind at h
  split at h <;> cases h
  · exact .inr (.inr (.inr (.inl rfl)))
  · exact .inr (.inr (.inr (.inl rfl)))
  · exact .inr (.inr (.inr (.inl rfl)))
  · exact .inr (.inr (.inl rfl))
  · exact .inl rfl
  · exact .inr (.inl rfl)
  · exact .inr (.inr (.inr (.inr rfl)))
  · exact .inr (.inr (.inr (.inr rfl)))

theorem closes_unitFrame {k : FrameKind} (h : k.family = .event ∨ k.family = .data) (l : LineId) (c : RawChar) :
    closes l c k = .unitEventDataFrame l c := by
  cases k with
  | hello | status | ack => exact absurd h (by decide)
  | _ => rfl

section
variable {s : State} {l : LineId} {f : RxFrame} {c : RawChar}

/-- R54: a character in the role of a check is the check character of its frame. -/
theorem takesRole_check (h : endsFrame s l f c) {role : CharRole → Bool} (hr : role (.check (rxKind f)) = true) :
    takesRole s l c role = true := by
  obtain ⟨hears, hc, hrx, hs⟩ := h
  rw [takesRole, lineHears_of hears, charGood_of hc, nextRole, hrx]
  dsimp only
  rw [hs]
  exact hr

theorem receiveChar_check (h : endsFrame s l f c) (edge : Ms) :
    receiveChar s l edge c = takeCheck (onLine s l (heardChar s.lines[l] c)) l (tookChar f c) := by
  obtain ⟨-, hc, hrx, hs⟩ := h
  have hrx' : (onLine s l (heardChar s.lines[l] c)).lines[l].rx = .inFrame f := by
    rw [onLine_self]
    exact hrx
  rw [receiveChar_handedOn hc, assemble_check hrx' hs]

/-- R54: the row that names the check character of a frame of a known kind. -/
theorem exec_closes (h : endsFrame s l f c) {k : FrameKind} (hk : rxKind f = some k) :
    exec (closes l c k) s = .next (settle (takeCheck (onLine s l (heardChar s.lines[l] c)) l (tookChar f c))) := by
  rcases unitFrameKind_cases hk with rfl | rfl | rfl | hf
  · rw [closes, exec, execHello, takesRole_check h (by rw [hk]; rfl), if_pos rfl, receiveChar_check h]
  · rw [closes, exec, execUnitStatus, takesRole_check h (by rw [hk]; rfl), if_pos rfl, receiveChar_check h]
  · rw [closes, exec, execUnitAck, takesRole_check h (by rw [hk]; rfl), if_pos rfl, receiveChar_check h]
  · have hrole : eventCheck (.check (rxKind f)) = true := by
      rw [hk]
      rcases hf with hf | hf <;> rw [eventCheck, hf] <;> rfl
    rw [closes_unitFrame hf, exec, execUnitEventDataFrame, takesRole_check h hrole, if_pos rfl, receiveChar_check h]

/-- R52: the check character, by whichever row it comes. -/
theorem exec_check (h : endsFrame s l f c) {i : Instr}
    (hi : (∃ edge : Ms, i = .characterReceived l edge c) ∨ ∃ k : FrameKind, rxKind f = some k ∧ i = closes l c k) :
    exec i s = .next (settle (takeCheck (onLine s l (heardChar s.lines[l] c)) l (tookChar f c))) := by
  obtain ⟨edge, rfl⟩ | ⟨k, hk, rfl⟩ := hi
  · rw [exec_characterReceived h.1, receiveChar_check h]
  · exact exec_closes h hk

/-! ## What the check decides (R54) -/

theorem tookChar_sum (f : RxFrame) (c : RawChar) : (tookChar f c).sum = f.sum + charByte c := by
  unfold tookChar
  rfl

theorem tookChar_bad (f : RxFrame) (c : RawChar) : (tookChar f c).bad = (f.bad || charParityError c) := by
  unfold tookChar
  rfl

theorem takeCheck_wrong {s : State} {ln : Line} {f g : RxFrame} (hrx : ln.rx = .inFrame f) (hsum : g.sum ≠ 0) :
    takeCheck (onLine s l ln) l g =
      onLine { s with pool := withoutReception s.pool f } l { ln with rx := .hunting, counters := ln.counters.addCheck } := by
  unfold takeCheck
  rw [if_pos hsum, if_pos (.inl hsum), countLine_onLine]
  exact dropReception_inFrame (ln := { ln with counters := ln.counters.addCheck }) hrx

theorem takeCheck_bad {s : State} {ln : Line} {f g : RxFrame} (hrx : ln.rx = .inFrame f) (hsum : g.sum = 0) (hbad : g.bad = true) :
    takeCheck (onLine s l ln) l g = onLine { s with pool := withoutReception s.pool f } l { ln with rx := .hunting } := by
  unfold takeCheck
  rw [if_neg (not_not.mpr hsum), if_pos (.inr hbad)]
  exact dropReception_inFrame hrx

theorem takeCheck_good {s : State} {ln : Line} {g : RxFrame} (hsum : g.sum = 0) (hbad : g.bad = false) :
    takeCheck (onLine s l ln) l g = settleGood (onLine s l { ln with rx := .hunting }) l g := by
  unfold takeCheck
  rw [if_neg (not_not.mpr hsum), if_neg (by rw [hbad]; exact not_or.mpr ⟨not_not.mpr hsum, Bool.false_ne_true⟩), setRx_onLine]

/-- R54: a whole and good frame is settled once its check has been taken. -/
theorem takeCheck_wholeAndGood (h : wholeAndGood f c) :
    takeCheck (onLine s l (heardChar s.lines[l] c)) l (tookChar f c) = settleGood (checkTaken s l c) l (tookChar f c) := by
  obtain ⟨hsum, hbad, hparity⟩ := h
  exact takeCheck_good (by rw [tookChar_sum, hsum]) (by rw [tookChar_bad, hbad, hparity]; rfl)

end

section
variable {s : State} {l : LineId} {f : RxFrame}

theorem settleGood_discarded (h : f.discarded = true) : settleGood s l f = strayCounted s l := by
  rw [settleGood]
  rw [h, if_pos rfl]
  exact strayCounted_eq s l

theorem settleGood_unknown (h : rxKind f = none) : settleGood s l f = strayCounted s l := by
  rw [settleGood]
  rw [h]
  exact (ite_self _).trans (strayCounted_eq s l)

variable (hd : f.discarded = false)
include hd

theorem settleGood_ack (h : rxKind f = some .ack) : settleGood s l f = ackFrame s l (headSource f.head) (secondSeq f.second) f.buf := by
  rw [settleGood]
  rw [hd, h, if_neg Bool.false_ne_true]

theorem settleGood_inDrain {k : FrameKind} (h : rxKind f = some k) (hk : k ≠ .ack) (hdr : f.inDrain = true) : settleGood s l f = s := by
  rw [settleGood]
  rw [hd, h, if_neg Bool.false_ne_true, hdr]
  cases k with
  | ack => exact absurd rfl hk
  | _ => rfl

end

/-- Settles O29: a frame that ends bad is dropped at its check, any other is settled by its mark and its kind. -/
theorem badFrameIsDropped : Obligations.BadFrameIsDropped := by
  unfold Obligations.BadFrameIsDropped
  intro s l f c i h hi
  obtain ⟨-, -, hline, -⟩ := id h
  have hrx : (heardChar s.lines[l] c).rx = .inFrame f := hline
  rw [exec_check h hi]
  refine ⟨fun hsum => next_settle ?_, fun hsum hbad => next_settle ?_, fun hgood hdrop => next_settle ?_,
    fun k hk hgood hd hdr hack => next_settle ?_⟩
  · exact takeCheck_wrong hrx (by rw [tookChar_sum]; exact hsum)
  · exact takeCheck_bad hrx (by rw [tookChar_sum, hsum]) hbad
  · rw [takeCheck_wholeAndGood hgood]
    rcases hdrop with hd | hk
    · exact settleGood_discarded (by rw [tookChar_discarded, hd])
    · exact settleGood_unknown (by rw [rxKind_tookChar, hk])
  · rw [takeCheck_wholeAndGood hgood]
    exact settleGood_inDrain (by rw [tookChar_discarded, hd]) (by rw [rxKind_tookChar, hk]) hack (by rw [tookChar_inDrain, hdr])

end Sys2Proof.Machine

/-! # Event and data frames of units (R12, R55, R59, R81): O30 -/

namespace Sys2Proof.Machine

/-! ## An entry that is heard (R81) -/

theorem holdsAt_iff (d : DirEntry) (l : LineId) (a : Addr) :
    holdsAt d l a = true ↔ d.present = true ∧ d.line = l ∧ d.addr = some a := by
  rw [holdsAt, Bool.and_eq_true, Bool.and_eq_true, beq_iff_eq, beq_iff_eq, and_assoc]

theorem entryAt_holds {s : State} {l : LineId} {a : Addr} {e : EntryId} (h : entryAt s l a = some e) :
    holdsAt s.dir[e] l a = true := List.find?_some (p := fun x : EntryId => holdsAt s.dir[x] l a) h

/-- R81: an entry whose line is not STOPPED is heard, and its supervision armed. -/
theorem heardEntry_eq {s : State} {e : EntryId} (h : s.lines[s.dir[e].line].state ≠ .stopped) : heardEntry s e = heardFrom s e := by
  have harm : ∀ d : DirEntry, d.line = s.dir[e].line → armSupervision (atUnit s e d) e =
      atUnit s e { d with silenceTimer := some (1000 * s.profile.silenceLimit), lostTimer := some (1000 * s.profile.lostLimit) } :=
    fun d hd => by
      have hline : (atUnit s e d).lineStopped (atUnit s e d).dir[e].line = false := by
        rw [atUnit_self, hd]
        exact beq_eq_false_iff_ne.mpr h
      rw [armSupervision, hline, if_neg Bool.false_ne_true, modDir_eq_atUnit, atUnit_self, atUnit_atUnit]
      rfl
  unfold heardEntry heardFrom afterHeard
  cases hs : s.dir[e].state with
  | free | active | lost => exact harm { s.dir[e] with lastHeard := s.now } rfl
  | pending =>
    simp only [setDirMark, modDir_eq_atUnit, atUnit_self, atUnit_atUnit]
    exact harm { s.dir[e] with
      lastHeard := s.now, state := .active, established := true, grantAttempts := 0, grantTimer := none, mark := true
      latest := s.now } rfl
  | silent =>
    simp only [setDirMark, modDir_eq_atUnit, atUnit_self, atUnit_atUnit]
    exact harm { s.dir[e] with lastHeard := s.now, state := .active, established := true, mark := true, latest := s.now } rfl

theorem heardFrom_self (s : State) (e : EntryId) : (heardFrom s e).dir[e] = afterHeard s e := atUnit_self s e _

theorem heardFrom_other (s : State) {e x : EntryId} (h : e ≠ x) : (heardFrom s e).dir[x] = s.dir[x] := by
  exact (atUnit_get s e x _).trans (if_neg h)

/-- R81: hearing an entry that is present leaves its line, its address, its toggle bit and its presence as they were. -/
theorem afterHeard_eq {s : State} {e : EntryId} (h : s.dir[e].present = true) :
    (afterHeard s e).present = true ∧ (afterHeard s e).line = s.dir[e].line ∧ (afterHeard s e).addr = s.dir[e].addr ∧
      (afterHeard s e).inBit = s.dir[e].inBit := by
  unfold afterHeard
  dsimp only
  cases hs : s.dir[e].state with
  | free | lost =>
    rw [DirEntry.present, hs] at h
    exact absurd h Bool.false_ne_true
  | active | pending | silent => exact ⟨rfl, rfl, rfl, rfl⟩

theorem heard_none {s : State} {l : LineId} {a : Addr} (h : entryAt s l a = none) : heard s l a = s := by
  rw [heard, h]

theorem heard_some {s : State} {l : LineId} {a : Addr} {e : EntryId} (h : entryAt s l a = some e) (hs : s.lines[l].state ≠ .stopped) :
    heard s l a = heardFrom s e := by
  obtain ⟨-, hline, -⟩ := (holdsAt_iff _ _ _).mp (entryAt_holds h)
  rw [heard, h]
  subst hline
  exact heardEntry_eq hs

/-! ## The cases of an event or data frame (R55) -/

theorem offerAck_eq (s : State) (l : LineId) (a : PendingAck) : offerAck s l a = ackOffered s l a := by
  unfold offerAck ackOffered
  rw [modLine_eq_onLine]
  by_cases h : s.lines[l].acks.length < 4
  · exact (congrArg (onLine s l) (if_pos h)).trans (if_pos h).symm
  · exact ((congrArg (onLine s l) (if_neg h)).trans (onLine_same s l)).trans (if_neg h).symm

/-- R59: an acknowledgement and a counter of a line do not touch each other. -/
theorem countLine_ackOffered (s : State) (l : LineId) (a : PendingAck) (f : LineCounters → LineCounters) :
    countLine (ackOffered s l a) l f = ackOffered (onLine s l { s.lines[l] with counters := f s.lines[l].counters }) l a := by
  unfold ackOffered
  rw [onLine_self]
  dsimp only
  by_cases h : s.lines[l].acks.length < 4
  · rw [if_pos h, if_pos h, countLine_onLine, onLine_onLine]
  · rw [if_neg h, if_neg h]
    rfl

/-- R55: the records of a frame's admission, released. -/
def recordDropped (s : State) : Option RecId → State
  | none => s
  | some r => dropRef s r

section
variable {s t : State} {l : LineId} {src : Addr} {seq : Bool} {k : FrameKind} {e : EntryId} (ht : heard s l src = t)
include ht

theorem eventFrame_unheld (h : holdsAt t.dir[e] l src = false) (rec? : Option RecId) :
    eventFrame s l src seq k e rec? = strayFrame (recordDropped t rec?) l src := by
  unfold eventFrame
  rw [ht]
  dsimp only
  rw [h]
  cases rec? <;> rfl

variable (h : holdsAt t.dir[e] l src = true)
include h

theorem eventFrame_repeat (hbit : t.dir[e].inBit = some seq) (rec? : Option RecId) :
    eventFrame s l src seq k e rec? = ackOffered (recordDropped t rec?) l { dest := src, seq := seq, accepted := true } := by
  unfold eventFrame
  rw [ht]
  dsimp only
  rw [h, Bool.not_true, if_neg Bool.false_ne_true, if_pos hbit, offerAck_eq]
  cases rec? <;> rfl

theorem eventFrame_refused (hbit : t.dir[e].inBit ≠ some seq) :
    eventFrame s l src seq k e none =
      ackOffered (onLine t l { t.lines[l] with counters := t.lines[l].counters.addBusy }) l
        { dest := src, seq := seq, accepted := false } := by
  unfold eventFrame
  rw [ht]
  dsimp only
  rw [h, Bool.not_true, if_neg Bool.false_ne_true, if_neg hbit]
  rw [offerAck_eq]
  exact countLine_ackOffered t l _ _

theorem eventFrame_new (hbit : t.dir[e].inBit ≠ some seq) (r : RecId) :
    eventFrame s l src seq k e (some r) =
      handOver (ackOffered
        { t with
          dir := t.dir.set e { t.dir[e] with inBit := some seq }
          pool := { t.pool with recs := t.pool.recs.set r { t.pool.recs[r] with state := .stored } } } l
        { dest := src, seq := seq, accepted := true }) r e l k := by
  unfold eventFrame
  rw [ht]
  dsimp only
  rw [h, Bool.not_true, if_neg Bool.false_ne_true, if_neg hbit]
  rw [offerAck_eq]
  rfl

end

section
variable {s : State} {l : LineId} {f : RxFrame} {k : FrameKind} (hd : f.discarded = false) (hdr : f.inDrain = false)
  (hk : rxKind f = some k) (hf : k.family = .event ∨ k.family = .data)
include hd hdr hk hf

theorem settleGood_stray (h : f.dest = .stray) : settleGood s l f = strayFrame s l (headSource f.head) := by
  rw [settleGood, hd, hk, hdr, h]
  cases k with
  | ack | hello | status => exact absurd hf (by decide)
  | _ => rfl

theorem settleGood_record {r : RecId} {e : EntryId} (h : f.dest = .record r e) :
    settleGood s l f = eventFrame s l (headSource f.head) (secondSeq f.second) k e (some r) := by
  rw [settleGood, hd, hk, hdr, h]
  cases k with
  | ack | hello | status => exact absurd hf (by decide)
  | _ => rfl

theorem settleGood_refused {e : EntryId} (h : f.dest = .refused e) :
    settleGood s l f = eventFrame s l (headSource f.head) (secondSeq f.second) k e none := by
  rw [settleGood, hd, hk, hdr, h]
  cases k with
  | ack | hello | status => exact absurd hf (by decide)
  | _ => rfl

end

/-- R54: the row of a frame that is settled. -/
theorem exec_settles {s : State} {l : LineId} {f : RxFrame} {c : RawChar} {k : FrameKind} (h : settles s l f c k) :
    exec (closes l c k) s = .next (settle (settleGood (checkTaken s l c) l (tookChar f c))) := by
  obtain ⟨hends, hk, hgood, -, -⟩ := h
  rw [exec_closes hends hk, takeCheck_wholeAndGood hgood]

theorem checkTaken_line (s : State) (l : LineId) (c : RawChar) :
    (checkTaken s l c).lines[l] = { heardChar s.lines[l] c with rx := .hunting } := onLine_self s l _

theorem checkTaken_notStopped {s : State} {l : LineId} {f : RxFrame} {c : RawChar} (h : endsFrame s l f c) :
    (checkTaken s l c).lines[l].state ≠ .stopped := by
  obtain ⟨⟨-, hstate, -⟩, -⟩ := h
  rw [checkTaken_line]
  show s.lines[l].state ≠ .stopped
  rcases hstate with hs | hs <;> rw [hs] <;> exact LineState.noConfusion

/-- Settles O30: the frame of a known entry is a repeat, refused or new; any other is handled as a stray frame. -/
theorem unitFrameIsStoredAndAnswered : Obligations.UnitFrameIsStoredAndAnswered := by
  unfold Obligations.UnitFrameIsStoredAndAnswered
  intro s l f c k e r h hf
  obtain ⟨hends, hk, -, hd, hdr⟩ := id h
  have hlive := checkTaken_notStopped hends
  rw [← closes_unitFrame hf, exec_settles h]
  rw [← tookChar_discarded f c] at hd
  rw [← tookChar_inDrain f c] at hdr
  rw [← rxKind_tookChar f c] at hk
  rw [← tookChar_dest f c, ← tookChar_head f c, ← tookChar_second f c]
  have hrecord := fun (y : EntryId) (z : RecId) (hdest : (tookChar f c).dest = .record z y) =>
    settleGood_record (s := checkTaken s l c) (l := l) hd hdr hk hf hdest
  have hrefused := fun (y : EntryId) (hdest : (tookChar f c).dest = .refused y) =>
    settleGood_refused (s := checkTaken s l c) (l := l) hd hdr hk hf hdest
  refine ⟨fun he => ?_, fun hdest => ?_, fun he => ?_, fun x hx hno => ?_⟩
  · have hheard := heard_some (s := checkTaken s l c) he hlive
    obtain ⟨hpresent, hline, haddr⟩ := (holdsAt_iff _ _ _).mp (entryAt_holds he)
    obtain ⟨hp, hl, ha, hbit⟩ := afterHeard_eq (s := checkTaken s l c) hpresent
    have hself := heardFrom_self (checkTaken s l c) e
    have hholds : holdsAt (heardFrom (checkTaken s l c) e).dir[e] l (headSource (tookChar f c).head) = true := by
      rw [hself]
      exact (holdsAt_iff _ _ _).mpr ⟨hp, hl.trans hline, ha.trans haddr⟩
    have hbits : (heardFrom (checkTaken s l c) e).dir[e].inBit = s.dir[e].inBit := by rw [hself]; exact hbit
    refine ⟨fun hb hdest => next_settle ?_, fun hb hdest => next_settle ?_, fun hb hdest => next_settle ?_,
      fun hb hdest => next_settle ?_⟩
    · exact (hrecord e r hdest).trans (eventFrame_repeat hheard hholds (hbits.trans hb) (some r))
    · exact (hrefused e hdest).trans (eventFrame_repeat hheard hholds (hbits.trans hb) none)
    · have hbusy : (checkTaken s l c).lines[l].counters.busy = s.lines[l].counters.busy := by
        rw [checkTaken_line]
        rfl
      rw [← hbusy]
      exact (hrefused e hdest).trans (eventFrame_refused hheard hholds (by rw [hbits]; exact hb))
    · refine (hrecord e r hdest).trans ((eventFrame_new hheard hholds (by rw [hbits]; exact hb) r).trans ?_)
      have hdir : (heardFrom (checkTaken s l c) e).dir.set e
          { (heardFrom (checkTaken s l c) e).dir[e] with inBit := some (secondSeq (tookChar f c).second) } =
          s.dir.set e { afterHeard s e with inBit := some (secondSeq (tookChar f c).second) } := by
        rw [hself]
        exact Vector.set_set ..
      rw [hdir]
      rfl
  · exact next_settle (settleGood_stray hd hdr hk hf hdest)
  · have hheard := heard_none (s := checkTaken s l c) he
    have hholds : holdsAt (checkTaken s l c).dir[e] l (headSource (tookChar f c).head) = false := by
      rw [← Bool.not_eq_true, holdsAt_iff]
      rintro ⟨hp, hl, ha⟩
      exact entryAt_none (s := checkTaken s l c) (Option.isNone_iff_eq_none.mpr he) e hp hl ha
    exact ⟨fun hdest => next_settle ((hrecord e r hdest).trans (eventFrame_unheld hheard hholds (some r))),
      fun hdest => next_settle ((hrefused e hdest).trans (eventFrame_unheld hheard hholds none))⟩
  · have hheard := heard_some (s := checkTaken s l c) hx hlive
    have hnot : holdsAt s.dir[e] l (headSource (tookChar f c).head) = false := by
      rw [← Bool.not_eq_true, holdsAt_iff]
      rintro ⟨hp, hl, ha⟩
      rcases hno with h | h | h
      · exact absurd hp (by rw [h]; exact Bool.false_ne_true)
      · exact h hl
      · exact h ha
    have hne : x ≠ e := by
      rintro rfl
      exact absurd (entryAt_holds hx) (by rw [hnot]; exact Bool.false_ne_true)
    have hholds : holdsAt (heardFrom (checkTaken s l c) x).dir[e] l (headSource (tookChar f c).head) = false := by
      rw [heardFrom_other _ hne]
      exact hnot
    exact ⟨fun hdest => next_settle ((hrecord e r hdest).trans (eventFrame_unheld hheard hholds (some r))),
      fun hdest => next_settle ((hrefused e hdest).trans (eventFrame_unheld hheard hholds none))⟩

end Sys2Proof.Machine

/-! # The end of an event at one line: its choice and its drain (R32, R34, R41, R61, R62): O23, O24 -/

namespace Sys2Proof.Machine

/-! ## Lines that take no part -/

/-- Every line but `l` neither drains nor is ready to choose. -/
def OthersQuiet (s : State) (l : LineId) : Prop := ∀ k ≠ l, s.lines[k].state ≠ .draining ∧ s.lines[k].idle = false

theorem OthersQuiet.onLine {s : State} {l : LineId} (h : OthersQuiet s l) (ln : Line) : OthersQuiet (onLine s l ln) l := fun k hk => by
  rw [onLine_get, if_neg (Ne.symm hk)]
  exact h k hk

theorem drainLine_of_state {s : State} {l : LineId} (h : s.lines[l].state ≠ .draining) : drainLine s l = s := by
  refine if_neg fun hc => h ?_
  simp only [drainComplete, Bool.and_eq_true, beq_iff_eq] at hc
  exact hc.1.1.1.1

theorem lineChoose_of_busy {s : State} {l : LineId} (h : s.lines[l].idle = false) : lineChoose s l = s := by
  rw [lineChoose]
  exact if_pos (by rw [h]; rfl)

/-- A round over the lines in which each but one has nothing to do. -/
theorem foldl_lines_alone {f : State → LineId → State} {l : LineId} {P : State → Prop} (hf : ∀ t k, P t → k ≠ l → f t k = t)
    (hP : ∀ t, P t → P (f t l)) {s : State} (h : P s) : allLines.foldl f s = f s l := by
  have others : ∀ (ls : List LineId) (t : State), P t → l ∉ ls → ls.foldl f t = t := by
    intro ls
    induction ls with
    | nil => exact fun t _ _ => rfl
    | cons k ls ih =>
      intro t ht hl
      obtain ⟨hk, hl⟩ := not_or.mp (mt List.mem_cons.mpr hl)
      rw [List.foldl_cons, hf t k ht (Ne.symm hk)]
      exact ih t ht hl
  obtain ⟨before, after, hall⟩ := List.append_of_mem (mem_allLines l)
  have hnd : (l :: (before ++ after)).Nodup := List.nodup_middle.mp (hall ▸ (by decide : allLines.Nodup))
  obtain ⟨hb, ha⟩ := not_or.mp (mt List.mem_append.mpr (List.nodup_cons.mp hnd).1)
  rw [hall, List.foldl_append, List.foldl_cons, others before s h hb, others after _ (hP s h) ha]

theorem OthersQuiet.drainLine {s : State} {l : LineId} (h : OthersQuiet s l) : OthersQuiet (drainLine s l) l := by
  unfold Machine.drainLine
  split
  · intro k hk
    rw [((stoppedAt s l).other k hk).same]
    exact h k hk
  · exact h

theorem lineChoose_lines (s : State) {l k : LineId} (hk : k ≠ l) : (lineChoose s l).lines[k] = s.lines[k] := by
  have keep : ∀ ln : Line, (onLine s l ln).lines[k] = s.lines[k] := fun ln => by rw [onLine_get, if_neg (Ne.symm hk)]
  rw [lineChoose]
  split
  · rfl
  · split
    · exact keep _
    · exact keep _
    · split
      · exact keep _
      · rfl
    · rfl

/-- R41, R62: the end of an event in which one line alone can drain or choose. -/
theorem settleLines_alone {s : State} {l : LineId} (h : OthersQuiet s l) : settleLines s = lineChoose (drainLine s l) l := by
  have hdrain : allLines.foldl drainLine s = drainLine s l :=
    foldl_lines_alone (P := fun t => OthersQuiet t l) (fun t k ht hk => drainLine_of_state (ht k hk).1) (fun t ht => ht.drainLine) h
  have hchoose : allLines.foldl lineChoose (drainLine s l) = lineChoose (drainLine s l) l :=
    foldl_lines_alone (P := fun t => OthersQuiet t l) (fun t k ht hk => lineChoose_of_busy (ht k hk).2)
      (fun t ht k hk => by rw [lineChoose_lines t hk]; exact ht k hk) h.drainLine
  rw [settleLines, hdrain, hchoose]

/-- R41: the drain is not complete. -/
theorem settle_undrained {s t : State} {l : LineId} (h : OthersQuiet s l) (hd : drainComplete s.lines[l] = false)
    (ht : lineChoose s l = t) : settle s = settleLink t := by
  rw [settle, settleLines_alone h, drainLine, hd, if_neg Bool.false_ne_true, ht]

/-- R41, R43: the drain is complete. -/
theorem settle_drained {s : State} {l : LineId} (h : OthersQuiet s l) (hd : drainComplete s.lines[l] = true) :
    settle s = settleLink (enterStopped s l) := by
  have hidle : (enterStopped s l).lines[l].idle = false := by rw [(stoppedAt s l).line]; rfl
  rw [settle, settleLines_alone h, drainLine, hd, if_pos rfl, lineChoose_of_busy hidle]

/-! ## The choice (R34, R59, R61 to R63) -/

theorem eligible_iff (ln : Line) (q : QEntry) : eligible ln q = true ↔ mayGo ln q := by
  unfold eligible mayGo Line.queued
  simp only [Bool.and_eq_true, Bool.or_eq_true, Bool.not_eq_true', List.any_eq_false, beq_iff_eq, and_assoc, not_and, ne_eq]

theorem chosen_eq {ln : Line} {q : QEntry} (h : goesFirst ln q) : ln.queued.find? (eligible ln) = some q := by
  obtain ⟨before, after, hqueue, hgo, hbefore⟩ := h
  refine List.find?_eq_some_iff_append.mpr ⟨(eligible_iff ln q).mpr hgo, before, after, hqueue, fun x hx => ?_⟩
  rw [Bool.not_eq_true', ← Bool.not_eq_true, eligible_iff]
  exact hbefore x hx

theorem chosen_none {ln : Line} (h : ∀ x ∈ ln.control ++ ln.pass, ¬ mayGo ln x) : ln.queued.find? (eligible ln) = none :=
  List.find?_eq_none.mpr fun x hx => by
    rw [eligible_iff]
    exact h x hx

theorem frameChars_eq (u : Urgency) (dest : Addr) (seq : Bool) (k : FrameKind) (body : List Byte) :
    frameChars u dest seq k body = partFrame u.toNat k.family.code dest.toNat seq k.code body := by
  have hcheck : ∀ bytes : List Byte, checkByte bytes = 0 - byteSum bytes := fun bytes => (BitVec.zero_sub _).symm
  rw [frameChars, hcheck]
  rfl

theorem ackChars_eq (a : PendingAck) : ackChars a = partFrame 0 1 a.dest.toNat a.seq 0 [if a.accepted then 0 else 2, 0] :=
  frameChars_eq 0 a.dest a.seq .ack _

theorem sequenceBit_eq {s : State} {q : QEntry} {k : FrameKind} (h : s.pool.recs[q.record].kind = .frame k) :
    sequenceBit s q = sentSeq s q k := by
  have hkind : recFrameKind s.pool.recs[q.record] = k := by rw [recFrameKind, h]
  unfold sequenceBit sentSeq
  rw [hkind]
  cases k <;> cases q.target <;> rfl

theorem entryChars_eq {s : State} {q : QEntry} {k : FrameKind} (h : s.pool.recs[q.record].kind = .frame k) :
    entryChars s q = partFrame s.pool.recs[q.record].urg.toNat k.family.code q.dest.toNat (sentSeq s q k) k.code
      (s.pool.body q.record) := by
  have hkind : recFrameKind s.pool.recs[q.record] = k := by rw [recFrameKind, h]
  rw [entryChars, frameChars_eq, sequenceBit_eq h, hkind]

section
variable {s : State} {l : LineId} (hidle : s.lines[l].idle = true) (htx : s.lines[l].tx = none)
include hidle htx

theorem lineChoose_beginAck (hs : s.lines[l].state = .active ∨ s.lines[l].state = .draining) {a : PendingAck} {rest : List PendingAck}
    (ha : s.lines[l].acks = a :: rest) : lineChoose s l = beginAck s l a := by
  rw [lineChoose, hidle, htx, ha]
  rcases hs with hs | hs <;> rw [hs] <;> rfl

variable (hs : s.lines[l].state = .active) (ha : s.lines[l].acks = [])
include hs ha

theorem lineChoose_beginEntry {q : QEntry} (hq : s.lines[l].queued.find? (eligible s.lines[l]) = some q) :
    lineChoose s l = beginEntry s l q := by
  rw [lineChoose, hidle, htx, ha, hs, hq]
  rfl

theorem lineChoose_none (hq : s.lines[l].queued.find? (eligible s.lines[l]) = none) : lineChoose s l = s := by
  rw [lineChoose, hidle, htx, ha, hs, hq]
  rfl

end

section
variable {s : State} {l : LineId} {ln : Line} (hidle : ln.idle = false) (htx : ln.tx = none)
include hidle htx

/-- R59: on a line that becomes idle the oldest acknowledgement goes first. -/
theorem lineChoose_ack (hs : ln.state = .active ∨ ln.state = .draining) {a : PendingAck} {rest : List PendingAck}
    (ha : ln.acks = a :: rest) :
    lineChoose (onLine s l { ln with idle := true }) l = onLine s l
      { ln with
        tx := some
          { src := .ack, chars := partFrame 0 1 a.dest.toNat a.seq 0 [if a.accepted then 0 else 2, 0], startedAt := s.time.mono
            inDrain := decide (ln.state = .draining) } } := by
  have hline := onLine_self s l { ln with idle := true }
  rw [lineChoose_beginAck (by rw [hline]) (by rw [hline]; exact htx) (by rw [hline]; exact hs) (by rw [hline]; exact ha),
    beginAck, modLine_eq_onLine, hline, onLine_onLine, ackChars_eq]
  obtain ⟨state, timing, idle, rx, acks, control, pass, tx, whoAt, counters, mark, latest⟩ := ln
  subst hidle
  rfl

variable (hs : ln.state = .active) (ha : ln.acks = [])
include hs ha

theorem lineChoose_entry {q : QEntry} {k : FrameKind} (hq : goesFirst ln q) (hk : s.pool.recs[q.record].kind = .frame k) :
    lineChoose (onLine s l { ln with idle := true }) l = onLine s l
      { withEntry ln q fun x => { x with inTx := true, lastBit := sentSeq s q k, limitTimer := none } with
        tx := some
          { src := .queued
            chars := partFrame s.pool.recs[q.record].urg.toNat k.family.code q.dest.toNat (sentSeq s q k) k.code (s.pool.body q.record)
            startedAt := s.time.mono, inDrain := false } } := by
  have hline := onLine_self s l { ln with idle := true }
  have hchars := entryChars_eq (s := onLine s l { ln with idle := true }) hk
  have hbit := sequenceBit_eq (s := onLine s l { ln with idle := true }) hk
  rw [lineChoose_beginEntry (by rw [hline]) (by rw [hline]; exact htx) (by rw [hline]; exact hs) (by rw [hline]; exact ha)
    (by rw [hline]; exact chosen_eq hq), beginEntry, hchars, hbit, modLine_eq_onLine, hline, onLine_onLine]
  obtain ⟨state, timing, idle, rx, acks, control, pass, tx, whoAt, counters, mark, latest⟩ := ln
  subst hidle hs
  rfl

omit hidle in
theorem lineChoose_nothing (hno : ∀ x ∈ ln.control ++ ln.pass, ¬ mayGo ln x) :
    lineChoose (onLine s l { ln with idle := true }) l = onLine s l { ln with idle := true } := by
  have hline := onLine_self s l { ln with idle := true }
  exact lineChoose_none (by rw [hline]) (by rw [hline]; exact htx) (by rw [hline]; exact hs) (by rw [hline]; exact ha)
    (by rw [hline]; exact chosen_none hno)

end

/-- R41: a DRAINING line without an acknowledgement begins nothing. -/
theorem lineChoose_draining {s : State} {l : LineId} (hs : s.lines[l].state = .draining) (ha : s.lines[l].acks = []) :
    lineChoose s l = s := by
  rw [lineChoose, hs, ha]
  exact ite_self _

/-- R32: LINE_IDLE of a line that awaits it, when the line is ACTIVE or DRAINING. -/
theorem exec_lineIdle {s : State} {l : LineId} (hrun : s.running = true) (htx : s.lines[l].tx = none) (hidle : s.lines[l].idle = false)
    (hheader : ¬ headerOpen s.lines[l]) (hs : s.lines[l].state = .active ∨ s.lines[l].state = .draining) :
    exec (.lineIdle l) s = .next (settle (onLine s l { s.lines[l] with idle := true })) := by
  have hinside : insideHeader s.lines[l] = false := by
    unfold insideHeader
    split
    case h_1 a d hrx => exact absurd ⟨a, d, hrx⟩ hheader
    case h_2 => rfl
  have hdue : (s.running && idleDue s.lines[l]) = true := by
    rw [idleDue, hrun, htx, hidle, hinside]
    rcases hs with hs | hs <;> rw [hs] <;> rfl
  have hbecome : becomeIdle s l = onLine s l { s.lines[l] with idle := true } := by
    unfold becomeIdle
    rcases hs with hs | hs <;> rw [hs] <;> rfl
  rw [exec, execLineIdle, hdue, if_pos rfl, hbecome]

theorem next_settled {u t : State} (h : settle u = settleLink t) :
    (.next (settle u) : Host.Outcome State Fault Refusal) = .next (settleLink t) := by
  rw [h]

/-- Settles O23: the line that becomes idle is the only one with a choice to make, and makes it by its state and what it holds. -/
theorem idleLineChooses : Obligations.IdleLineChooses := by
  unfold Obligations.IdleLineChooses
  refine ⟨fun s l h => lineChoose_of_busy h, fun s l hrun htx hidle hheader hquiet => ?_⟩
  have hothers : OthersQuiet (onLine s l { s.lines[l] with idle := true }) l := OthersQuiet.onLine hquiet _
  have hexec := exec_lineIdle hrun htx hidle hheader
  have hactive : s.lines[l].state = .active →
      drainComplete (onLine s l { s.lines[l] with idle := true }).lines[l] = false := fun hs => by
    rw [onLine_self, drainComplete, hs]
    rfl
  refine ⟨fun a rest hs ha => ?_, fun q k hs ha hq hk => ?_, fun hs ha hno => ?_, fun hs ha haw => ?_⟩
  · have hundrained : drainComplete (onLine s l { s.lines[l] with idle := true }).lines[l] = false := by
      rw [onLine_self, drainComplete, ha, List.isEmpty_cons, Bool.and_false]
    exact (hexec hs).trans (next_settled (settle_undrained hothers hundrained (lineChoose_ack hidle htx hs ha)))
  · exact (hexec (.inl hs)).trans
      (next_settled (settle_undrained hothers (hactive hs) (lineChoose_entry hidle htx hs ha hq hk)))
  · exact (hexec (.inl hs)).trans
      (next_settled (settle_undrained hothers (hactive hs) (lineChoose_nothing htx hs ha hno)))
  · have hundrained : drainComplete (onLine s l { s.lines[l] with idle := true }).lines[l] = false := by
      have hany : s.lines[l].queued.any (fun q => q.awaiting) = true := List.any_eq_true.mpr haw
      have hany' : ({ s.lines[l] with idle := true } : Line).queued.any (fun q => q.awaiting) = true := hany
      rw [onLine_self, drainComplete, hany', Bool.not_true, Bool.and_false, Bool.false_and]
    have hstay : lineChoose (onLine s l { s.lines[l] with idle := true }) l = onLine s l { s.lines[l] with idle := true } :=
      lineChoose_draining (by rw [onLine_self]; exact hs) (by rw [onLine_self]; exact ha)
    exact (hexec (.inr hs)).trans (next_settled (settle_undrained hothers hundrained hstay))

/-! ## The end of a drain (R41) -/

theorem drainComplete_of {ln : Line} (hs : ln.state = .draining) (hrx : ln.rx = .hunting ∨ ln.rx = .abandoned) (htx : ln.tx = none)
    (haw : ∀ x ∈ ln.control ++ ln.pass, x.awaiting = false) (ha : ln.acks = []) : drainComplete ln = true := by
  have hany : ln.queued.any (fun q => q.awaiting) = false := List.any_eq_false.mpr fun x hx => by
    rw [haw x hx]
    exact Bool.false_ne_true
  have hearlier : earlierReception ln = false := by
    unfold earlierReception
    rcases hrx with hrx | hrx <;> rw [hrx]
  rw [drainComplete, hs, hearlier, htx, hany, ha]
  rfl

theorem drainComplete_header {ln : Line} {edge : Ms} (hrx : ln.rx = .completing edge false) : drainComplete ln = false := by
  have hearlier : earlierReception ln = true := by
    unfold earlierReception
    rw [hrx]
    rfl
  rw [drainComplete, hearlier, Bool.not_true, Bool.and_false, Bool.false_and, Bool.false_and, Bool.false_and]

/-- R34, R59: the acknowledgement at the head of the list has been sent. -/
theorem transmissionDone_ack {s : State} {l : LineId} {x : Tx} (h : s.lines[l].tx = some x) (hsrc : x.src = .ack) :
    transmissionDone s l = onLine s l { s.lines[l] with tx := none, acks := s.lines[l].acks.drop 1 } := by
  rw [transmissionDone, h]
  dsimp only
  rw [hsrc, modLine_eq_onLine, modLine_eq_onLine, onLine_self, onLine_onLine]

theorem exec_frameTransmitted {s : State} {l : LineId} {x : Tx} (hrun : s.running = true) (h : s.lines[l].tx = some x) :
    exec (.frameTransmitted l) s = .next (settle (transmissionDone s l)) := by
  rw [exec, execFrameTransmitted, hrun, h, Option.isSome_some, Bool.and_self, if_pos rfl]

section
variable {s : State} {i : SlotId} {l : LineId} {ln : Line} {h : Option Ms} (hquiet : OthersQuiet s l)
  (ha : asks s i 0x09 [byteOf (l.val + 1), 0]) (hd : drainState s l h = onLine s l ln)
include hquiet ha hd

/-- R41: the drain is complete at the DRAIN. -/
theorem exec_drain_complete (hc : drainComplete ln = true) :
    exec (.lineStopDrain h) s = .next (settleLink (enterStopped (replied (onLine s l ln) i .ok []) l)) := by
  have hline : (replied (onLine s l ln) i .ok []).lines[l] = ln := onLine_self s l ln
  have hothers : OthersQuiet (replied (onLine s l ln) i .ok []) l := hquiet.onLine ln
  rw [exec_drain ha h hd, settle_drained hothers (by rw [hline]; exact hc)]

/-- R41: the drain goes on after the DRAIN. -/
theorem exec_drain_goesOn (hc : drainComplete ln = false) (hs : ln.state = .draining) (hacks : ln.acks = []) :
    exec (.lineStopDrain h) s = .next (settleLink (replied (onLine s l ln) i .ok [])) := by
  have hline : (replied (onLine s l ln) i .ok []).lines[l] = ln := onLine_self s l ln
  have hothers : OthersQuiet (replied (onLine s l ln) i .ok []) l := hquiet.onLine ln
  rw [exec_drain ha h hd, settle_undrained hothers (by rw [hline]; exact hc)
    (lineChoose_draining (by rw [hline]; exact hs) (by rw [hline]; exact hacks))]

end

/-- Settles O24: the drain is complete at the DRAIN itself, or when the last acknowledgement has been sent. -/
theorem completeDrainStopsTheLine : Obligations.CompleteDrainStopsTheLine := by
  unfold Obligations.CompleteDrainStopsTheLine
  intro s l hquiet haw
  refine ⟨fun i h ha hs htx hacks => ⟨fun hrx => ?_, fun edge hrx => ?_, fun edge hrx hh => ?_⟩,
    fun x a hrun hs hx hsrc hacks hrx => ?_⟩
  · have hdrain := drainState_active hs h
    rw [headerBegun_none (by
      rcases hrx with ⟨-, hh⟩ | hrx
      · exact .inl hh
      · exact .inr (.inl (by rw [hrx]; exact Rx.noConfusion)))] at hdrain
    exact exec_drain_complete hquiet ha hdrain (drainComplete_of rfl (hrx.imp And.left id) htx haw hacks)
  · have hdrain := drainState_active hs h
    rw [headerBegun_none (.inr (.inl (by rw [hrx]; exact Rx.noConfusion)))] at hdrain
    exact exec_drain_goesOn hquiet ha hdrain (drainComplete_header (edge := edge) hrx) rfl hacks
  · have hdrain := drainState_active hs h
    rw [hh, headerBegun_some hrx htx] at hdrain
    rw [hh]
    exact exec_drain_goesOn hquiet ha hdrain (drainComplete_header (edge := edge) rfl) rfl hacks
  · have hdone : transmissionDone s l = onLine s l { s.lines[l] with tx := none, acks := [] } := by
      rw [transmissionDone_ack hx hsrc, hacks, List.drop_one, List.tail_cons]
    have hcomplete : drainComplete { s.lines[l] with tx := none, acks := [] } = true := drainComplete_of hs hrx rfl haw rfl
    rw [exec_frameTransmitted hrun hx, hdone, settle_drained (OthersQuiet.onLine hquiet _) (by rw [onLine_self]; exact hcomplete)]

end Sys2Proof.Machine

/-! # The ends of queued frames (R63, R67, R73, R105): O33, O34 -/

namespace Sys2Proof.Machine

/-! ## An entry ends (R63, R67) -/

/-- R63: whether the outbound bit of the target toggles. -/
theorem togglesBit_iff (k : RecKind) (q : QEntry) (o : FrameOutcome) : togglesBit k q o = true ↔
    (k = .frame .display ∨ k = .frame .cardCommand ∨ k = .frame .unitCommand) ∧ togglesOn q.isOpen o = true := by
  have hkind : (match k with | .frame f => acknowledgedKind f | .notice _ => false) = true ↔
      (k = .frame .display ∨ k = .frame .cardCommand ∨ k = .frame .unitCommand) := by
    cases k with
    | frame f => cases f <;> simp [acknowledgedKind]
    | notice n => simp
  have hout : (match o with
      | .delivered | .refused _ | .noAck => true
      | .lineStopped => q.isOpen
      | _ => false) = togglesOn q.isOpen o := by
    cases o <;> rfl
  rw [← hkind, ← hout, ← Bool.and_eq_true]
  rfl

/-- R63, R67: the state once an entry of line `l` has ended, its owner not yet told. -/
def entryEnded (s : State) (l : LineId) (q : QEntry) (o : FrameOutcome) : State :=
  { onLine s l
      { withoutEntry s.lines[l] q with
        tx := if q.inTx = true then s.lines[l].tx.map fun x => { x with src := .detached q.record } else s.lines[l].tx } with
    pool := if q.inTx = true then s.pool else s.pool.dropRef q.record
    dir :=
      match q.target with
      | some e =>
        if (s.pool.recs[q.record].kind = .frame .display ∨ s.pool.recs[q.record].kind = .frame .cardCommand ∨
              s.pool.recs[q.record].kind = .frame .unitCommand) ∧ togglesOn q.isOpen o = true then
          s.dir.set e { s.dir[e] with outBit := !s.dir[e].outBit }
        else s.dir
      | none => s.dir }

theorem leaveQueue_eq (s : State) (l : LineId) (q : QEntry) :
    leaveQueue s l q =
      { onLine s l
          { withoutEntry s.lines[l] q with
            tx := if q.inTx = true then s.lines[l].tx.map fun x => { x with src := .detached q.record } else s.lines[l].tx } with
        pool := if q.inTx = true then s.pool else s.pool.dropRef q.record } := by
  unfold leaveQueue
  dsimp only
  rw [modLine_eq_onLine]
  by_cases h : q.inTx = true
  · simp only [if_pos h]
    rfl
  · simp only [if_neg h]
    rfl

/-- R67: an entry ends, and its owner is told. -/
theorem endEntry_eq (s : State) (l : LineId) (q : QEntry) (o : FrameOutcome) :
    endEntry s l q o = tellOwner (entryEnded s l q o) q o := by
  have htoggle : (if togglesBit s.pool.recs[q.record].kind q o then toggleOut (leaveQueue s l q) q.target else leaveQueue s l q) =
      entryEnded s l q o := by
    rw [leaveQueue_eq]
    unfold entryEnded
    by_cases h : togglesBit s.pool.recs[q.record].kind q o = true
    · rw [if_pos h]
      cases ht : q.target with
      | none => rfl
      | some e =>
        dsimp only
        rw [if_pos ((togglesBit_iff _ _ _).mp h)]
        rfl
    · rw [if_neg h]
      cases ht : q.target with
      | none => rfl
      | some e =>
        dsimp only
        rw [if_neg (mt (togglesBit_iff _ _ _).mpr h)]
        rfl
  unfold endEntry
  exact congrArg (fun t => tellOwner t q o) htoggle

/-! ## The owners (R132, R139) -/

theorem setDisplayPending_eq (s : State) (p : Pos) (t : Tone) :
    setDisplayPending s p t = atEntry s p
      { s.entry[p] with
        dispPending := true, pendTone := t
        retryTimer := if s.entry[p].retryTimer = none then some 100 else s.entry[p].retryTimer } := by
  rw [setDisplayPending, modEntry_eq_atEntry]
  cases h : s.entry[p].retryTimer <;> rfl

theorem displayOutcome_pending {o : FrameOutcome} (h : o = .noAck ∨ o = .expired ∨ o = .lineStopped) (s : State) (p : Pos) :
    displayOutcome s p o = atEntry s p
      { s.entry[p] with
        dispPending := true
        retryTimer := if s.entry[p].retryTimer = none then some 100 else s.entry[p].retryTimer } := by
  obtain rfl | rfl | rfl := h <;> exact setDisplayPending_eq s p _

theorem displayOutcome_kept {o : FrameOutcome} (h : o = .delivered ∨ o = .unitGone ∨ ∃ x, o = .refused x) (s : State) (p : Pos) :
    displayOutcome s p o = s := by
  obtain rfl | rfl | ⟨x, rfl⟩ := h <;> rfl

section
variable {s : State} {p : Pos} {r : RecId} {o : FrameOutcome}

theorem cardOutcome_kept (h : (∀ cmd, s.card[p].current ≠ some (cmd, r)) ∨ o = .delivered ∨ o = .unitGone) :
    cardOutcome s p r o = s := by
  unfold cardOutcome
  cases hc : s.card[p].current with
  | none => rfl
  | some c =>
    obtain ⟨cmd, r1⟩ := c
    dsimp only
    by_cases hr : r1 = r
    · rw [if_neg (not_not.mpr hr)]
      rcases h with h | rfl | rfl
      · exact absurd (hr ▸ hc) (h cmd)
      · rfl
      · cases cmd <;> rfl
    · rw [if_pos hr]

/-- R139: the outcomes of a read that is current. -/
theorem cardOutcome_read (h : s.card[p].current = some (.read, r)) :
    (∀ x, cardOutcome s p r (.refused x) = cardTo (readEnd s p .unitRefused .unitRefused x) p .present .unitRefused) ∧
      (∀ o, o = .noAck ∨ o = .expired →
        cardOutcome s p r o = cardTo (readEnd s p .unitFailed .unitFailed 0) p .fault .unitFailed) ∧
      cardOutcome s p r .lineStopped = cardTo (readEnd s p .unitFailed .lineStopped 0) p .fault .lineStopped := by
  refine ⟨fun x => ?_, fun o ho => ?_, ?_⟩
  · simp only [cardOutcome, h, ne_eq, not_true_eq_false, if_false]
  · obtain rfl | rfl := ho <;> simp only [cardOutcome, h, ne_eq, not_true_eq_false, if_false]
  · simp only [cardOutcome, h, ne_eq, not_true_eq_false, if_false]

/-- R139: the outcomes of a movement that is current. -/
theorem cardOutcome_movement {cmd : CardCommand} (hcmd : cmd ≠ .read) (h : s.card[p].current = some (cmd, r)) :
    (∀ x, cardOutcome s p r (.refused x) = cardTo s p .fault .unitRefused) ∧
      (∀ o, o = .noAck ∨ o = .expired → cardOutcome s p r o = cardTo s p .fault .unitFailed) ∧
      cardOutcome s p r .lineStopped = cardTo s p .fault .lineStopped := by
  cases cmd with
  | read => exact absurd rfl hcmd
  | eject | retain =>
    refine ⟨fun x => ?_, fun o ho => ?_, ?_⟩
    · simp only [cardOutcome, h, ne_eq, not_true_eq_false, if_false]
    · obtain rfl | rfl := ho <;> simp only [cardOutcome, h, ne_eq, not_true_eq_false, if_false]
    · simp only [cardOutcome, h, ne_eq, not_true_eq_false, if_false]

end

/-! ## The address of an entry is released (R73) -/

/-- R63: UNIT_GONE leaves every outbound bit. -/
theorem entryEnded_unitGone_dir (s : State) (l : LineId) (q : QEntry) : (entryEnded s l q .unitGone).dir = s.dir := by
  unfold entryEnded
  dsimp only
  cases q.target with
  | none => rfl
  | some e => exact if_neg fun h => Bool.false_ne_true h.2

/-- R132, R139: UNIT_GONE moves no context. -/
theorem endEntry_unitGone (s : State) (l : LineId) (q : QEntry) :
    endEntry s l q .unitGone = { s with
      pool := (endEntry s l q .unitGone).pool, lines := (endEntry s l q .unitGone).lines, w0 := (endEntry s l q .unitGone).w0
      fanouts := (endEntry s l q .unitGone).fanouts } := by
  have hended : entryEnded s l q .unitGone = { s with
      pool := (entryEnded s l q .unitGone).pool, lines := (entryEnded s l q .unitGone).lines } := by
    have hdir := entryEnded_unitGone_dir s l q
    have hframe : entryEnded s l q .unitGone = { s with
        pool := (entryEnded s l q .unitGone).pool, lines := (entryEnded s l q .unitGone).lines
        dir := (entryEnded s l q .unitGone).dir } := rfl
    rw [hdir] at hframe
    exact hframe
  have htold : tellOwner (entryEnded s l q .unitGone) q .unitGone = { entryEnded s l q .unitGone with
      pool := (tellOwner (entryEnded s l q .unitGone) q .unitGone).pool
      w0 := (tellOwner (entryEnded s l q .unitGone) q .unitGone).w0
      fanouts := (tellOwner (entryEnded s l q .unitGone) q .unitGone).fanouts } := by
    generalize entryEnded s l q .unitGone = u
    unfold tellOwner
    cases q.owner with
    | directory | timeBase => rfl
    | entry p => rfl
    | card p =>
      dsimp only
      rw [cardOutcome_kept (.inr (.inr rfl))]
    | dispatch sd =>
      cases q.target with
      | none => rfl
      | some e => exact copyOutcome_frame u sd e .unitGone
  rw [endEntry_eq, htold, hended]

theorem endEntries_unitGone (qs : List QEntry) (s : State) (l : LineId) :
    endEntries s l qs .unitGone = { s with
      pool := (endEntries s l qs .unitGone).pool, lines := (endEntries s l qs .unitGone).lines
      w0 := (endEntries s l qs .unitGone).w0, fanouts := (endEntries s l qs .unitGone).fanouts } := by
  unfold endEntries
  induction qs generalizing s with
  | nil => rfl
  | cons q qs ih =>
    rw [List.foldl_cons, ih, endEntry_unitGone]

/-- R73: the entries of a line that are queued to a unit. -/
def queuedTo (ln : Line) (e : EntryId) : List QEntry := ln.queued.filter fun q => q.target == some e

/-- R73: of the queues of a line none is left that goes to the unit. -/
theorem queuedTo_gone {ln : Line} {e : EntryId} {x : QEntry} {ys : List QEntry} (hy : ∀ y ∈ ys, y ∈ ln.queued)
    (h : x ∈ ys.filter fun x => (queuedTo ln e).all fun q => !sameEntry x q) : x.target ≠ some e ∧ x ∈ ln.queued := by
  obtain ⟨hx, hall⟩ := List.mem_filter.mp h
  refine ⟨fun ht => ?_, hy x hx⟩
  have := List.all_eq_true.mp hall x (List.mem_filter.mpr ⟨hy x hx, beq_iff_eq.mpr ht⟩)
  rw [sameEntry_self] at this
  exact Bool.false_ne_true this

/-- R73: a release changes the directory by its own entry only. -/
theorem releaseAddress_eq (s : State) (e : EntryId) :
    releaseAddress s e =
      { endEntries (atUnit s e { s.dir[e] with addr := none }) s.dir[e].line (queuedTo s.lines[s.dir[e].line] e) .unitGone with
        dir := s.dir.set e { s.dir[e] with addr := none, grantTimer := none, silenceTimer := none, lostTimer := none } } := by
  have hrelease : releaseAddress s e =
      (endEntries (atUnit s e { s.dir[e] with addr := none }) s.dir[e].line (queuedTo s.lines[s.dir[e].line] e) .unitGone).modDir e
        fun d => { d with grantTimer := none, silenceTimer := none, lostTimer := none } := rfl
  rw [hrelease, endEntries_unitGone, modDir_eq_atUnit]
  dsimp only
  rw [atUnit_self]
  unfold atUnit
  dsimp only
  rw [Vector.set_set]

/-- Settles O33: the entry leaves its queue, then its owner is told; a release ends the entries of its target in a round. -/
theorem framesEndWithAnOutcome : Obligations.FramesEndWithAnOutcome := by
  unfold Obligations.FramesEndWithAnOutcome
  refine ⟨fun s l q o b hb => ?_, fun s e => ?_⟩
  · have hend : endEntry s l q o = tellOwner b q o := by
      rw [hb]
      exact endEntry_eq s l q o
    have hentry : b.entry = s.entry := by rw [hb]; rfl
    have hcard : b.card = s.card := by rw [hb]; rfl
    clear hb
    rw [← hentry, ← hcard, hend]
    unfold tellOwner
    refine ⟨fun ho => ?_, fun p ho => ?_, fun p ho => ?_, fun sd e ho ht => ?_⟩
    · rcases ho with ho | ho <;> rw [ho]
    · rw [ho]
      exact ⟨fun h => displayOutcome_pending h b p, fun h => displayOutcome_kept h b p⟩
    · rw [ho]
      refine ⟨cardOutcome_kept, fun hc => ?_, fun cmd hcmd hc => ?_⟩
      · obtain ⟨hrefused, hfailed, hstopped⟩ := cardOutcome_read hc
        refine ⟨?_, hfailed o, ?_⟩
        · rintro x rfl
          exact hrefused x
        · rintro rfl
          exact hstopped
      · obtain ⟨hrefused, hfailed, hstopped⟩ := cardOutcome_movement hcmd hc
        refine ⟨?_, hfailed o, ?_⟩
        · rintro ⟨x, rfl⟩
          exact hrefused x
        · rintro rfl
          exact hstopped
    · rw [ho, ht]
  · have hends := ends_endEntries (atUnit s e { s.dir[e] with addr := none }) s.dir[e].line (queuedTo s.lines[s.dir[e].line] e)
      .unitGone
    obtain ⟨hcontrol, hpass⟩ := endEntries_queues (atUnit s e { s.dir[e] with addr := none }) s.dir[e].line
      (queuedTo s.lines[s.dir[e].line] e) .unitGone
    have hframe := endEntries_unitGone (queuedTo s.lines[s.dir[e].line] e) (atUnit s e { s.dir[e] with addr := none }) s.dir[e].line
    refine ⟨_, releaseAddress_eq s e, ?_, atUnit_self s e _, fun x hx => ?_, fun k hk => hends.other k hk, fun x hx => ?_⟩
    · rw [hframe]
      rfl
    · exact (atUnit_get s e x _).trans (if_neg (Ne.symm hx))
    · rcases List.mem_append.mp hx with hx | hx
      · exact queuedTo_gone (fun y hy => List.mem_append_left _ hy) (hcontrol ▸ hx)
      · exact queuedTo_gone (fun y hy => List.mem_append_right _ hy) (hpass ▸ hx)

/-! ## The copies of a UNIT_SEND (R105) -/

/-- R105: in the bookkeeping the record of its SEND_DONE names one fan-out. -/
theorem fanout_unique {before after : List Fanout} {f : Fanout} (h : ((before ++ f :: after).map Fanout.sendDone).Nodup) :
    ∀ g ∈ before ++ after, g.sendDone ≠ f.sendDone := by
  rw [List.map_append, List.map_cons] at h
  have hnot := (List.nodup_cons.mp (List.nodup_middle.mp h)).1
  rw [← List.map_append] at hnot
  exact fun g hg hs => hnot (hs ▸ List.mem_map_of_mem hg)

/-- R105: the first copy for an entry that has not ended is marked ended. -/
theorem endTarget_append {e : EntryId} {ta : List Target} {x : Target} (tb : List Target) (hx : x.e = e) (hopen : x.ended = false)
    (ha : ∀ y ∈ ta, y.e = e → y.ended = true) : endTarget e (ta ++ x :: tb) = ta ++ { x with ended := true } :: tb := by
  induction ta with
  | nil =>
    rw [List.nil_append, endTarget, if_pos ⟨hx, by rw [hopen]; rfl⟩]
    rfl
  | cons y ta ih =>
    have hy := ha y (List.mem_cons_self ..)
    rw [List.cons_append, endTarget, if_neg (fun h => by rw [hy h.1] at h; exact Bool.false_ne_true h.2),
      ih fun z hz => ha z (List.mem_cons_of_mem _ hz)]
    rfl

/-- R105: the SEND_DONE record takes the outcome of a copy. -/
theorem appendBody_outcome (p : Pool) (r : RecId) (i : Identity) (o : FrameOutcome) :
    (p.appendBody r (identityBytes i ++ [o.code])).modRec r (fun x => { x with state := .filling }) =
      { p with
        mem := memWriteBody p.mem p.recs[r].chunks p.recs[r].len (identityBytes i ++ [o.code])
        recs := p.recs.set r { p.recs[r] with len := p.recs[r].len + 7, state := .filling } } := by
  have hlen : (identityBytes i ++ [o.code]).length = 7 := by
    rw [List.length_append, identityBytes, length_leBytes]
    rfl
  rw [Pool.appendBody, hlen, Pool.modRec, Pool.modRec]
  dsimp only
  rw [recs_set_get, if_pos rfl, Vector.set_set]

/-- Settles O34: the fan-out and the copy are the ones named, and the last copy completes the SEND_DONE record. -/
theorem copiesAreGathered : Obligations.CopiesAreGathered := by
  unfold Obligations.CopiesAreGathered
  intro s f before after x ta tb o p hfan hnd htargets hopen hta hp
  have hunique := fanout_unique (hfan ▸ hnd)
  have hbefore : ∀ g ∈ before, g.sendDone ≠ f.sendDone := fun g hg => hunique g (List.mem_append_left _ hg)
  have hafter : ∀ g ∈ after, g.sendDone ≠ f.sendDone := fun g hg => hunique g (List.mem_append_right _ hg)
  have hfind : s.fanouts.find? (fun g => g.sendDone == f.sendDone) = some f := by
    rw [hfan]
    exact List.find?_eq_some_iff_append.mpr ⟨beq_self_eq_true _, before, after, rfl, fun g hg => by
      rw [Bool.not_eq_true', beq_eq_false_iff_ne]
      exact hbefore g hg⟩
  have htarget : f.targets.find? (fun t => t.e == x.e && !t.ended) = some x := by
    rw [htargets]
    refine List.find?_eq_some_iff_append.mpr ⟨by rw [hopen, beq_self_eq_true]; rfl, ta, tb, rfl, fun y hy => ?_⟩
    rw [Bool.not_eq_true', Bool.and_eq_false_iff, beq_eq_false_iff_ne, Bool.not_eq_false']
    by_cases h : y.e = x.e
    · exact .inr (hta y hy h)
    · exact .inl h
  let f1 : Fanout := { f with targets := ta ++ { x with ended := true } :: tb, outstanding := f.outstanding - 1 }
  have hmap : s.fanouts.map (fun g => if g.sendDone = f.sendDone then f1 else g) = before ++ f1 :: after := by
    have hkeep : ∀ gs : List Fanout, (∀ g ∈ gs, g.sendDone ≠ f.sendDone) →
        gs.map (fun g => if g.sendDone = f.sendDone then f1 else g) = gs := fun gs h =>
      (List.map_congr_left fun g hg => if_neg (h g hg)).trans (List.map_id gs)
    rw [hfan, List.map_append, List.map_cons, hkeep before hbefore, hkeep after hafter, if_pos rfl]
  have hfilter : (before ++ f1 :: after).filter (fun g => g.sendDone != f.sendDone) = before ++ after := by
    have hkeep : ∀ gs : List Fanout, (∀ g ∈ gs, g.sendDone ≠ f.sendDone) → gs.filter (fun g => g.sendDone != f.sendDone) = gs :=
      fun gs h => List.filter_eq_self.mpr fun g hg => bne_iff_ne.mpr (h g hg)
    rw [List.filter_append, List.filter_cons, hkeep before hbefore, hkeep after hafter, if_neg]
    rw [bne_iff_ne, not_not]
  have hbody : (s.pool.appendBody f.sendDone (identityBytes x.identity ++ [o.code])).modRec f.sendDone
      (fun r => { r with state := .filling }) = p := by
    rw [appendBody_outcome, hp]
    cases o <;> rfl
  have hgather : copyOutcome s f.sendDone x.e o =
      if f.outstanding - 1 = 0 then completeSendDone { s with pool := p, fanouts := before ++ f1 :: after } f1
      else { s with pool := p, fanouts := before ++ f1 :: after } := by
    rw [← hbody, ← hmap]
    unfold copyOutcome
    rw [hfind]
    dsimp only
    rw [htarget]
    dsimp only
    rw [htargets, endTarget_append tb rfl hopen hta]
    rfl
  rw [hgather]
  refine ⟨fun h => if_neg (by omega), fun h => ?_⟩
  rw [if_pos (by omega), completeSendDone]
  dsimp only
  rw [storeNow, State.modPool]
  dsimp only
  rw [hfilter]
  rfl

end Sys2Proof.Machine

/-! # Stuck lines, transmissions and their timers (R33 to R38, R45, R64 to R66): O37, O38, O39 -/

namespace Sys2Proof.Machine

/-! ## The entry that a line names (R62) -/

theorem find?_of_firstEntry {ln : Line} {q : QEntry} {ok : QEntry → Prop} {p : QEntry → Bool} (hp : ∀ x, p x = true ↔ ok x)
    (h : firstEntry ln q ok) : ln.queued.find? p = some q := by
  obtain ⟨before, after, hqueue, hok, hbefore⟩ := h
  refine List.find?_eq_some_iff_append.mpr ⟨(hp q).mpr hok, before, after, hqueue, fun x hx => ?_⟩
  rw [Bool.not_eq_true', ← Bool.not_eq_true, hp]
  exact hbefore x hx

theorem awaitingFrom_of_first {ln : Line} {q : QEntry} {a : Addr} (h : firstEntry ln q fun x => x.awaiting = true ∧ x.dest = a) :
    awaitingFrom ln a = some q :=
  find?_of_firstEntry (fun x => by rw [Bool.and_eq_true, beq_iff_eq]) h

theorem sending_of_first {ln : Line} {q : QEntry} (h : firstEntry ln q fun x => x.inTx = true) :
    ln.queued.find? (fun q => q.inTx) = some q := find?_of_firstEntry (fun _ => Iff.rfl) h

theorem entryNamed_of_first {ln : Line} {q : QEntry} {r : RecId} {a : Addr}
    (h : firstEntry ln q fun x => x.record = r ∧ x.dest = a) : entryNamed ln r a = some q :=
  find?_of_firstEntry (fun x => by rw [Bool.and_eq_true, beq_iff_eq, beq_iff_eq]) h

/-! ## An attempt (R65) -/

/-- R65: an attempt that is not the third: the entry is sent again. -/
theorem countAttempt_again {q : QEntry} (h : q.attempts < 2) (s : State) (l : LineId) (again : QEntry → QEntry) :
    countAttempt s l q again =
      onLine s l (withEntry s.lines[l] q fun y => again { y with attempts := q.attempts + 1 }) :=
  if_neg (by simp only [Config.maxAttempts]; omega)

/-- R65: the third attempt. -/
theorem countAttempt_third {q : QEntry} (h : 2 ≤ q.attempts) (s : State) (l : LineId) (again : QEntry → QEntry) :
    countAttempt s l q again = endEntry s l { q with attempts := q.attempts + 1, inTx := false } .noAck :=
  if_pos (by simp only [Config.maxAttempts]; omega)

/-- R65: an attempt moves the queues and the transmission of its line only. -/
theorem countAttempt_line (s : State) (l : LineId) (q : QEntry) (again : QEntry → QEntry) :
    (countAttempt s l q again).lines[l] = { s.lines[l] with
      control := (countAttempt s l q again).lines[l].control, pass := (countAttempt s l q again).lines[l].pass
      tx := (countAttempt s l q again).lines[l].tx } := by
  by_cases h : q.attempts < 2
  · rw [countAttempt_again h, onLine_self]
    rfl
  · rw [countAttempt_third (by omega)]
    exact (ends_endEntry s l _ _).line

/-! ## A transmission that stops short (R36, R37) -/

section
variable {s : State} {l : LineId} {x : Tx} (h : s.lines[l].tx = some x)
include h

theorem stopTransmission_eq : stopTransmission s l = withdrawn s l x := by
  rw [stopTransmission, cutTransmission_eq, cutPool, h]
  obtain ⟨src, c, a, d⟩ := x
  cases src <;> rfl

end

theorem withdrawn_line (s : State) (l : LineId) (x : Tx) : (withdrawn s l x).lines[l] = s.lines[l].cut :=
  onLine_self s l s.lines[l].cut

/-- R37: the state once a bit error has been counted. -/
theorem bitErrorCounted_eq (s : State) (l : LineId) (x : Tx) :
    countLine (withdrawn s l x) l LineCounters.addBitError = onLine (withdrawn s l x) l
      { (withdrawn s l x).lines[l] with counters := s.lines[l].counters.addBitError } := by
  have hcounters : (withdrawn s l x).lines[l].counters = s.lines[l].counters := by
    rw [withdrawn_line]
    rfl
  rw [← hcounters]
  rfl

section
variable {s : State} {l : LineId} {x : Tx} (h : s.lines[l].tx = some x)
include h

theorem bitErrorAt_none (hno : ∀ q ∈ s.lines[l].control ++ s.lines[l].pass, q.inTx = false) :
    bitErrorAt s l = countLine (withdrawn s l x) l LineCounters.addBitError := by
  have hfind : s.lines[l].queued.find? (fun q => q.inTx) = none := List.find?_eq_none.mpr fun q hq => by
    rw [hno q hq]
    exact Bool.false_ne_true
  rw [bitErrorAt, stopTransmission_eq h, hfind]

theorem bitErrorAt_some {q : QEntry} (hq : firstEntry s.lines[l] q fun y => y.inTx = true) :
    bitErrorAt s l = countAttempt (countLine (withdrawn s l x) l LineCounters.addBitError) l q id := by
  rw [bitErrorAt, stopTransmission_eq h, sending_of_first hq]

end

/-- R37: a bit error leaves the state and the receiver of the line as they were. -/
theorem bitErrorAt_line (s : State) (l : LineId) :
    (bitErrorAt s l).lines[l].state = s.lines[l].state ∧ (bitErrorAt s l).lines[l].rx = s.lines[l].rx := by
  have hcut : (countLine (stopTransmission s l) l LineCounters.addBitError).lines[l] =
      { s.lines[l].cut with counters := s.lines[l].counters.addBitError } := by
    rw [stopTransmission, cutTransmission_eq, countLine_onLine, onLine_self]
    rfl
  unfold bitErrorAt
  dsimp only
  cases s.lines[l].queued.find? fun q => q.inTx with
  | none =>
    rw [hcut]
    exact ⟨rfl, rfl⟩
  | some q =>
    dsimp only
    rw [countAttempt_line, hcut]
    exact ⟨rfl, rfl⟩

/-! ## Stuck (R33, R45) -/

theorem becomeStuck_eq {s b : State} {l : LineId} (hb : (if s.lines[l].tx.isSome then bitErrorAt s l else s) = b) :
    becomeStuck s l = onLine { b with pool := receptionDropped b.pool b.lines[l] } l
      { b.lines[l] with
        rx := .hunting, idle := false, mark := true, latest := b.time.mono
        state := .stuck (b.lines[l].state == .draining)
        counters := b.lines[l].counters.addStuck } := by
  rw [becomeStuck, hb, dropReception_eq, countLine_onLine, modLine_eq_onLine, onLine_self, onLine_onLine, setLineMark,
    modLine_eq_onLine, onLine_self, onLine_onLine]
  rfl

theorem exec_lineIdle_stuck {s t : State} {l : LineId} {d : Bool} (hrun : s.running = true) (htx : s.lines[l].tx = none)
    (hidle : s.lines[l].idle = false) (hheader : ¬ headerOpen s.lines[l]) (hs : s.lines[l].state = .stuck d)
    (ht : becomeIdle s l = t) : exec (.lineIdle l) s = .next (settle t) := by
  have hinside : insideHeader s.lines[l] = false := by
    unfold insideHeader
    split
    case h_1 a d hrx => exact absurd ⟨a, d, hrx⟩ hheader
    case h_2 => rfl
  have hdue : (s.running && idleDue s.lines[l]) = true := by
    rw [idleDue, hrun, htx, hidle, hinside, hs]
    rfl
  rw [exec, execLineIdle, hdue, if_pos rfl, ht]

/-- Settles O37: the line becomes STUCK after its transmission has ended, and leaves STUCK by what it remembers. -/
theorem stuckLineRecovers : Obligations.StuckLineRecovers := by
  unfold Obligations.StuckLineRecovers
  refine fun s l hrun => ⟨fun b hs hnone hsome => ?_, fun htx hidle hheader => ⟨fun hs => ?_, fun hs => ?_⟩⟩
  · have hdue : (s.running && (s.lines[l].state == .active || s.lines[l].state == .draining)) = true := by
      rw [hrun]
      rcases hs with hs | hs <;> rw [hs] <;> rfl
    have hb : (if s.lines[l].tx.isSome then bitErrorAt s l else s) = b := by
      cases htx : s.lines[l].tx with
      | none => exact (hnone htx).symm
      | some x => exact (hsome (by rw [htx]; rfl)).symm
    have hline : b.lines[l].state = s.lines[l].state ∧ b.lines[l].rx = s.lines[l].rx := by
      rw [← hb]
      split
      · exact bitErrorAt_line s l
      · exact ⟨rfl, rfl⟩
    have htime : b.time = s.time := by
      rw [← hb]
      split
      · exact (calm_bitErrorAt s l).toQuiet.time
      · rfl
    obtain ⟨hstate, hrx⟩ := hline
    have hstuck := becomeStuck_eq hb
    rw [exec, execLineStuck, hdue, if_pos rfl, hstuck, htime, hstate]
    refine next_settle ?_
    cases hx : s.lines[l].rx with
    | inFrame f =>
      rw [withoutReception_eq (hrx.trans hx)]
      rfl
    | hunting | completing | abandoned =>
      rw [receptionDropped_none fun f => by rw [hrx, hx]; exact Rx.noConfusion]
      rfl
  · refine exec_lineIdle_stuck hrun htx hidle hheader hs ?_
    rw [becomeIdle, hs]
    dsimp only
    rw [setLineMark, modLine_eq_onLine, modLine_eq_onLine, onLine_self, onLine_onLine]
    rfl
  · refine exec_lineIdle_stuck hrun htx hidle hheader hs ?_
    rw [becomeIdle, hs]

/-! ## The ends of a transmission (R34, R36, R37, R64) -/

theorem txBit_zero (x : Tx) (bit : Nat) : txBit x 0 bit = sentBit (x.chars.getD 0 0) bit := rfl

section
variable {s : State} {l : LineId} {x : Tx} (hrun : s.running = true) (h : s.lines[l].tx = some x)
include hrun h

theorem exec_lostArbitration {bit : Nat} (hbit : bit ≤ 10) (hsent : sentBit (x.chars.getD 0 0) bit = true) :
    exec (.lostArbitration l bit) s = .next (settle (arbitrationLost s l x)) := by
  have hlost : (s.running && isLostArbitration x 0 bit) = true := by
    rw [isLostArbitration, txBit_zero, hrun, hsent, decide_eq_true hbit]
    rfl
  rw [exec, execLostArbitration, h]
  dsimp only
  rw [hlost, if_pos rfl]

theorem exec_bitError {chr bit : Nat} (hchr : chr < x.chars.length) (hbit : bit ≤ 10)
    (hsent : chr ≠ 0 ∨ sentBit (x.chars.getD 0 0) bit = false) :
    exec (.bitError l chr bit) s = .next (settle (bitErrorAt s l)) := by
  have hkept : isLostArbitration x chr bit = false := by
    rw [isLostArbitration, decide_eq_true hbit]
    rcases hsent with hchr | hsent
    · rw [beq_eq_false_iff_ne.mpr hchr]
      rfl
    · by_cases hchr : chr = 0
      · rw [hchr, txBit_zero, hsent]
        rfl
      · rw [beq_eq_false_iff_ne.mpr hchr]
        rfl
  have herror : (s.running && isBitError x chr bit) = true := by
    rw [isBitError, hkept, hrun, decide_eq_true hchr, decide_eq_true hbit]
    rfl
  rw [exec, execBitError, h]
  dsimp only
  rw [herror, if_pos rfl]

end

section
variable {s : State} {l : LineId} {x : Tx} (h : s.lines[l].tx = some x)
include h

/-- R36: the part withdraws, and a reception that its transmission cut short is discarded. -/
theorem arbitrationLost_eq : arbitrationLost s l x = onLine
    { withdrawn s l x with pool := receptionDropped (withdrawn s l x).pool s.lines[l] } l
    { (withdrawn s l x).lines[l] with
      rx := .completing x.startedAt x.inDrain
      counters := s.lines[l].counters.addArbLoss } := by
  have hdrop : receptionDropped (withdrawn s l x).pool (withdrawn s l x).lines[l] =
      receptionDropped (withdrawn s l x).pool s.lines[l] := by
    rw [withdrawn_line]
    rfl
  rw [arbitrationLost, stopTransmission_eq h, dropReception_eq, countLine_onLine, setRx_onLine, hdrop, withdrawn_line]
  rfl

theorem transmissionDone_detached {r : RecId} (hsrc : x.src = .detached r) :
    transmissionDone s l = onLine { s with pool := s.pool.dropRef r } l { s.lines[l] with tx := none } := by
  rw [transmissionDone, h]
  dsimp only
  rw [hsrc]
  rfl

theorem transmissionDone_queued {q : QEntry} (hsrc : x.src = .queued) (hq : firstEntry s.lines[l] q fun y => y.inTx = true) :
    transmissionDone s l = entrySent (onLine s l { s.lines[l] with tx := none }) l q := by
  have hfind : ({ s.lines[l] with tx := none } : Line).queued.find? (fun q => q.inTx) = some q := sending_of_first hq
  dsimp only at hfind
  rw [transmissionDone, h]
  dsimp only
  rw [hsrc]
  dsimp only
  rw [modLine_eq_onLine, onLine_self]
  rw [hfind]

end

/-- R64: an acknowledged frame that has been sent awaits its ACK. -/
theorem entrySent_awaits {s : State} {l : LineId} {q : QEntry} {k : FrameKind} (hk : s.pool.recs[q.record].kind = .frame k)
    (hack : k = .display ∨ k = .cardCommand ∨ k = .unitCommand) (ht : q.target ≠ none) :
    entrySent s l q = onLine s l (withEntry s.lines[l] q fun y =>
      { y with sent := true, isOpen := true, awaiting := true, inTx := false, ackTimer := some s.profile.ackTimeout }) := by
  have hrec : recFrameKind s.pool.recs[q.record] = k := by rw [recFrameKind, hk]
  have hcond : (acknowledgedKind (recFrameKind s.pool.recs[q.record]) && q.target.isSome) = true := by
    rw [hrec, Option.isSome_iff_ne_none.mpr ht]
    obtain rfl | rfl | rfl := hack <;> rfl
  rw [entrySent, hcond, if_pos rfl]
  rfl

/-- R64: another frame that has been sent ends DELIVERED. -/
theorem entrySent_delivered {s : State} {l : LineId} {q : QEntry} {k : FrameKind} (hk : s.pool.recs[q.record].kind = .frame k)
    (h : (k ≠ .display ∧ k ≠ .cardCommand ∧ k ≠ .unitCommand) ∨ q.target = none) :
    entrySent s l q = endEntry s l { q with inTx := false, sent := true } .delivered := by
  have hrec : recFrameKind s.pool.recs[q.record] = k := by rw [recFrameKind, hk]
  have hcond : (acknowledgedKind (recFrameKind s.pool.recs[q.record]) && q.target.isSome) = false := by
    rw [hrec]
    rcases h with ⟨hd, hc, hu⟩ | ht
    · cases k with
      | display => exact absurd rfl hd
      | cardCommand => exact absurd rfl hc
      | unitCommand => exact absurd rfl hu
      | _ => rfl
    · rw [ht]
      exact Bool.and_false _
  rw [entrySent, hcond, if_neg Bool.false_ne_true]

/-- Settles O38: a transmission stops short by its own withdrawal or a bit error, or ends in full by its source. -/
theorem transmissionsEnd : Obligations.TransmissionsEnd := by
  unfold Obligations.TransmissionsEnd
  intro s l x hrun h
  have hdone := exec_frameTransmitted hrun h
  refine ⟨fun bit hbit hsent => ?_, fun chr bit w hchr hbit hsent hw => ⟨fun hno => ?_, fun q hq => ⟨fun ha => ?_, fun ha => ?_⟩⟩,
    fun hsrc => ?_, fun r hsrc => ?_, fun q k hsrc hq hk => ⟨fun ⟨hack, ht⟩ => ?_, fun hno => ?_⟩⟩
  · exact (exec_lostArbitration hrun h hbit hsent).trans (next_settle (arbitrationLost_eq h))
  · exact (exec_bitError hrun h hchr hbit hsent).trans
      (next_settle ((bitErrorAt_none h hno).trans ((bitErrorCounted_eq s l x).trans hw.symm)))
  · have herror := bitErrorAt_some h hq
    rw [(bitErrorCounted_eq s l x).trans hw.symm, countAttempt_again ha] at herror
    exact (exec_bitError hrun h hchr hbit hsent).trans (next_settle herror)
  · have herror := bitErrorAt_some h hq
    rw [(bitErrorCounted_eq s l x).trans hw.symm, countAttempt_third ha] at herror
    exact (exec_bitError hrun h hchr hbit hsent).trans (next_settle herror)
  · exact hdone.trans (next_settle (transmissionDone_ack h hsrc))
  · exact hdone.trans (next_settle (transmissionDone_detached h hsrc))
  · refine hdone.trans (next_settle ((transmissionDone_queued h hsrc hq).trans ?_))
    rw [entrySent_awaits (s := onLine s l { s.lines[l] with tx := none }) hk hack ht, onLine_onLine, onLine_self]
    rfl
  · exact hdone.trans (next_settle ((transmissionDone_queued h hsrc hq).trans
      (entrySent_delivered (s := onLine s l { s.lines[l] with tx := none }) hk hno)))

/-! ## The timers of a queue entry (R65, R66) -/

theorem exec_ackTimeout {s : State} {l : LineId} {q : QEntry} {dest : Addr} (hrun : s.running = true)
    (hq : firstEntry s.lines[l] q fun y => y.awaiting = true ∧ y.dest = dest) (htimer : q.ackTimer = some 0) :
    exec (.ackTimeout l dest) s = .next (settle (ackExpires s l q)) := by
  have hdue : (s.running && timerDue q.ackTimer) = true := by
    rw [hrun, htimer]
    rfl
  rw [exec, execAckTimeout, awaitingFrom_of_first hq]
  dsimp only
  rw [hdue, if_pos rfl]

theorem ackExpires_drains {s : State} {l : LineId} (q : QEntry) (hs : s.lines[l].state = .draining ∨ s.lines[l].state = .stuck true) :
    ackExpires s l q = endEntry s l { q with attempts := q.attempts + 1 } .lineStopped := by
  rw [ackExpires]
  rcases hs with hs | hs <;> rw [hs]

theorem ackExpires_counts {s : State} {l : LineId} (q : QEntry) (hd : s.lines[l].state ≠ .draining)
    (hstuck : s.lines[l].state ≠ .stuck true) :
    ackExpires s l q = countAttempt s l q fun x => { x with awaiting := false, ackTimer := none } := by
  unfold ackExpires
  split
  case h_1 hs => exact absurd hs hd
  case h_2 hs => exact absurd hs hstuck
  case h_3 => rfl

/-- Settles O39: the timeout of the entry that awaits is an attempt or, on a line that drains, its end. -/
theorem queuedFramesTimeOut : Obligations.QueuedFramesTimeOut := by
  unfold Obligations.QueuedFramesTimeOut
  refine fun s l q hrun => ⟨fun dest hq htimer => ⟨fun hs => ?_, fun hd hstuck => ⟨fun ha => ?_, fun ha => ?_⟩⟩, fun hq htimer => ?_⟩
  · exact (exec_ackTimeout hrun hq htimer).trans (next_settle (ackExpires_drains q hs))
  · exact (exec_ackTimeout hrun hq htimer).trans
      (next_settle ((ackExpires_counts q hd hstuck).trans (countAttempt_again ha s l _)))
  · exact (exec_ackTimeout hrun hq htimer).trans
      (next_settle ((ackExpires_counts q hd hstuck).trans (countAttempt_third ha s l _)))
  · have hdue : (s.running && timerDue q.limitTimer) = true := by
      rw [hrun, htimer]
      rfl
    rw [exec, execQueueLimitExpiry, entryNamed_of_first hq]
    dsimp only
    rw [hdue, if_pos rfl]

end Sys2Proof.Machine

/-! # The timers of a unit (R80, R82): O41 -/

namespace Sys2Proof.Machine

/-! ## Frames -/

theorem offerControl_frame (s : State) (l : LineId) (k : FrameKind) (dest : Addr) (target : Option EntryId) (owner : Owner)
    (body : List Byte) :
    (offerControl s l k dest target owner body).1 =
      { s with
        pool := (offerControl s l k dest target owner body).1.pool, lines := (offerControl s l k dest target owner body).1.lines } := by
  rcases offerControl_cases s l k dest target owner body with ⟨-, h⟩ | ⟨-, r, p, h⟩ | ⟨-, p, h⟩
  · rw [h]
  · rw [h]
    rfl
  · rw [h]

theorem offerGrant_frame (s : State) (e : EntryId) :
    offerGrant s e = { s with pool := (offerGrant s e).pool, lines := (offerGrant s e).lines } := offerControl_frame s _ _ _ _ _ _

theorem releaseAddress_dir (s : State) (e : EntryId) :
    (releaseAddress s e).dir =
      s.dir.set e { s.dir[e] with addr := none, grantTimer := none, silenceTimer := none, lostTimer := none } := by
  rw [releaseAddress_eq]

/-- R73: the entry itself once its address has been released. -/
theorem releaseAddress_self (s : State) (e : EntryId) :
    (releaseAddress s e).dir[e] = { s.dir[e] with addr := none, grantTimer := none, silenceTimer := none, lostTimer := none } := by
  rw [releaseAddress_dir]
  exact atUnit_self s e _

/-! ## The grant timer (R80) -/

/-- R80: the GRANT is offered again. -/
theorem grantExpires_again {s : State} {e : EntryId} {d : DirEntry}
    (hd : d = { s.dir[e] with grantTimer := none, grantAttempts := s.dir[e].grantAttempts + 1 }) (h : s.dir[e].grantAttempts < 3) :
    grantExpires s e = atUnit (offerGrant (atUnit s e d) e) e { d with grantTimer := some s.profile.grantTimeout } := by
  have hlt : (atUnit s e { s.dir[e] with grantTimer := none }).dir[e].grantAttempts < Config.maxGrants := by
    rw [atUnit_self]
    exact h
  have hcount : (atUnit s e { s.dir[e] with grantTimer := none }).modDir e (fun d => { d with grantAttempts := d.grantAttempts + 1 }) =
      atUnit s e d := by
    rw [modDir_eq_atUnit, atUnit_self, atUnit_atUnit, hd]
  have hgrant : (offerGrant (atUnit s e d) e).modDir e
      (fun x => { x with grantTimer := armMs (offerGrant (atUnit s e d) e).profile.grantTimeout }) =
      atUnit (offerGrant (atUnit s e d) e) e { d with grantTimer := some s.profile.grantTimeout } := by
    rw [offerGrant_frame, modDir_eq_atUnit]
    dsimp only
    rw [atUnit_self]
    rfl
  rw [← hgrant, ← hcount]
  exact if_pos hlt

/-- R80: the grant cycle fails. -/
theorem grantExpires_fails {s v : State} {e : EntryId}
    (hv : v = releaseAddress (atUnit s e { s.dir[e] with grantTimer := none }) e) (h : 3 ≤ s.dir[e].grantAttempts) :
    (s.dir[e].established = true → grantExpires s e = marked (atUnit v e { v.dir[e] with state := .lost }) e) ∧
      (s.dir[e].established = false →
        grantExpires s e = marked (atUnit v e { v.dir[e] with state := .free, pos := none, pinned := false }) e) := by
  have hge : ¬ (atUnit s e { s.dir[e] with grantTimer := none }).dir[e].grantAttempts < Config.maxGrants := by
    rw [atUnit_self]
    exact Nat.not_lt.mpr h
  have hestablished : v.dir[e].established = s.dir[e].established := by
    rw [hv, releaseAddress_self, atUnit_self]
  have hfails : grantExpires s e = grantFails (atUnit s e { s.dir[e] with grantTimer := none }) e := if_neg hge
  rw [hfails, grantFails, ← hv, hestablished]
  refine ⟨fun he => ?_, fun he => ?_⟩
  · rw [he, if_pos rfl]
    rfl
  · rw [he, if_neg Bool.false_ne_true, unbindEntry, modDir_eq_atUnit, modDir_eq_atUnit, atUnit_self, atUnit_atUnit]
    rfl

/-! ## The silence and lost timers (R82) -/

theorem entryLost_eq (s : State) (e : EntryId) :
    entryLost s e = marked (sessionsEnded (releaseAddress (atUnit s e { s.dir[e] with state := .lost, lostTimer := none }) e)
      s.dir[e].kind s.dir[e].pos .unitLost) e := by
  obtain ⟨hkind, hpos⟩ := releaseAddress_binding (atUnit s e { s.dir[e] with state := .lost, lostTimer := none }) e
  rw [atUnit_self] at hkind hpos
  rw [entryLost, modDir_eq_atUnit]
  dsimp only
  rw [setDirMark_eq, endUnitSessions_eq, hkind, hpos]

/-- Settles O41: each timer by the state of its entry. -/
theorem unitTimersSupervise : Obligations.UnitTimersSupervise := by
  unfold Obligations.UnitTimersSupervise
  refine fun s e hrun => ⟨fun hs ht => ?_, fun hs ht => ?_, fun hs ht => ?_⟩
  · have hexec : exec (.grantTimerExpiry e) s = .next (settle (grantExpires s e)) := by
      have hdue : (s.running && (s.dir[e].state == .pending && timerDue s.dir[e].grantTimer)) = true := by
        rw [hrun, hs, ht]
        rfl
      rw [exec, execGrantTimerExpiry, hdue, if_pos rfl]
    refine ⟨fun d hd h => hexec.trans (next_settle (grantExpires_again hd h)), fun v hv h => ?_⟩
    obtain ⟨hlost, hfree⟩ := grantExpires_fails hv h
    exact ⟨fun he => hexec.trans (next_settle (hlost he)), fun he => hexec.trans (next_settle (hfree he))⟩
  · have hdue : (s.running && (s.dir[e].state == .active && timerDue s.dir[e].silenceTimer)) = true := by
      rw [hrun, hs, ht]
      rfl
    rw [exec, execSilenceTimerExpiry, hdue, if_pos rfl, entrySilent, setDirMark, modDir_eq_atUnit, modDir_eq_atUnit, atUnit_self,
      atUnit_atUnit]
    rfl
  · have hdue : (s.running && (s.dir[e].state == .silent && timerDue s.dir[e].lostTimer)) = true := by
      rw [hrun, hs, ht]
      rfl
    rw [exec, execLostTimerExpiry, hdue, if_pos rfl, entryLost_eq]

end Sys2Proof.Machine

/-! # STATUS and ACK (R57, R58, R67, R81, R148): O36 -/

namespace Sys2Proof.Machine

/-! ## The body of a STATUS (R57) -/

theorem statusOf_keypad (cond : Condition) : statusOf [2, cond.code] = some (.keypad, cond, none) := by cases cond <;> rfl

theorem statusOf_reader (cond : Condition) (present : Bool) :
    statusOf [1, cond.code, if present then 1 else 0] = some (.reader, cond, some present) := by
  cases cond <;> cases present <;> rfl

theorem unitKind_ofCode {b : Byte} {k : UnitKind} (h : UnitKind.ofCode b = some k) : b = k.code := by
  unfold UnitKind.ofCode at h
  split at h
  · next hb =>
    cases h
    exact hb
  · split at h
    · next hb =>
      cases h
      exact hb
    · cases h

theorem condition_ofCode {b : Byte} {c : Condition} (h : Condition.ofCode b = some c) : b.toNat ≤ 1 := by
  unfold Condition.ofCode at h
  split at h
  · next hb =>
    subst hb
    decide
  · split at h
    · next hb =>
      subst hb
      decide
    · cases h

/-- R57: a body that is taken as a STATUS has the bytes of one. -/
theorem statusOf_bytes {body : List Byte} {x : UnitKind × Condition × Option Bool} (h : statusOf body = some x) :
    ∃ c : Byte, c.toNat ≤ 1 ∧ (body = [2, c] ∨ ∃ y : Byte, y.toNat ≤ 1 ∧ body = [1, c, y]) := by
  unfold statusOf at h
  split at h
  · next k c =>
    split at h
    · next hk hc => exact ⟨c, condition_ofCode hc, .inl (by rw [unitKind_ofCode hk]; rfl)⟩
    · cases h
  · next k c p =>
    split at h
    · next hk hc =>
      have hp : p.toNat ≤ 1 := by
        by_cases h0 : p = 0
        · rw [h0]
          decide
        · by_cases h1 : p = 1
          · rw [h1]
            decide
          · rw [if_neg h0, if_neg h1] at h
            cases h
      exact ⟨c, condition_ofCode hc, .inr ⟨p, hp, by rw [unitKind_ofCode hk]; rfl⟩⟩
    · cases h
  · cases h

/-! ## A STATUS is taken (R81, R148) -/

theorem heardEntry_of_entryAt {s : State} {l : LineId} {a : Addr} {e : EntryId} (h : entryAt s l a = some e)
    (hs : s.lines[l].state ≠ .stopped) : heardEntry s e = heardFrom s e := by
  have hheard := heard_some h hs
  rw [heard, h] at hheard
  exact hheard

/-- R81: hearing an entry leaves its kind, its binding and its condition. -/
theorem afterHeard_unit (s : State) (e : EntryId) :
    (afterHeard s e).kind = s.dir[e].kind ∧ (afterHeard s e).pos = s.dir[e].pos ∧
      (afterHeard s e).condition = s.dir[e].condition := by
  unfold afterHeard
  dsimp only
  cases s.dir[e].state <;> exact ⟨rfl, rfl, rfl⟩

theorem statusCondition_otherKind {s : State} {l : LineId} {e : EntryId} {k : UnitKind} (c : Condition) (h : s.dir[e].kind ≠ k) :
    statusCondition s l e k c = strayCounted s l := if_pos h

/-- R81: the condition that a STATUS gives to its entry. -/
theorem statusCondition_ownKind {s : State} {e : EntryId} {k : UnitKind} (l : LineId) (c : Condition) (h : s.dir[e].kind = k) :
    statusCondition s l e k c =
      if s.dir[e].condition = c then s else marked (atUnit s e { s.dir[e] with condition := c }) e := if_neg (not_not.mpr h)

section
variable {s t : State} {l : LineId} {src : Addr} {body : List Byte} {k : UnitKind} {c : Condition} {card : Option Bool}

theorem statusFrame_malformed (h : statusOf body = none) : statusFrame s l src body = strayCounted s l := by
  rw [statusFrame, h]
  exact strayCounted_eq s l

variable (h : statusOf body = some (k, c, card))
include h

theorem statusFrame_unheld (he : entryAt s l src = none) : statusFrame s l src body = strayFrame s l src := by
  rw [statusFrame, h]
  dsimp only
  rw [he]

variable {e : EntryId} (he : entryAt s l src = some e) (ht : statusCondition (heardEntry s e) l e k c = t)
include he ht

theorem statusFrame_unit (hno : card = none ∨ t.dir[e].kind = .keypad ∨ t.dir[e].pos = none) : statusFrame s l src body = t := by
  rw [statusFrame, h]
  dsimp only
  rw [he]
  dsimp only
  rw [ht]
  rcases hno with hc | hk | hp
  · rw [hc]
  · rw [hk]
    cases card <;> rfl
  · rw [hp]
    cases card <;> cases t.dir[e].kind <;> rfl

theorem statusFrame_card {present : Bool} {p : Pos} (hc : card = some present) (hk : t.dir[e].kind = .reader)
    (hp : t.dir[e].pos = some p) : statusFrame s l src body = cardStatusReport t p present := by
  rw [statusFrame, h]
  dsimp only
  rw [he]
  dsimp only
  rw [ht, hc, hk, hp]

end

/-- R148: a report to a card context in FAULT. -/
theorem cardStatusReport_cases (s : State) (p : Pos) (present : Bool) :
    (s.card[p].state ≠ .fault → cardStatusReport s p present = s) ∧
      (s.card[p].state = .fault →
        (present = false → cardStatusReport s p present = cardTo s p .empty .status) ∧
        (present = true → s.time.attended = true → cardStatusReport s p present = cardTo s p .present .status) ∧
        (present = true → s.time.attended = false → cardStatusReport s p present = ownCommand s p .eject .ejecting .status)) := by
  unfold cardStatusReport
  refine ⟨fun h => if_pos h, fun h => ?_⟩
  rw [if_neg (not_not.mpr h)]
  refine ⟨fun hp => ?_, fun hp ha => ?_, fun hp ha => ?_⟩
  · rw [hp]
    exact if_pos rfl
  · rw [hp, ha]
    exact (if_neg (by decide)).trans (if_pos rfl)
  · rw [hp, ha]
    exact (if_neg (by decide)).trans (if_neg (by decide))

section
variable {s : State} {l : LineId} {f : RxFrame} {c : RawChar} (h : settles s l f c .status)
include h

/-- R57: a STATUS is settled. -/
theorem exec_unitStatus {t : State} (ht : statusFrame (checkTaken s l c) l (headSource f.head) f.buf = t) :
    exec (.unitStatus l c) s = .next (settle t) := by
  obtain ⟨-, hk, -, hd, hdr⟩ := id h
  have hgood : settleGood (checkTaken s l c) l (tookChar f c) = statusFrame (checkTaken s l c) l (headSource f.head) f.buf := by
    rw [settleGood, rxKind_tookChar, tookChar_discarded, tookChar_inDrain, hd, hk, hdr, tookChar_head, tookChar_buf]
    cases (tookChar f c).dest <;> rfl
  exact (exec_settles h).trans (next_settle (hgood.trans ht))

end

/-! ## An ACK is taken (R58, R67) -/

theorem firstEntry_of_find? {ln : Line} {q : QEntry} {ok : QEntry → Prop} {p : QEntry → Bool} (hp : ∀ x, p x = true ↔ ok x)
    (h : ln.queued.find? p = some q) : firstEntry ln q ok := by
  obtain ⟨hq, before, after, hqueue, hbefore⟩ := List.find?_eq_some_iff_append.mp h
  refine ⟨before, after, hqueue, (hp q).mp hq, fun x hx hok => ?_⟩
  have := hbefore x hx
  rw [(hp x).mpr hok] at this
  exact Bool.false_ne_true this

section
variable {s : State} {l : LineId} {src : Addr} {seq : Bool}

theorem ackFrame_unawaited (body : List Byte) (h : awaitingFrom s.lines[l] src = none) :
    ackFrame s l src seq body = heard (strayCounted s l) l src := by
  rw [ackFrame, h]
  rfl

variable {q : QEntry} (h : awaitingFrom s.lines[l] src = some q)
include h

theorem ackFrame_delivered (hbit : q.lastBit = seq) (x : Byte) :
    ackFrame s l src seq [0, x] = heard (endEntry s l q .delivered) l src := by
  rw [ackFrame, h]
  dsimp only
  rw [if_neg (not_not.mpr hbit), if_pos rfl]

theorem ackFrame_refused (hbit : q.lastBit = seq) (x : Byte) :
    ackFrame s l src seq [1, x] = heard (endEntry s l q (.refused x)) l src := by
  rw [ackFrame, h]
  dsimp only
  rw [if_neg (not_not.mpr hbit), if_neg (by decide), if_pos rfl]

theorem ackFrame_mismatched {body : List Byte} (hno : q.lastBit ≠ seq ∨ ∀ x : Byte, body ≠ [0, x] ∧ body ≠ [1, x]) :
    ackFrame s l src seq body = heard (strayCounted s l) l src := by
  rw [ackFrame, h]
  dsimp only
  by_cases hbit : q.lastBit = seq
  · have hbody := hno.resolve_left (not_not.mpr hbit)
    rw [if_neg (not_not.mpr hbit)]
    split
    · next st reason =>
      rw [if_neg (fun h => (hbody reason).1 (by rw [h])), if_neg (fun h => (hbody reason).2 (by rw [h]))]
      rfl
    · rfl
  · rw [if_pos hbit]
    rfl

end

theorem entryAt_congr {s t : State} (l : LineId) (a : Addr) (h : ∀ x : EntryId, t.dir[x] = { s.dir[x] with outBit := t.dir[x].outBit }) :
    entryAt t l a = entryAt s l a := by
  have hholds : ∀ x : EntryId, holdsAt t.dir[x] l a = holdsAt s.dir[x] l a := fun x => by
    rw [h x]
    rfl
  unfold entryAt
  simp only [hholds]

section
variable {s : State} {l : LineId} {c : RawChar} {e : EntryId}

/-- R81: the entry of a STATUS once it is heard, its kind that of the STATUS. -/
theorem statusCondition_heard {k : UnitKind} (cond : Condition) (hk : s.dir[e].kind = k) :
    statusCondition (heardFrom (checkTaken s l c) e) l e k cond =
      if s.dir[e].condition = cond then heardFrom (checkTaken s l c) e
      else marked (atUnit (checkTaken s l c) e { afterHeard s e with condition := cond }) e := by
  obtain ⟨hkind, -, hcond⟩ := afterHeard_unit (checkTaken s l c) e
  have hself := heardFrom_self (checkTaken s l c) e
  have hunit : atUnit (heardFrom (checkTaken s l c) e) e { afterHeard (checkTaken s l c) e with condition := cond } =
      atUnit (checkTaken s l c) e { afterHeard s e with condition := cond } :=
    atUnit_atUnit (checkTaken s l c) e (afterHeard (checkTaken s l c) e) _
  rw [statusCondition_ownKind l cond (by rw [hself, hkind]; exact hk), hself, hcond, hunit]
  rfl

/-- R81: a STATUS moves neither the kind nor the binding of its entry, and no context. -/
theorem statusHeard_unit {v : State} {cond : Condition}
    (hv : v = if s.dir[e].condition = cond then heardFrom (checkTaken s l c) e
      else marked (atUnit (checkTaken s l c) e { afterHeard s e with condition := cond }) e) :
    v.dir[e].kind = s.dir[e].kind ∧ v.dir[e].pos = s.dir[e].pos ∧ v.card = s.card ∧ v.time = s.time := by
  obtain ⟨hkind, hpos, -⟩ := afterHeard_unit s e
  by_cases h : s.dir[e].condition = cond
  · rw [if_pos h] at hv
    rw [hv, heardFrom_self]
    exact ⟨hkind, hpos, rfl, rfl⟩
  · rw [if_neg h] at hv
    have hself : v.dir[e] = { afterHeard s e with condition := cond, mark := true, latest := s.time.mono } := by
      rw [hv, marked, atUnit_self]
      exact atUnit_self _ e _
    rw [hself, hv]
    exact ⟨hkind, hpos, rfl, rfl⟩

/-- R58: what an ACK does before its source is heard. -/
theorem exec_unitAck {f : RxFrame} {u : State} {src : Addr} (hends : endsFrame s l f c) (hk : rxKind f = some .ack)
    (hgood : wholeAndGood f c) (hd : f.discarded = false) (hsrc : src = headSource f.head)
    (hu : ackFrame (checkTaken s l c) l src (secondSeq f.second) f.buf = heard u l src)
    (hdir : ∀ x : EntryId, u.dir[x] = { s.dir[x] with outBit := u.dir[x].outBit }) (hstate : u.lines[l].state = s.lines[l].state) :
    (entryAt s l src = none → exec (.unitAck l c) s = .next (settle u)) ∧
      ∀ e : EntryId, entryAt s l src = some e → exec (.unitAck l c) s = .next (settle (heardFrom u e)) := by
  subst hsrc
  have hlive : u.lines[l].state ≠ .stopped := by
    have hline := checkTaken_notStopped hends
    rw [checkTaken_line] at hline
    rw [hstate]
    exact hline
  have hsettle : settleGood (checkTaken s l c) l (tookChar f c) = heard u l (headSource f.head) := by
    rw [settleGood_ack (by rw [tookChar_discarded, hd]) (by rw [rxKind_tookChar, hk]), tookChar_head, tookChar_second, tookChar_buf, hu]
  have hexec : exec (.unitAck l c) s = .next (settle (heard u l (headSource f.head))) :=
    (exec_closes hends hk).trans (next_settle ((takeCheck_wholeAndGood hgood).trans hsettle))
  have hsource := entryAt_congr l (headSource f.head) hdir
  exact ⟨fun he => hexec.trans (next_settle (heard_none (hsource.trans he))),
    fun e he => hexec.trans (next_settle (heard_some (hsource.trans he) hlive))⟩

theorem awaitingFrom_checkTaken (a : Addr) : awaitingFrom (checkTaken s l c).lines[l] a = awaitingFrom s.lines[l] a := by
  rw [checkTaken_line]
  rfl

theorem endEntry_state (s : State) (l : LineId) (q : QEntry) (o : FrameOutcome) :
    (endEntry s l q o).lines[l].state = s.lines[l].state := by
  rw [(ends_endEntry s l q o).line]

end

/-- Settles O36: a STATUS by its body, its source and its card context; an ACK by the frame that awaits it. -/
theorem statusAndAckAreTaken : Obligations.StatusAndAckAreTaken := by
  unfold Obligations.StatusAndAckAreTaken
  refine ⟨fun s l f c h => ⟨fun hbad => ?_, fun k cond present hbody => ?_⟩, fun s l f c u hends hk hgood hd hfirst hnone => ?_⟩
  · refine exec_unitStatus h (statusFrame_malformed (Option.eq_none_iff_forall_ne_some.mpr fun x hx => ?_))
    obtain ⟨b, hb, h2 | ⟨y, hy, h1⟩⟩ := statusOf_bytes hx
    · exact (hbad b hb).1 h2
    · exact (hbad b hb).2 y hy h1
  · obtain ⟨hends, -⟩ := id h
    have hlive := checkTaken_notStopped hends
    obtain ⟨card, hstatus, hcard⟩ : ∃ card, statusOf f.buf = some (k, cond, card) ∧
        (k = .keypad ∧ card = none ∨ k = .reader ∧ card = some present) := by
      rcases hbody with ⟨rfl, hb⟩ | ⟨rfl, hb⟩
      · exact ⟨none, by rw [hb, statusOf_keypad], .inl ⟨rfl, rfl⟩⟩
      · exact ⟨some present, by rw [hb, statusOf_reader], .inr ⟨rfl, rfl⟩⟩
    refine ⟨fun he => exec_unitStatus h (statusFrame_unheld hstatus he), fun e he => ?_⟩
    have hentry := heardEntry_of_entryAt (s := checkTaken s l c) he hlive
    refine ⟨fun hne => ?_, fun v hown hv => ?_⟩
    · obtain ⟨hkind, -⟩ := afterHeard_unit (checkTaken s l c) e
      have hkind' : (heardFrom (checkTaken s l c) e).dir[e].kind = s.dir[e].kind := by
        rw [heardFrom_self]
        exact hkind
      have hcondition := statusCondition_otherKind (l := l) cond (by rw [hkind']; exact hne)
      rw [← hentry] at hcondition
      refine exec_unitStatus h ((statusFrame_unit (s := checkTaken s l c) hstatus he hcondition ?_).trans (by rw [hentry]))
      rcases hcard with ⟨-, hc⟩ | ⟨rfl, -⟩
      · exact .inl hc
      · refine .inr (.inl ?_)
        have hkeypad : s.dir[e].kind = .keypad := by
          cases hx : s.dir[e].kind with
          | keypad => rfl
          | reader => exact absurd hx hne
        rw [hentry]
        exact hkind'.trans hkeypad
    · have hcondition : statusCondition (heardEntry (checkTaken s l c) e) l e k cond = v := by
        rw [hentry, hv]
        exact statusCondition_heard cond hown
      obtain ⟨hkind, hpos, hcards, htime⟩ := statusHeard_unit hv
      refine ⟨fun hno => exec_unitStatus h (statusFrame_unit (s := checkTaken s l c) hstatus he hcondition ?_), fun p hk hp => ?_⟩
      · rcases hno with rfl | hno
        · rcases hcard with ⟨-, hc⟩ | ⟨hk, -⟩
          · exact .inl hc
          · cases hk
        · exact .inr (.inr (hpos.trans hno))
      · obtain ⟨-, hc⟩ := hcard.resolve_left fun hx => by rw [hk] at hx; cases hx.1
        have hreport := exec_unitStatus h (statusFrame_card (s := checkTaken s l c) hstatus he hcondition hc (hkind.trans (hown.trans hk))
          (hpos.trans hp))
        obtain ⟨hkept, hfault⟩ := cardStatusReport_cases v p present
        rw [hcards, htime] at hfault
        rw [hcards] at hkept
        refine ⟨fun hs => hreport.trans (next_settle (hkept hs)), fun hs => ?_⟩
        obtain ⟨hempty, hpresent, heject⟩ := hfault hs
        exact ⟨fun hp => hreport.trans (next_settle (hempty hp)), fun hp ha => hreport.trans (next_settle (hpresent hp ha)),
          fun hp ha => hreport.trans (next_settle (heject hp ha))⟩
  · have hended : ∀ (q : QEntry) (o : FrameOutcome), u = endEntry (checkTaken s l c) l q o →
        (∀ x : EntryId, u.dir[x] = { s.dir[x] with outBit := u.dir[x].outBit }) ∧ u.lines[l].state = s.lines[l].state :=
      fun q o hu => by
        refine ⟨fun x => ?_, ?_⟩
        · rw [hu]
          exact (calm_endEntry (checkTaken s l c) l q o).dir x
        · rw [hu, endEntry_state, checkTaken_line]
          rfl
    have hstray : u = strayCounted (checkTaken s l c) l →
        (∀ x : EntryId, u.dir[x] = { s.dir[x] with outBit := u.dir[x].outBit }) ∧ u.lines[l].state = s.lines[l].state := fun hu => by
      refine ⟨fun x => by rw [hu]; rfl, ?_⟩
      rw [hu, strayCounted_line, checkTaken_line]
      rfl
    have hgo := fun hu (h : (∀ x : EntryId, u.dir[x] = { s.dir[x] with outBit := u.dir[x].outBit }) ∧
      u.lines[l].state = s.lines[l].state) => exec_unitAck hends hk hgood hd rfl hu h.1 h.2
    cases hq : awaitingFrom s.lines[l] (headSource f.head) with
    | none =>
      have hu := hnone fun q hq' hok => by
        have := List.find?_eq_none.mp hq q hq'
        rw [Bool.and_eq_true, beq_iff_eq] at this
        exact this hok
      refine hgo ?_ (hstray hu)
      rw [hu]
      exact ackFrame_unawaited f.buf ((awaitingFrom_checkTaken _).trans hq)
    | some q =>
      have hq' := (awaitingFrom_checkTaken (s := s) (l := l) (c := c) (headSource f.head)).trans hq
      obtain ⟨hdelivered, hrefused, hother⟩ := hfirst q (firstEntry_of_find? (fun x => by rw [Bool.and_eq_true, beq_iff_eq]) hq)
      by_cases hno : q.lastBit ≠ secondSeq f.second ∨ ∀ x : Byte, f.buf ≠ [0, x] ∧ f.buf ≠ [1, x]
      · have hu := hother hno
        refine hgo ?_ (hstray hu)
        rw [hu]
        exact ackFrame_mismatched hq' hno
      · obtain ⟨hbit, hbody⟩ := not_or.mp hno
        have hbit' := not_not.mp hbit
        obtain ⟨x, hx⟩ := not_forall.mp hbody
        rcases not_and_or.mp hx with hx | hx
        · have hx := not_not.mp hx
          have hu := hdelivered x hbit' hx
          refine hgo ?_ (hended q _ hu)
          rw [hu, hx]
          exact ackFrame_delivered hq' hbit' x
        · have hx := not_not.mp hx
          have hu := hrefused x hbit' hx
          refine hgo ?_ (hended q _ hu)
          rw [hu, hx]
          exact ackFrame_refused hq' hbit' x

end Sys2Proof.Machine

/-! # HELLO (R57, R72, R74 to R79): O35 -/

namespace Sys2Proof.Machine

/-! ## The addresses of a line (R72) -/

theorem entryAt_isNone_iff (s : State) (l : LineId) (a : Addr) : (entryAt s l a).isNone = true ↔ addressFree s l a := by
  refine ⟨fun h e => entryAt_none h e, fun h => Option.isNone_iff_eq_none.mpr (List.find?_eq_none.mpr fun e _ he => ?_)⟩
  obtain ⟨hp, hl, ha⟩ := (holdsAt_iff _ _ _).mp he
  exact h e hp hl ha

/-- R72: the addresses that a unit can be granted. -/
def grantable : List Addr := [1, 2, 3, 4, 5, 6, 7, 8, 9, 10, 11, 12, 13, 14]

theorem mem_grantable : ∀ a : Addr, a ∈ grantable ↔ a ≠ 0 ∧ a ≠ 15 := by decide

theorem grantable_ascending : grantable.Pairwise (· < ·) := by decide

theorem lowestFreeAddr_of_lowestFree {s : State} {l : LineId} {a : Addr} (h : lowestFree s l a) : lowestFreeAddr s l = some a := by
  obtain ⟨h0, h15, hfree, hlow⟩ := h
  obtain ⟨before, after, hall⟩ := List.append_of_mem ((mem_grantable a).mpr ⟨h0, h15⟩)
  refine List.find?_eq_some_iff_append.mpr ⟨(entryAt_isNone_iff s l a).mpr hfree, before, after, hall, fun b hb => ?_⟩
  have hlt : b < a := by
    have hpair := grantable_ascending
    rw [hall] at hpair
    exact (List.pairwise_append.mp hpair).2.2 b hb a (List.mem_cons_self ..)
  have hmem : b ∈ grantable := by
    rw [hall]
    exact List.mem_append_left _ hb
  rw [Bool.not_eq_true', ← Bool.not_eq_true, entryAt_isNone_iff]
  exact hlow b ((mem_grantable b).mp hmem).1 hlt

theorem lowestFreeAddr_of_full {s : State} {l : LineId} (h : lineFull s l) : lowestFreeAddr s l = none :=
  List.find?_eq_none.mpr fun a ha => by
    rw [entryAt_isNone_iff]
    obtain ⟨h0, h15⟩ := (mem_grantable a).mp ha
    exact h a h0 h15

/-- R72: the free addresses depend on state, line and address of the entries. -/
theorem addressFree_congr {s t : State} (h : ∀ x : EntryId, (cores t x).state = (cores s x).state ∧
    (cores t x).line = (cores s x).line ∧ (cores t x).addr = (cores s x).addr) (l : LineId) (a : Addr) :
    addressFree t l a ↔ addressFree s l a := by
  have hstate : ∀ x : EntryId, t.dir[x].state = s.dir[x].state := fun x => (h x).1
  have hline : ∀ x : EntryId, t.dir[x].line = s.dir[x].line := fun x => (h x).2.1
  have haddr : ∀ x : EntryId, t.dir[x].addr = s.dir[x].addr := fun x => (h x).2.2
  unfold addressFree DirEntry.present
  simp only [hstate, hline, haddr]

theorem lowestFree_congr {s t : State} {l : LineId} (h : ∀ a : Addr, addressFree t l a ↔ addressFree s l a) (a : Addr) :
    lowestFree t l a ↔ lowestFree s l a := by
  unfold lowestFree
  simp only [h]

theorem lineFull_congr {s t : State} {l : LineId} (h : ∀ a : Addr, addressFree t l a ↔ addressFree s l a) :
    lineFull t l ↔ lineFull s l := by
  unfold lineFull
  simp only [h]

/-! ## The entry of a new identity (R75) -/

/-- R75, R160: how long ago an entry was heard. -/
def unheardFor (s : State) (e : EntryId) : Nat := elapsed s.now s.dir[e].lastHeard

/-- R75: of the entry found so far and the next, the one that a new identity would rather displace. -/
def olderOf (s : State) (best : Option EntryId) (e : EntryId) : Option EntryId :=
  if s.dir[e].state = .lost ∧ !s.dir[e].pinned then
    match best with
    | none => some e
    | some b => if unheardFor s b < unheardFor s e then some e else some b
  else best

theorem oldestLost_eq (s : State) : oldestLost s = allEntries.foldl (olderOf s) none := rfl

section
variable {s : State} {e : EntryId}

theorem olderOf_skip (h : ¬ (s.dir[e].state = .lost ∧ s.dir[e].pinned = false)) (best : Option EntryId) : olderOf s best e = best :=
  if_neg fun hx => h ⟨hx.1, by simpa using hx.2⟩

theorem olderOf_first (h : s.dir[e].state = .lost) (hp : s.dir[e].pinned = false) : olderOf s none e = some e :=
  if_pos ⟨h, by rw [hp]; rfl⟩

theorem olderOf_next (h : s.dir[e].state = .lost) (hp : s.dir[e].pinned = false) (b : EntryId) :
    olderOf s (some b) e = if unheardFor s b < unheardFor s e then some e else some b :=
  if_pos ⟨h, by rw [hp]; rfl⟩

/-- R75: an entry stays the choice while none later was unheard for longer. -/
theorem foldl_olderOf_keep (es : List EntryId)
    (h : ∀ x ∈ es, s.dir[x].state = .lost → s.dir[x].pinned = false → ¬ unheardFor s e < unheardFor s x) :
    es.foldl (olderOf s) (some e) = some e := by
  induction es with
  | nil => rfl
  | cons x es ih =>
    have hstep : olderOf s (some e) x = some e := by
      by_cases hx : s.dir[x].state = .lost ∧ s.dir[x].pinned = false
      · rw [olderOf_next hx.1 hx.2, if_neg (h x (List.mem_cons_self ..) hx.1 hx.2)]
      · exact olderOf_skip hx _
    rw [List.foldl_cons, hstep]
    exact ih fun y hy => h y (List.mem_cons_of_mem _ hy)

/-- R75: while every entry was heard later than `e`, so was the choice. -/
theorem foldl_olderOf_younger (es : List EntryId)
    (h : ∀ x ∈ es, s.dir[x].state = .lost → s.dir[x].pinned = false → unheardFor s x < unheardFor s e) (best : Option EntryId)
    (hb : ∀ b, best = some b → unheardFor s b < unheardFor s e) :
    ∀ b, es.foldl (olderOf s) best = some b → unheardFor s b < unheardFor s e := by
  induction es generalizing best with
  | nil => exact hb
  | cons x es ih =>
    refine ih (fun y hy => h y (List.mem_cons_of_mem _ hy)) (olderOf s best x) fun b hx => ?_
    by_cases hr : s.dir[x].state = .lost ∧ s.dir[x].pinned = false
    · have hyounger := h x (List.mem_cons_self ..) hr.1 hr.2
      cases best with
      | none =>
        rw [olderOf_first hr.1 hr.2] at hx
        cases hx
        exact hyounger
      | some c =>
        rw [olderOf_next hr.1 hr.2] at hx
        split at hx
        · cases hx
          exact hyounger
        · exact hb b hx
    · rw [olderOf_skip hr] at hx
      exact hb b hx

end

theorem oldestLost_of_oldest {s : State} {e : EntryId} (hl : s.dir[e].state = .lost) (hp : s.dir[e].pinned = false)
    (hold : ∀ x : EntryId, x ≠ e → s.dir[x].state = .lost → s.dir[x].pinned = false →
      unheardFor s x < unheardFor s e ∨ (unheardFor s x = unheardFor s e ∧ e < x)) : oldestLost s = some e := by
  obtain ⟨before, after, hall⟩ := List.append_of_mem (mem_allEntries e)
  have hpair := allEntries_ascending
  rw [hall] at hpair
  have hbefore : ∀ x ∈ before, x < e := fun x hx => (List.pairwise_append.mp hpair).2.2 x hx e (List.mem_cons_self ..)
  have hafter : ∀ x ∈ after, e < x := (List.pairwise_cons.mp (List.pairwise_append.mp hpair).2.1).1
  have hyounger := foldl_olderOf_younger (s := s) (e := e) before (fun x hx hxl hxp => by
    rcases hold x (hbefore x hx).ne hxl hxp with h | ⟨-, h⟩
    · exact h
    · exact absurd h (not_lt.mpr (hbefore x hx).le)) none (fun b hb => by cases hb)
  have hstep : olderOf s (before.foldl (olderOf s) none) e = some e := by
    cases hb : before.foldl (olderOf s) none with
    | none => exact olderOf_first hl hp
    | some b => rw [olderOf_next hl hp, if_pos (hyounger b hb)]
  rw [oldestLost_eq, hall, List.foldl_append, List.foldl_cons, hstep]
  refine foldl_olderOf_keep after fun x hx hxl hxp hlt => ?_
  rcases hold x (hafter x hx).ne' hxl hxp with h | ⟨h, -⟩
  · exact absurd hlt (lt_asymm h)
  · exact absurd hlt (by rw [h]; exact lt_irrefl _)

theorem oldestLost_none {s : State} (h : ∀ e : EntryId, s.dir[e].state = .lost → s.dir[e].pinned = true) : oldestLost s = none := by
  have hskip : ∀ es : List EntryId, es.foldl (olderOf s) none = none := fun es => by
    induction es with
    | nil => rfl
    | cons x es ih =>
      rw [List.foldl_cons, olderOf_skip fun hx => by rw [h x hx.1] at hx; exact Bool.noConfusion hx.2]
      exact ih
  exact hskip allEntries

theorem chooseEntry_taken {s : State} {e : EntryId} (h : takenForNew s e) : chooseEntry s = some e := by
  unfold chooseEntry
  rcases h with ⟨hfree, hlow⟩ | ⟨hall, hl, hp, hold⟩
  · rw [(find?_ascending allEntries_ascending mem_allEntries (p := fun x => s.dir[x].state == .free)).mpr
      ⟨beq_iff_eq.mpr hfree, fun x hx => beq_eq_false_iff_ne.mpr (hlow x hx)⟩]
  · rw [(find?_all_none mem_allEntries (p := fun x => s.dir[x].state == .free)).mpr fun x => beq_eq_false_iff_ne.mpr (hall x)]
    exact oldestLost_of_oldest hl hp hold

theorem chooseEntry_none {s : State} (h : ∀ e : EntryId, s.dir[e].state ≠ .free ∧ (s.dir[e].state = .lost → s.dir[e].pinned = true)) :
    chooseEntry s = none := by
  unfold chooseEntry
  rw [(find?_all_none mem_allEntries (p := fun x => s.dir[x].state == .free)).mpr fun x => beq_eq_false_iff_ne.mpr (h x).1]
  exact oldestLost_none fun e => (h e).2

/-! ## A grant (R72, R80) -/

theorem grantAddress_eq (s : State) (e : EntryId) (l : LineId) (a : Addr) : grantAddress s e l a = regranted s e l a := by
  rw [grantAddress, modDir_eq_atUnit, regranted]
  dsimp only
  rw [modDir_eq_atUnit, offerGrant_frame]
  dsimp only
  rw [atUnit_self]
  rfl

theorem regranted_dir (s : State) (e : EntryId) (l : LineId) (a : Addr) :
    (regranted s e l a).dir = s.dir.set e
      { s.dir[e] with
        line := l, addr := some a, outBit := false, inBit := none, grantAttempts := 1, state := .pending
        grantTimer := some s.profile.grantTimeout } := by
  rw [regranted]
  dsimp only
  rw [offerGrant_frame]
  exact Vector.set_set ..

theorem regranted_self (s : State) (e : EntryId) (l : LineId) (a : Addr) :
    (regranted s e l a).dir[e] = { s.dir[e] with
      line := l, addr := some a, outBit := false, inBit := none, grantAttempts := 1, state := .pending
      grantTimer := some s.profile.grantTimeout } := by
  rw [regranted_dir]
  exact atUnit_self s e _

theorem regranted_other (s : State) {e x : EntryId} (h : e ≠ x) (l : LineId) (a : Addr) :
    (regranted s e l a).dir[x] = s.dir[x] := by
  rw [regranted_dir]
  exact (atUnit_get s e x _).trans (if_neg h)

theorem regranted_profile (s : State) (e : EntryId) (l : LineId) (a : Addr) : (regranted s e l a).profile = s.profile := by
  rw [regranted]
  dsimp only
  rw [offerGrant_frame]
  rfl

/-! ## The pin check (R76) -/

theorem marked_self (s : State) (e : EntryId) : (marked s e).dir[e] = { s.dir[e] with mark := true, latest := s.time.mono } :=
  atUnit_self s e _

/-- R76: the position that a pin gives to an identity. -/
def pinFor (i : Identity) : Option (Identity × Pos) → Option Pos
  | some (j, p) => if j = i then some p else none
  | none => none

theorem pinnedPos_eq (prof : Profile) (i : Identity) : pinnedPos prof i = prof.pins.toList.findSome? (pinFor i) := rfl

theorem pinFor_eq_none {i : Identity} {x : Option (Identity × Pos)} (h : ∀ p : Pos, x ≠ some (i, p)) : pinFor i x = none := by
  cases x with
  | none => rfl
  | some y =>
    obtain ⟨j, p⟩ := y
    exact if_neg fun hj => h p (by rw [hj])

theorem pinnedPos_first {prof : Profile} {i : Identity} {p : Pos} (h : firstPin prof i p) : pinnedPos prof i = some p := by
  obtain ⟨before, after, hpins, hbefore⟩ := h
  have hnone : before.findSome? (pinFor i) = none := List.findSome?_eq_none_iff.mpr fun x hx =>
    pinFor_eq_none fun q hq => hbefore q (hq ▸ hx)
  have hself : pinFor i (some (i, p)) = some p := if_pos rfl
  rw [pinnedPos_eq, hpins, List.findSome?_append, hnone, List.findSome?_cons, hself]
  rfl

theorem pinnedPos_none {prof : Profile} {i : Identity} (h : ∀ p : Pos, some (i, p) ∉ prof.pins.toList) : pinnedPos prof i = none :=
  List.findSome?_eq_none_iff.mpr fun _ hx => pinFor_eq_none fun q hq => h q (hq ▸ hx)

section
variable {s : State} {e : EntryId}

theorem pinCheck_unpinned (h : pinnedPos s.profile s.dir[e].identity = none) : pinCheck s e = s := by
  rw [pinCheck, h]

variable {p : Pos} (h : pinnedPos s.profile s.dir[e].identity = some p)
include h

theorem pinCheck_empty (hslot : slotOf s s.dir[e].kind p = none) :
    pinCheck s e = atUnit s e { s.dir[e] with pos := some p, pinned := true } := by
  rw [pinCheck, h]
  dsimp only
  rw [hslot]
  rfl

variable {x : EntryId} (hslot : slotOf s s.dir[e].kind p = some x)
include hslot

theorem pinCheck_held (hp : s.dir[x].pinned = true) : pinCheck s e = s := by
  rw [pinCheck, h]
  dsimp only
  rw [hslot]
  dsimp only
  rw [hp, if_pos rfl]

/-- R76: an unpinned unit gives way to the pin. -/
theorem pinCheck_displaces (hp : s.dir[x].pinned = false) : ∃ t : State,
    t = sessionsEnded (marked (atUnit s x { s.dir[x] with pos := none, pinned := false }) x) s.dir[x].kind (some p) .displaced ∧
      pinCheck s e = atUnit t e { t.dir[e] with pos := some p, pinned := true } := by
  refine ⟨_, rfl, ?_⟩
  have hkind : (marked (atUnit s x { s.dir[x] with pos := none, pinned := false }) x).dir[x].kind = s.dir[x].kind := by
    rw [marked_self, atUnit_self]
  rw [pinCheck, h]
  dsimp only
  rw [hslot]
  dsimp only
  rw [hp, if_neg Bool.false_ne_true, unbindEntry, modDir_eq_atUnit, setDirMark_eq, hkind, endUnitSessions_eq]
  rfl

end

/-! ## A new identity (R75, R76) -/

section
variable {s : State} {l : LineId} {i : Identity} {k : UnitKind}

theorem helloNew_directoryFull (h : chooseEntry s = none) : helloNew s l i k = offerRefuse s l i 1 := by
  rw [helloNew, h]

theorem helloNew_lineFull {e : EntryId} (h : chooseEntry s = some e) (hl : lineFull s l) : helloNew s l i k = offerRefuse s l i 2 := by
  rw [helloNew, h]
  dsimp only
  rw [lowestFreeAddr_of_full hl]

/-- R75: a new identity takes its entry and its address, and the pin check follows. -/
theorem helloNew_granted {e : EntryId} {a : Addr} {g : State} (h : chooseEntry s = some e) (ha : lowestFree s l a)
    (hg : g = regranted (atUnit s e { s.dir[e] with
      identity := i, kind := k, pos := none, pinned := false, established := false, condition := .ok
      lastHeard := s.time.mono }) e l a) :
    helloNew s l i k = marked (pinCheck g e) e ∧ g.profile = s.profile ∧ g.dir[e].identity = i ∧ g.dir[e].kind = k ∧
      g.dir[e].pos = none ∧ ∀ x : EntryId, x ≠ e → g.dir[x] = s.dir[x] := by
  refine ⟨?_, ?_, ?_, ?_, ?_, fun x hx => ?_⟩
  · rw [helloNew, h]
    dsimp only
    rw [lowestFreeAddr_of_lowestFree ha]
    dsimp only
    rw [modDir_eq_atUnit, grantAddress_eq, setDirMark_eq, hg]
    rfl
  · rw [hg, regranted_profile]
    rfl
  · rw [hg, regranted_self, atUnit_self]
  · rw [hg, regranted_self, atUnit_self]
  · rw [hg, regranted_self, atUnit_self]
  · rw [hg, regranted_other _ (Ne.symm hx), atUnit_get, if_neg (Ne.symm hx)]

end

theorem slotOf_inSlot {s : State} {k : UnitKind} {p : Pos} {x : EntryId} (h : slotOf s k p = some x) : inSlot s.dir[x] k p = true :=
  List.find?_some (p := fun e : EntryId => inSlot s.dir[e] k p) h

theorem slotOf_eq_none {s : State} {k : UnitKind} {p : Pos} (h : ∀ e : EntryId, inSlot s.dir[e] k p = false) : slotOf s k p = none :=
  List.find?_eq_none.mpr fun e _ he => by
    rw [h e] at he
    exact Bool.false_ne_true he

/-! ## A known identity (R74, R77, R78) -/

section
variable {s v : State} {e : EntryId} {k : UnitKind}

/-- R74: the entry of a known identity takes the kind that the HELLO names. -/
theorem helloKind_eq
    (hsame : s.dir[e].kind = k ∨ s.dir[e].pos = none → v = atUnit s e { s.dir[e] with kind := k, lastHeard := s.time.mono })
    (hother : ∀ p : Pos, s.dir[e].kind ≠ k → s.dir[e].pos = some p → ∃ w : State,
      w = sessionsEnded (marked (atUnit s e { s.dir[e] with pos := none, pinned := false }) e) s.dir[e].kind (some p) .unitRestarted ∧
      v = atUnit w e { w.dir[e] with kind := k, lastHeard := s.time.mono }) : helloKind s e k = v := by
  by_cases hk : s.dir[e].kind = k
  · rw [hsame (.inl hk), helloKind]
    dsimp only
    rw [if_neg fun h => h.1 hk]
    rfl
  · cases hp : s.dir[e].pos with
    | none =>
      rw [hsame (.inr hp), helloKind]
      dsimp only
      rw [if_neg fun h => by rw [hp] at h; exact Bool.false_ne_true h.2]
      rfl
    | some p =>
      obtain ⟨w, hw, rfl⟩ := hother p hk hp
      have htime : w.now = s.time.mono := by
        rw [hw, ← endUnitSessions_eq]
        have := (calm_endUnitSessions (marked (atUnit s e { s.dir[e] with pos := none, pinned := false }) e) s.dir[e].kind (some p)
          .unitRestarted).toQuiet.time
        rw [State.now, this]
        rfl
      have hends : endUnitSessions (setDirMark (unbindEntry s e) e) s.dir[e].kind s.dir[e].pos .unitRestarted = w := by
        rw [endUnitSessions_eq, hp, hw]
        rfl
      rw [helloKind]
      dsimp only
      rw [if_pos ⟨hk, by rw [hp]; rfl⟩, hends, htime]
      rfl

variable (hv : helloKind s e k = v)
include hv

/-- R74: that changes the state, line, address and identity of no entry. -/
theorem helloKind_fields (x : EntryId) : v.dir[x].state = s.dir[x].state ∧ v.dir[x].line = s.dir[x].line ∧
    v.dir[x].addr = s.dir[x].addr ∧ v.dir[x].identity = s.dir[x].identity := by
  obtain ⟨hstate, hline, haddr⟩ := helloKind_core s e k x
  have hid : (cores (helloKind s e k) x).identity = (cores s x).identity := by
    rw [cores_helloKind]
    by_cases hx : x = e
    · subst hx
      rw [Function.update_self]
      split <;> rfl
    · rw [Function.update_of_ne hx]
  rw [hv] at hstate hline haddr hid
  exact ⟨hstate, hline, haddr, hid⟩

theorem helloKind_kind : v.dir[e].kind = k := by
  have hkind : (cores (helloKind s e k) e).kind = k := by
    rw [cores_helloKind, Function.update_self]
    split <;> rfl
  rw [hv] at hkind
  exact hkind

theorem helloKind_addressFree (l : LineId) (a : Addr) : addressFree v l a ↔ addressFree s l a :=
  addressFree_congr (fun x => by
    rw [← hv]
    exact helloKind_core s e k x) l a

end

/-- R71, R77, R78: a unit that is granted an address anew, its sessions ended. -/
theorem regrant_ends (t : State) (e : EntryId) (l : LineId) (a : Addr) (c : Cause) :
    setDirMark (endUnitSessions (grantAddress t e l a) (grantAddress t e l a).dir[e].kind (grantAddress t e l a).dir[e].pos c) e =
      marked (sessionsEnded (regranted t e l a) t.dir[e].kind t.dir[e].pos c) e := by
  rw [grantAddress_eq, endUnitSessions_eq, setDirMark_eq, regranted_self]

section
variable {v : State} {e : EntryId} {l : LineId} (hl : v.dir[e].line = l)
include hl

theorem helloRestart_held {a : Addr} (ha : v.dir[e].addr = some a) : helloRestart v e =
    marked (sessionsEnded (regranted (releaseAddress v e) e l a) v.dir[e].kind v.dir[e].pos .unitRestarted) e := by
  obtain ⟨hkind, hpos⟩ := releaseAddress_binding v e
  rw [helloRestart, hl, ha]
  dsimp only
  rw [Option.isSome_some, if_pos rfl, regrant_ends, hkind, hpos]

theorem helloRestart_released {a : Addr} (ha : v.dir[e].addr = none) (hfree : lowestFree v l a) : helloRestart v e =
    marked (sessionsEnded (regranted v e l a) v.dir[e].kind v.dir[e].pos .unitRestarted) e := by
  rw [helloRestart, hl, ha]
  dsimp only
  rw [lowestFreeAddr_of_lowestFree hfree]
  dsimp only
  rw [Option.isSome_none, if_neg Bool.false_ne_true, regrant_ends]

theorem helloRestart_full (ha : v.dir[e].addr = none) (hfull : lineFull v l) :
    helloRestart v e = offerRefuse v l v.dir[e].identity 2 := by
  rw [helloRestart, hl, ha]
  dsimp only
  rw [lowestFreeAddr_of_full hfull]

end

theorem helloMove_eq (v : State) (e : EntryId) (l : LineId) (a : Addr) : helloMove v e l a =
    marked (sessionsEnded (regranted (if v.dir[e].addr = none then v else releaseAddress v e) e l a) v.dir[e].kind v.dir[e].pos
      .unitMoved) e := by
  obtain ⟨hkind, hpos⟩ := releaseAddress_binding v e
  rw [helloMove, regrant_ends]
  cases v.dir[e].addr with
  | none => rfl
  | some b =>
    rw [Option.isSome_some, if_pos rfl, if_neg (Option.some_ne_none b), hkind, hpos]

/-! ## HELLO (R57, R74) -/

section
variable {s : State} {l : LineId} {src : Addr} {body : List Byte}

theorem helloFrame_malformed (h : body.length ≠ 7 ∨ (byteAt body 6 ≠ 1 ∧ byteAt body 6 ≠ 2) ∨ src ≠ 15) :
    helloFrame s l src body = strayCounted s l := by
  unfold helloFrame
  by_cases hlen : body.length = 7
  · rw [if_neg (not_not.mpr hlen)]
    by_cases hsrc : src = 15
    · obtain ⟨h1, h2⟩ := (h.resolve_left (not_not.mpr hlen)).resolve_right (not_not.mpr hsrc)
      rw [UnitKind.ofCode, if_neg h1, if_neg h2]
      rfl
    · cases UnitKind.ofCode (byteAt body 6) with
      | none => rfl
      | some k => exact if_neg hsrc
  · rw [if_pos hlen]
    rfl

theorem helloFrame_valid {k : UnitKind} (hlen : body.length = 7) (hsrc : src = 15) (hk : byteAt body 6 = k.code) :
    helloFrame s l src body = helloValid s l (identityAt body 0) k := by
  unfold helloFrame
  rw [if_neg (not_not.mpr hlen), hk]
  cases k <;> exact if_pos hsrc

/-- R74: a HELLO is settled. -/
theorem exec_hello {f : RxFrame} {c : RawChar} {t : State} (h : settles s l f c .hello)
    (ht : helloFrame (checkTaken s l c) l (headSource f.head) f.buf = t) : exec (.hello l c) s = .next (settle t) := by
  obtain ⟨-, hk, -, hd, hdr⟩ := id h
  have hgood : settleGood (checkTaken s l c) l (tookChar f c) = helloFrame (checkTaken s l c) l (headSource f.head) f.buf := by
    rw [settleGood, rxKind_tookChar, tookChar_discarded, tookChar_inDrain, hd, hk, hdr, tookChar_head, tookChar_buf]
    cases (tookChar f c).dest <;> rfl
  exact (exec_settles h).trans (next_settle (hgood.trans ht))

variable {i : Identity} {k : UnitKind}

theorem helloValid_new (h : holderOf s i = none) : helloValid s l i k = helloNew s l i k := by
  rw [helloValid, h]

variable {e : EntryId} {v : State} (h : holderOf s i = some e) (hv : helloKind s e k = v)
include h

theorem helloValid_noAddress (hl : s.dir[e].line ≠ l) (hfull : lineFull s l) : helloValid s l i k = offerRefuse s l i 2 := by
  rw [helloValid, h]
  dsimp only
  rw [if_pos hl, lowestFreeAddr_of_full hfull]

include hv

theorem helloValid_moves {a : Addr} (hl : s.dir[e].line ≠ l) (ha : lowestFree s l a) : helloValid s l i k = helloMove v e l a := by
  rw [helloValid, h]
  dsimp only
  rw [if_pos hl, lowestFreeAddr_of_lowestFree ha]
  dsimp only
  rw [hv]

theorem helloValid_pending (hl : s.dir[e].line = l) (hs : s.dir[e].state = .pending) : helloValid s l i k = offerGrant v e := by
  rw [helloValid, h]
  dsimp only
  rw [if_neg (not_not.mpr hl), if_pos hs, hv]

theorem helloValid_restarts (hl : s.dir[e].line = l) (hs : s.dir[e].state ≠ .pending) : helloValid s l i k = helloRestart v e := by
  rw [helloValid, h]
  dsimp only
  rw [if_neg (not_not.mpr hl), if_neg hs, hv]

end

/-- R75, R76: an identity that no entry holds. -/
theorem helloNew_pinned {u g : State} {l : LineId} {i : Identity} {k : UnitKind} {e : EntryId} {a : Addr} (he : takenForNew u e)
    (ha : lowestFree u l a) (hg : g = regranted (atUnit u e { u.dir[e] with
      identity := i, kind := k, pos := none, pinned := false, established := false, condition := .ok
      lastHeard := u.time.mono }) e l a) :
    ((∀ p : Pos, some (i, p) ∉ u.profile.pins.toList) → helloNew u l i k = marked g e) ∧
      ∀ p : Pos, firstPin u.profile i p →
        ((∀ x : EntryId, x ≠ e → u.dir[x].state ≠ .free → u.dir[x].kind = k → u.dir[x].pos ≠ some p) →
          helloNew u l i k = marked (atUnit g e { g.dir[e] with pos := some p, pinned := true }) e) ∧
        ∀ x : EntryId, x ≠ e → slotOf g k p = some x →
          (u.dir[x].pinned = true → helloNew u l i k = marked g e) ∧
          (u.dir[x].pinned = false → ∃ h : State,
            h = sessionsEnded (marked (atUnit g x { g.dir[x] with pos := none, pinned := false }) x) k (some p) .displaced ∧
            helloNew u l i k = marked (atUnit h e { h.dir[e] with pos := some p, pinned := true }) e) := by
  obtain ⟨hnew, hprofile, hid, hkind, hpos, hothers⟩ := helloNew_granted (chooseEntry_taken he) ha hg
  rw [hnew]
  refine ⟨fun hno => ?_, fun p hp => ⟨fun hslot => ?_, fun x hx hslot => ⟨fun hpin => ?_, fun hpin => ?_⟩⟩⟩
  · rw [pinCheck_unpinned (by rw [hprofile, hid]; exact pinnedPos_none hno)]
  · have hfirst : pinnedPos g.profile g.dir[e].identity = some p := by rw [hprofile, hid]; exact pinnedPos_first hp
    rw [pinCheck_empty hfirst (slotOf_eq_none fun x => ?_)]
    rw [← Bool.not_eq_true, inSlot_iff, hkind]
    rintro ⟨hs, hk, hpx⟩
    by_cases hx : x = e
    · rw [hx, hpos] at hpx
      cases hpx
    · rw [hothers x hx] at hs hk hpx
      exact hslot x hx hs hk hpx
  · have hfirst : pinnedPos g.profile g.dir[e].identity = some p := by rw [hprofile, hid]; exact pinnedPos_first hp
    rw [pinCheck_held hfirst (by rw [hkind]; exact hslot) (by rw [hothers x hx]; exact hpin)]
  · have hfirst : pinnedPos g.profile g.dir[e].identity = some p := by rw [hprofile, hid]; exact pinnedPos_first hp
    obtain ⟨-, hkx, -⟩ := inSlot_iff.mp (slotOf_inSlot hslot)
    obtain ⟨t, ht, hcheck⟩ := pinCheck_displaces hfirst (by rw [hkind]; exact hslot) (by rw [hothers x hx]; exact hpin)
    rw [hkx] at ht
    exact ⟨t, ht, by rw [hcheck]⟩

/-- R77, R78: an identity that an entry holds. -/
theorem helloValid_known {u v : State} {l : LineId} {i : Identity} {k : UnitKind} {e : EntryId} (he : holds u e i)
    (hv : helloKind u e k = v) :
    (u.dir[e].line = l → u.dir[e].state = .pending → helloValid u l i k = offerGrant v e) ∧
      (u.dir[e].line = l → u.dir[e].state ≠ .pending →
        (∀ a : Addr, u.dir[e].addr = some a → helloValid u l i k =
          marked (sessionsEnded (regranted (releaseAddress v e) e l a) k v.dir[e].pos .unitRestarted) e) ∧
        (∀ a : Addr, u.dir[e].addr = none → lowestFree u l a → helloValid u l i k =
          marked (sessionsEnded (regranted v e l a) k v.dir[e].pos .unitRestarted) e) ∧
        (u.dir[e].addr = none → lineFull u l → helloValid u l i k = offerRefuse v l i 2)) ∧
      ∀ a : Addr, u.dir[e].line ≠ l → lowestFree u l a → helloValid u l i k = marked (sessionsEnded
        (regranted (if u.dir[e].addr = none then v else releaseAddress v e) e l a) k v.dir[e].pos .unitMoved) e := by
  have hholder := holderOf_of_holds he
  obtain ⟨-, hid, -⟩ := he
  obtain ⟨-, hline, haddr, hid'⟩ := helloKind_fields hv e
  have hkind := helloKind_kind hv
  have hfree := helloKind_addressFree hv l
  refine ⟨fun hl hs => helloValid_pending hholder hv hl hs, fun hl hs => ⟨fun a ha => ?_, fun a ha hf => ?_, fun ha hf => ?_⟩,
    fun a hl hf => ?_⟩
  · rw [helloValid_restarts hholder hv hl hs, helloRestart_held (hline.trans hl) (haddr.trans ha), hkind]
  · rw [helloValid_restarts hholder hv hl hs,
      helloRestart_released (hline.trans hl) (haddr.trans ha) ((lowestFree_congr hfree a).mpr hf), hkind]
  · rw [helloValid_restarts hholder hv hl hs,
      helloRestart_full (hline.trans hl) (haddr.trans ha) ((lineFull_congr hfree).mpr hf), hid', hid]
  · rw [helloValid_moves hholder hv hl hf, helloMove_eq, hkind, haddr]

/-- Settles O35: a HELLO by its form, then by the entry that holds its identity or is taken for it. -/
theorem helloIsAnswered : Obligations.HelloIsAnswered := by
  unfold Obligations.HelloIsAnswered
  refine ⟨fun s l f c h => ⟨fun hbad => exec_hello h (helloFrame_malformed hbad), fun u i k hu hlen hsrc hk hi => ?_⟩,
    fun s e => ?_, fun s l i reason => frameOffered_offerControl ..⟩
  · subst hu hi
    have hexec : ∀ {t : State}, helloValid (checkTaken s l c) l (identityAt f.buf 0) k = t → exec (.hello l c) s = .next (settle t) :=
      fun ht => exec_hello h ((helloFrame_valid hlen hsrc hk).trans ht)
    refine ⟨fun hno => ?_, fun e he => ⟨fun hl hfull => ?_, fun v hsame hother => ?_⟩⟩
    · have hnew := helloValid_new (s := checkTaken s l c) (l := l) (k := k) (holderOf_of_none hno)
      refine ⟨fun hfull => hexec (hnew.trans (helloNew_directoryFull (chooseEntry_none hfull))),
        fun e he hfull => hexec (hnew.trans (helloNew_lineFull (chooseEntry_taken (s := checkTaken s l c) he) hfull)),
        fun e a g he ha hg => ?_⟩
      obtain ⟨hunpinned, hpinned⟩ := helloNew_pinned (u := checkTaken s l c) he ha hg
      refine ⟨fun hp => hexec (hnew.trans (hunpinned hp)), fun p hp => ?_⟩
      obtain ⟨hempty, hheld⟩ := hpinned p hp
      refine ⟨fun hslot => hexec (hnew.trans (hempty hslot)), fun x hx hslot => ?_⟩
      obtain ⟨hkept, hdisplaced⟩ := hheld x hx hslot
      refine ⟨fun hpin => hexec (hnew.trans (hkept hpin)), fun hpin => ?_⟩
      obtain ⟨t, ht, heq⟩ := hdisplaced hpin
      exact ⟨t, ht, hexec (hnew.trans heq)⟩
    · exact hexec (helloValid_noAddress (s := checkTaken s l c) (holderOf_of_holds he) hl hfull)
    · have hv : helloKind (checkTaken s l c) e k = v := helloKind_eq hsame hother
      obtain ⟨hpending, hrestarts, hmoves⟩ := helloValid_known (u := checkTaken s l c) (l := l) he hv
      refine ⟨fun hl hs => hexec (hpending hl hs), fun hl hs => ?_, fun a hl ha => hexec (hmoves a hl ha)⟩
      obtain ⟨hheld, hreleased, hfull⟩ := hrestarts hl hs
      exact ⟨fun a ha => hexec (hheld a ha), fun a ha hf => hexec (hreleased a ha hf), fun ha hf => hexec (hfull ha hf)⟩
  · have hgrant := frameOffered_offerControl s s.dir[e].line .grant 15 none .directory
      (identityBytes s.dir[e].identity ++ [addrByte s.dir[e].addr])
    refine (congrArg (frameOffered s (offerGrant s e) s.dir[e].line .grant 15 none .directory) ?_).mp hgrant
    cases s.dir[e].addr <;> rfl

end Sys2Proof.Machine

/-! # Screening and classification (R92, R93, R96 to R100): O40 -/

namespace Sys2Proof.Machine

/-! ## The two matches (R92) -/

theorem sourceMatches_iff (x : ScreenEntry) (d : DirEntry) (l : LineId) : sourceMatches x d l = true ↔ selects x d l := by
  unfold sourceMatches selects
  cases x.selector with
  | any => exact iff_of_true rfl trivial
  | identity =>
    dsimp only
    rw [Bool.and_eq_true, bne_iff_ne, beq_iff_eq]
  | position =>
    cases hp : d.pos with
    | none => simp
    | some p =>
      dsimp only
      rw [Bool.and_eq_true, bne_iff_ne, beq_iff_eq]
      exact and_congr_right fun _ => ⟨fun h => ⟨p, rfl, h⟩, fun ⟨_, hq, h⟩ => Option.some.inj hq ▸ h⟩
  | line => exact beq_iff_eq

theorem find?_of_firstScreen {s : State} {ok : ScreenEntry → Prop} {p : EntryId → Bool} {m : Option EntryId}
    (hp : ∀ i : EntryId, p i = true ↔ ok s.profile.screen[i]) (h : firstScreen s ok m) : allEntries.find? p = m := by
  cases m with
  | none =>
    refine (find?_all_none mem_allEntries).mpr fun i => ?_
    rw [← Bool.not_eq_true, hp]
    exact h i
  | some i =>
    obtain ⟨hi, hlow⟩ := h
    refine (find?_ascending allEntries_ascending mem_allEntries).mpr ⟨(hp i).mpr hi, fun j hj => ?_⟩
    rw [← Bool.not_eq_true, hp]
    exact hlow j hj

theorem sourceMatch_eq {s : State} {e : EntryId} {l : LineId} {src : Option EntryId}
    (h : firstScreen s (fun x => x.inUse = true ∧ x.type = .source ∧ selects x s.dir[e] l) src) : sourceMatch s e l = src :=
  find?_of_firstScreen (fun i => by rw [Bool.and_eq_true, Bool.and_eq_true, beq_iff_eq, sourceMatches_iff, and_assoc]) h

theorem kindMatch_eq {s : State} {k : FrameKind} {sk : ScreenKind} {knd : Option EntryId} (hk : screenKindNamed k sk)
    (h : firstScreen s (fun x => x.inUse = true ∧ x.type = .kind ∧ x.kind = sk) knd) : kindMatch s (screenKindOf k) = knd := by
  have hkind : screenKindOf k = sk := by
    cases k <;> cases sk <;> cases hk <;> rfl
  rw [hkind]
  exact find?_of_firstScreen (fun i => by rw [Bool.and_eq_true, Bool.and_eq_true, beq_iff_eq, beq_iff_eq, and_assoc]) h

/-! ## The disposal (R93) -/

theorem matchAction_eq (s : State) (m : Option EntryId) : matchAction s m = actionOf s m := by
  cases m <;> rfl

theorem disposal_drop (s : State) (src knd : Option EntryId) (urg : Urgency) :
    (disposal s src knd urg).drop = true ↔ actionOf s src = .drop ∨ actionOf s knd = .drop := by
  rw [disposal, matchAction_eq, matchAction_eq, Bool.or_eq_true, beq_iff_eq, beq_iff_eq]

theorem disposal_witness (s : State) (src knd : Option EntryId) (urg : Urgency) :
    (disposal s src knd urg).witness = true ↔ actionOf s src = .witness ∨ actionOf s knd = .witness := by
  rw [disposal, matchAction_eq, matchAction_eq, Bool.or_eq_true, beq_iff_eq, beq_iff_eq]

theorem actionOf_reclass {s : State} {m : Option EntryId} (h : actionOf s m = .reclass) :
    ∃ i, m = some i ∧ s.profile.screen[i].action = .reclass := by
  cases m with
  | none => cases h
  | some i => exact ⟨i, rfl, h⟩

theorem disposal_queue {s : State} {src knd : Option EntryId} {urg : Urgency} {q : Cls} (h : queueOf s src knd urg q) :
    (disposal s src knd urg).queue = q := by
  obtain ⟨hknd, hsrc, hplain⟩ := h
  rw [disposal, matchAction_eq, matchAction_eq]
  dsimp only
  by_cases hk : actionOf s knd = .reclass
  · obtain ⟨i, rfl, hi⟩ := actionOf_reclass hk
    rw [if_pos hk, hknd i rfl hi]
    rfl
  · rw [if_neg hk]
    by_cases hs : actionOf s src = .reclass
    · obtain ⟨i, rfl, hi⟩ := actionOf_reclass hs
      rw [if_pos hs, hsrc i hk rfl hi]
      rfl
    · have hclass : ∀ u : Urgency, (classOfUrgency u).val = min 2 u.toNat := by decide
      rw [if_neg hs]
      exact Fin.ext ((hclass urg).trans (hplain hk hs).symm)

/-! ## The hit counts (R96) -/

theorem countHit_hits (s : State) (m : Option EntryId) (i : EntryId) :
    (countHit s m).hits[i] = if m = some i then min 65535 (s.hits[i] + 1) else s.hits[i] := by
  cases m with
  | none => rfl
  | some j =>
    refine (vector_set_get s.hits j i _).trans ?_
    by_cases h : j = i
    · rw [if_pos h, if_pos (congrArg some h), h]
      rfl
    · rw [if_neg h, if_neg fun hx => h (Option.some.inj hx)]

/-- R96: each match is counted once, a SOURCE match being none of KIND. -/
theorem countHit_countHit {s u : State} {src knd : Option EntryId} (hne : ∀ i : EntryId, ¬ (src = some i ∧ knd = some i))
    (hu : u = { s with hits := u.hits })
    (hits : ∀ i : EntryId, u.hits[i] = if src = some i ∨ knd = some i then min 65535 (s.hits[i] + 1) else s.hits[i]) :
    countHit (countHit s src) knd = u := by
  have heq : (countHit (countHit s src) knd).hits = u.hits := by
    refine Vector.ext fun n hn => ?_
    have hboth : ∀ i : EntryId, (countHit (countHit s src) knd).hits[i] = u.hits[i] := fun i => by
      rw [countHit_hits, countHit_hits, hits]
      by_cases hk : knd = some i
      · rw [if_pos hk, if_neg fun hs => hne i ⟨hs, hk⟩, if_pos (.inr hk)]
      · by_cases hs : src = some i
        · rw [if_neg hk, if_pos hs, if_pos (.inl hs)]
        · rw [if_neg hk, if_neg hs, if_neg (not_or.mpr ⟨hs, hk⟩)]
    exact hboth ⟨n, hn⟩
  rw [hu, ← heq, countHit_frame, countHit_frame]

/-! ## Classification (R97 to R100) -/

theorem frameNotice_eq (s : State) (r : RecId) (e : EntryId) (k : FrameKind) (b : Bool) :
    frameNotice s r e k b = unitNotice s r e (noticeOfFrame k) b := rfl

/-- R100: a witness copy. -/
theorem witnessCopy_eq (s : State) (q : Cls) (r : RecId) (e : EntryId) (k : FrameKind) :
    witnessCopy s q r e k = witnessedBy s q r (unitNotice s r e (noticeOfFrame k) true) := by
  unfold witnessCopy addRef witnessedBy
  by_cases h : s.pool.recs[r].refs < 20
  · rw [if_neg (Nat.not_le.mpr h), if_pos h]
    rfl
  · rw [if_pos (Nat.not_lt.mp h), if_neg h]
    rfl

/-- R15: one more reference leaves every body. -/
theorem witnessCopy_body (s : State) (q : Cls) (r : RecId) (e : EntryId) (k : FrameKind) :
    (witnessCopy s q r e k).pool.body r = s.pool.body r := by
  rw [witnessCopy_eq, witnessedBy]
  split
  · rw [State.pushW_pool, Pool.body, recs_set_get, if_pos rfl]
    rfl
  · rfl

theorem suitedPos_none {d : DirEntry} {k : FrameKind} (h : d.state = .free ∨ d.pos = none ∨ k = .alert ∨ k = .data ∨
    (k = .key ∧ d.kind = .reader) ∨ ((k = .cardMove ∨ k = .track) ∧ d.kind = .keypad)) : suitedPos d k = none := by
  unfold suitedPos
  split
  · rfl
  · next hfree =>
    rcases h with h | h | rfl | rfl | ⟨rfl, hk⟩ | ⟨rfl | rfl, hk⟩
    · exact absurd h hfree
    · rw [h]
      split <;> rfl
    · rfl
    · rfl
    · rw [hk]
    · rw [hk]
    · rw [hk]

section
variable {s : State} {r : RecId} {e : EntryId} {k : FrameKind} {v : Disposal} {p : Pos}

theorem suitedPos_some {d : DirEntry} (hs : d.state ≠ .free) (hp : d.pos = some p)
    (hk : (k = .key ∧ d.kind = .keypad) ∨ ((k = .cardMove ∨ k = .track) ∧ d.kind = .reader)) : suitedPos d k = some p := by
  unfold suitedPos
  rw [if_neg hs]
  rcases hk with ⟨rfl, hk⟩ | ⟨rfl | rfl, hk⟩ <;> rw [hk] <;> exact hp

theorem classify_notice (h : suitedPos s.dir[e] k = none) :
    classify s r e k v = s.pushW v.queue (unitNotice s r e (noticeOfFrame k) false) := by
  rw [classify, h, frameNotice_eq]

theorem classify_key (h : suitedPos s.dir[e] .key = some p) : classify s r e .key v = keyFrame s p r e v := by
  rw [classify, h]
  exact if_pos rfl

theorem classify_card (h : suitedPos s.dir[e] k = some p) (hk : k ≠ .key) :
    classify s r e k v =
      if k = .track then trackFrame (if v.witness then witnessCopy s 1 r e k else s) p e r
      else cardMoveFrame (if v.witness then witnessCopy s 1 r e k else s) p r := by
  rw [classify, h]
  exact if_neg hk

theorem keyFrame_session {ss : Session} (h : s.entry[p].sess = some ss) : keyFrame s p r e v =
    dropRef (takeKeys p e (s.pool.body r) false false (if v.witness && ss.witness then witnessCopy s v.queue r e .key else s)) r := by
  have hbody : (if v.witness && ss.witness then witnessCopy s v.queue r e .key else s).pool.body r = s.pool.body r := by
    split
    · exact witnessCopy_body s v.queue r e .key
    · rfl
  rw [keyFrame, h]
  dsimp only
  rw [hbody]

theorem keyFrame_guarded (h : s.entry[p].sess = none) (hg : s.entry[p].guardTimer ≠ none) :
    keyFrame s p r e v = dropRef (guardKeys s p e (s.pool.body r)) r := by
  rw [keyFrame, h]
  exact if_pos (Option.isSome_iff_ne_none.mpr hg)

theorem keyFrame_unattended (h : s.entry[p].sess = none) (hg : s.entry[p].guardTimer = none) (ha : s.time.attended = false) :
    keyFrame s p r e v = dropRef s r := by
  rw [keyFrame, h]
  dsimp only
  rw [hg, ha]
  rfl

theorem keyFrame_notice (h : s.entry[p].sess = none) (hg : s.entry[p].guardTimer = none) (ha : s.time.attended = true) :
    keyFrame s p r e v = s.pushW v.queue (unitNotice s r e .key false) := by
  rw [keyFrame, h]
  dsimp only
  rw [hg, ha]
  rfl

end

/-- R92 to R100: a frame that has been screened, by its disposal. -/
theorem handOver_eq {s u : State} {r : RecId} {e : EntryId} {l : LineId} {k : FrameKind} {src knd : Option EntryId}
    (hsrc : sourceMatch s e l = src) (hknd : kindMatch s (screenKindOf k) = knd) (hu : countHit (countHit s src) knd = u) :
    handOver s r e l k = if (disposal s src knd s.pool.recs[r].urg).drop then dropRef u r
      else classify u r e k (disposal s src knd s.pool.recs[r].urg) := by
  rw [handOver, hsrc, hknd, hu]

/-- Settles O40: the matches, the disposal and the hits of the frame are those named; what then becomes of it, by its binding. -/
theorem storedFramesAreScreened : Obligations.StoredFramesAreScreened := by
  unfold Obligations.StoredFramesAreScreened
  intro s u r e l k sk src knd q hk hsrc hknd hq hu hhits
  have hne : ∀ i : EntryId, ¬ (src = some i ∧ knd = some i) := by
    rintro i ⟨rfl, rfl⟩
    obtain ⟨⟨-, hs, -⟩, -⟩ := hsrc
    obtain ⟨⟨-, hk, -⟩, -⟩ := hknd
    rw [hs] at hk
    cases hk
  have heq := handOver_eq (r := r) (sourceMatch_eq hsrc) (kindMatch_eq hk hknd) (countHit_countHit hne hu hhits)
  have hdrop := disposal_drop s src knd s.pool.recs[r].urg
  have hwitness := disposal_witness s src knd s.pool.recs[r].urg
  have hqueue := disposal_queue hq
  generalize disposal s src knd s.pool.recs[r].urg = v at heq hdrop hwitness hqueue
  clear hhits hsrc hknd
  generalize u.hits = hits at hu
  subst hu
  refine ⟨fun h => ?_, fun hs hk' => ?_⟩
  · rw [heq, if_pos (hdrop.mpr h)]
    rfl
  · rw [heq, if_neg (mt hdrop.mp (not_or.mpr ⟨hs, hk'⟩)), ← hqueue]
    refine ⟨fun hno => classify_notice (s := { s with hits := hits }) (suitedPos_none hno), fun p hstate hp => ⟨fun hkey hkind => ?_, fun v' hkind => ?_⟩⟩
    · subst hkey
      have hclass := classify_key (s := { s with hits := hits }) (r := r) (v := v) (suitedPos_some hstate hp (.inl ⟨rfl, hkind⟩))
      rw [hclass]
      refine ⟨fun ss hss => ⟨fun ⟨hw, hws⟩ => ?_, fun hno => ?_⟩, fun hss => ⟨fun hg => ?_, fun hg ha => ?_, fun hg ha => ?_⟩⟩
      · rw [keyFrame_session (s := { s with hits := hits }) hss, hwitness.mpr hw, hws, witnessCopy_eq]
        rfl
      · have hfalse : (v.witness && ss.witness) = false := by
          rcases hno with ⟨hs', hk'⟩ | hss'
          · rw [Bool.eq_false_iff.mpr (mt hwitness.mp (not_or.mpr ⟨hs', hk'⟩)), Bool.false_and]
          · rw [hss', Bool.and_false]
        rw [keyFrame_session (s := { s with hits := hits }) hss, hfalse]
        rfl
      · exact keyFrame_guarded (s := { s with hits := hits }) hss hg
      · exact keyFrame_unattended (s := { s with hits := hits }) hss hg ha
      · exact keyFrame_notice (s := { s with hits := hits }) hss hg ha
    · intro hplain hwit
      have hcopy : (if v.witness then witnessCopy { s with hits := hits } 1 r e k else { s with hits := hits }) = v' := by
        by_cases hw : v.witness = true
        · rw [if_pos hw, witnessCopy_eq, hwit (hwitness.mp hw)]
          rfl
        · obtain ⟨hs', hk'⟩ := not_or.mp (mt hwitness.mpr hw)
          rw [if_neg hw, hplain ⟨hs', hk'⟩]
      refine ⟨fun hc => ?_, fun hc => ?_⟩
      · subst hc
        rw [classify_card (s := { s with hits := hits }) (suitedPos_some hstate hp (.inr ⟨.inl rfl, hkind⟩)) FrameKind.noConfusion, hcopy]
        exact if_neg FrameKind.noConfusion
      · subst hc
        rw [classify_card (s := { s with hits := hits }) (suitedPos_some hstate hp (.inr ⟨.inr rfl, hkind⟩)) FrameKind.noConfusion, hcopy]
        exact if_pos rfl

end Sys2Proof.Machine

/-! # UNIT_SEND (R103, R104): O45 -/

namespace Sys2Proof.Machine

/-! ## The fields of its body -/

/-- R103, R203: the body of a UNIT_SEND. -/
def sendBytes (b0 b1 urg : Byte) (n : Identity) (body : List Byte) : List Byte :=
  b0 :: b1 :: leBytes 6 n.toNat ++ urg :: byteOf body.length :: body

section
variable (b0 b1 urg : Byte) (n : Identity) (body : List Byte)

theorem sendBytes_length : (sendBytes b0 b1 urg n body).length = 10 + body.length := by
  simp only [sendBytes, List.length_append, List.length_cons, length_leBytes]
  omega

theorem sendBytes_identity : identityAt (sendBytes b0 b1 urg n body) 2 = n :=
  identityAt_leBytes n (urg :: byteOf body.length :: body)

theorem sendBytes_urgency : byteAt (sendBytes b0 b1 urg n body) 8 = urg := rfl

theorem sendBytes_size : byteAt (sendBytes b0 b1 urg n body) 9 = byteOf body.length := rfl

theorem sendBytes_body : (sendBytes b0 b1 urg n body).drop 10 = body := rfl

theorem sendLengthOk_sendBytes {body : List Byte} (h : body.length ≤ 120) : sendLengthOk (sendBytes b0 b1 urg n body) = true := by
  have hsize : (byteOf body.length).toNat = body.length := by
    rw [toNat_byteOf]
    omega
  rw [sendLengthOk, sendBytes_length, sendBytes_size, hsize, decide_eq_true (by omega : 10 ≤ 10 + body.length), decide_eq_true rfl,
    decide_eq_true (by exact h : body.length ≤ Config.maxFrameBody)]
  rfl

end

theorem noRole_iff (b : Byte) : noRole b = true ↔ b.toNat % 4 = 0 := by
  revert b
  decide

theorem sendUrgency_eq {urg : Byte} {c : Cls} (h : urg = 1 ∨ urg = 2) (hc : c.val = urg.toNat) :
    sendUrgency urg = some (BitVec.ofNat 2 urg.toNat, c) := by
  obtain rfl | rfl := h
  · rw [show c = 1 from Fin.ext hc]
    rfl
  · rw [show c = 2 from Fin.ext hc]
    rfl

theorem sendUrgency_none {urg : Byte} (h1 : urg ≠ 1) (h2 : urg ≠ 2) : sendUrgency urg = none := by
  rw [sendUrgency, if_neg h1, if_neg h2]

/-! ## The targets (R103) -/

theorem resolveTargets_eq (s : State) (bitmap roles : Byte) (i : Identity) :
    resolveTargets s bitmap roles i = sendTargets s bitmap roles i := by
  have htarget : ∀ e : EntryId, targetable s.dir[e] = (s.dir[e].state == .active || s.dir[e].state == .silent) := fun _ => rfl
  unfold resolveTargets sendTargets
  by_cases hb : bitmap = 0
  · rw [if_neg (not_not.mpr hb), if_pos hb]
    cases holderOf s i with
    | none => rfl
    | some e =>
      dsimp only
      rw [htarget, Option.toList_some, List.filter_cons, List.filter_nil]
  · have hall : allPos = List.finRange 8 := by decide
    rw [if_pos hb, if_neg hb, slotsNamed, hall, List.filterMap_flatMap]
    simp only [htarget]
    congr 1
    refine List.flatMap_congr fun p _ => ?_
    by_cases hp : bitmap.getLsbD p.val = true
    · rw [if_pos hp, if_pos hp, List.filterMap_append]
      congr 1
      · by_cases hr : roles.getLsbD 0 = true
        · rw [if_pos hr, if_pos hr]
          cases h : slotOf s .reader p <;> simp [h]
        · rw [if_neg hr, if_neg hr, List.filterMap_nil]
      · by_cases hr : roles.getLsbD 1 = true
        · rw [if_pos hr, if_pos hr]
          cases h : slotOf s .keypad p <;> simp [h]
        · rw [if_neg hr, if_neg hr, List.filterMap_nil]
    · rw [if_neg hp, if_neg hp, List.filterMap_nil]

/-! ## A grant is one (R8) -/

theorem lowestFree_of_granted {p p' : Pool} {r : RecId} {a : Admission} (h : granted p p' r a) : p.lowestFree = some r := by
  obtain ⟨hfree, hlow, -⟩ := h
  cases hx : p.lowestFree with
  | none => exact absurd hfree (by
      have := List.find?_eq_none.mp hx r (List.mem_finRange r)
      simpa using this)
  | some x =>
    have hxfree := Pool.lowestFree_free hx
    rcases lt_trichotomy x r with h | h | h
    · exact absurd hxfree (hlow x h)
    · rw [h]
    · exact absurd hfree (lowestFree_lowest hx r h)

theorem granted_eq {p p' : Pool} {r : RecId} {a : Admission} (h : granted p p' r a) : p' = p.grant r a := by
  obtain ⟨-, -, hrec, hothers, hfree, hmem, hrefusals, hlimit, hlowF, hlowG⟩ := h
  have hrecs : p'.recs = (p.grant r a).recs := by
    refine Vector.ext fun n hn => ?_
    have hsame : ∀ x : RecId, p'.recs[x] = (p.grant r a).recs[x] := fun x => by
      rw [Pool.grant, recs_set_get]
      by_cases hx : r = x
      · rw [if_pos hx, ← hx, hrec]
      · rw [if_neg hx, hothers x (Ne.symm hx)]
    exact hsame ⟨n, hn⟩
  obtain ⟨free, mem, recs, refusals, refLimit, lowF, lowG⟩ := p'
  dsimp only at hrecs hfree hmem hrefusals hlimit
  subst hrecs hfree hmem hrefusals hlimit
  dsimp only at hlowF hlowG
  rw [hlowF, hlowG]
  rfl

/-! ## The copies (R104) -/

/-- R104: the targets of a fan-out. -/
def targetsOf (s : State) (tgs : List EntryId) : List Target :=
  tgs.map fun e => { e := e, identity := s.dir[e].identity, line := s.dir[e].line, ended := false }

/-- R104: the copies that are placed. -/
def placedOf (s : State) (ts : List Target) : Nat := ts.countP fun t => s.lines[t.line].state != .stopped

theorem fanOut_eq (s : State) (sd r : RecId) (tag : Byte) (tgs : List EntryId) :
    fanOut s sd r tag tgs =
      (targetsOf s tgs).foldl (placeCopy sd r) (spreadBody
        { s with fanouts := s.fanouts ++
          [{ sendDone := sd, body := r, tag := tag, targets := targetsOf s tgs, outstanding := (targetsOf s tgs).length }] } r
        (placedOf s (targetsOf s tgs))) := by
  have hplaced : ∀ ts : List Target, (ts.filter fun t => !s.lineStopped t.line).length = placedOf s ts := fun ts => by
    rw [← List.countP_eq_length_filter]
    rfl
  rw [fanOut, ← targetsOf, hplaced]

/-- R104: the references of a body, by the number of its copies. -/
def bodySpread (p : Pool) (r : RecId) (placed : Nat) : Pool :=
  if placed = 0 then p.dropRef r else { p with recs := p.recs.set r { p.recs[r] with refs := placed } }

theorem spreadBody_eq (s : State) (r : RecId) (placed : Nat) : spreadBody s r placed = { s with pool := bodySpread s.pool r placed } := by
  unfold spreadBody bodySpread
  split <;> rfl

theorem bodySpread_none {s : State} {ts : List Target} (h : ∀ t ∈ ts, s.lines[t.line].state = .stopped) (p : Pool) (r : RecId) :
    bodySpread p r (placedOf s ts) = p.dropRef r := by
  refine if_pos (List.countP_eq_zero.mpr fun t ht => ?_)
  rw [h t ht]
  decide

theorem bodySpread_some {s : State} {ts : List Target} (h : ∃ t ∈ ts, s.lines[t.line].state ≠ .stopped) (p : Pool) (r : RecId) :
    bodySpread p r (placedOf s ts) = { p with recs := p.recs.set r { p.recs[r] with refs := placedOf s ts } } := by
  obtain ⟨t, ht, hs⟩ := h
  refine if_neg fun h0 => ?_
  exact List.countP_eq_zero.mp h0 t ht (bne_iff_ne.mpr hs)

theorem sendAdmission_eq (s : State) (tag : Byte) (u : Urgency) (c : Cls) (n : Nat) : sendAdmission s tag u c n = sentBody s tag u c n := rfl

section
variable {s : State} {tag : Byte} {u : Urgency} {c : Cls} {body : List Byte} {tgs : List EntryId}

theorem sendTo_noPromise {x : Fin 9} (h : refusedAt s.profile s.pool 0 4 .part x) :
    sendTo s tag u c body tgs = refuse { s with pool := counted s.pool x } .poolFull := by
  rw [sendTo, reserve_refused (k := .sendDone) h]

variable {sd : RecId} {p : Pool} (hg : granted s.pool p sd (promised s .sendDone tag)) (h : admissible s.profile s.pool 0 4 .part)
include hg h

/-- R16, R104: the promise of the SEND_DONE. -/
theorem reserve_sendDone : reserve s .sendDone tag = ({ s with pool := p }, some sd) := by
  obtain ⟨r, hr, -, -, heq⟩ := reserve_granted (k := .sendDone) tag h
  obtain rfl : sd = r := Option.some.inj ((lowestFree_of_granted hg).symm.trans hr)
  rw [heq, granted_eq hg]

theorem sendTo_noBody {x : Fin 9} (hx : refusedAt s.profile p c (chunksNeeded body.length) (.workstation tag) x) :
    sendTo s tag u c body tgs = refuse { s with pool := (counted p x).dropRef sd } .poolFull := by
  rw [sendTo, reserve_sendDone hg h]
  dsimp only
  rw [admitRec_refused (s := { s with pool := p }) (a := sendAdmission { s with pool := p } tag u c body.length) hx]
  rfl

/-- R104: a UNIT_SEND whose admissions are both granted. -/
theorem sendTo_done (hm : memorySound s.pool) (hc : chunksSound s.pool)
    (hb : admissible s.profile p c (chunksNeeded body.length) (.workstation tag)) :
    ∃ (r : RecId) (p1 p2 : Pool), granted p p1 r (sentBody s tag u c body.length) ∧ bodyWritten p1 p2 r body ∧
      sendTo s tag u c body tgs = done ((targetsOf s tgs).foldl (placeCopy sd r)
        { s with
          pool := bodySpread p2 r (placedOf s (targetsOf s tgs))
          fanouts := s.fanouts ++
            [{ sendDone := sd, body := r, tag := tag, targets := targetsOf s tgs, outstanding := (targetsOf s tgs).length }] })
        [byteOf tgs.length] := by
  obtain ⟨r, hr, hgr, hneed, heq⟩ := admitRec_granted (s := { s with pool := p })
    (a := sendAdmission { s with pool := p } tag u c body.length) hb
  have hstep : p = s.pool.grant sd (promised s .sendDone tag) := granted_eq hg
  have hfree := Pool.lowestFree_free (lowestFree_of_granted hg)
  obtain ⟨r', hr', -, hneed', -⟩ := reserve_granted (k := .sendDone) tag h
  have hm' : memorySound p := hstep ▸ memorySound_step (.grant s.pool sd _ hfree hneed' RecState.noConfusion) hm
  have hc' : chunksSound p := hstep ▸ chunksSound_grant hc hfree RecState.noConfusion
  have hwritten := bodyWritten_grant (bs := body) hm' hc' hr (a := sendAdmission { s with pool := p } tag u c body.length)
    RecState.noConfusion hneed (chunksNeeded_holds _)
  refine ⟨r, _, _, hgr, hwritten, ?_⟩
  rw [sendTo, reserve_sendDone hg h]
  dsimp only
  rw [heq]
  dsimp only
  rw [fanOut_eq, spreadBody_eq]
  rfl

end

section
variable {s : State} {sl : Slot} {b0 b1 urg : Byte} {n : Identity} {body : List Byte} (hsl : sl.body = sendBytes b0 b1 urg n body)
  (hlen : body.length ≤ 120)
include hsl hlen

theorem unitSendRule_urgency (h1 : urg ≠ 1) (h2 : urg ≠ 2) : unitSendRule s sl = refuse s .badParameter := by
  rw [unitSendRule, hsl, sendLengthOk_sendBytes b0 b1 urg n hlen]
  rw [sendBytes_urgency, sendUrgency_none h1 h2]
  rfl

variable {c : Cls} (hurg : urg = 1 ∨ urg = 2) (hc : c.val = urg.toNat)
include hurg hc

theorem unitSendRule_noRole (h0 : b0 ≠ 0) (h1 : b1.toNat % 4 = 0) : unitSendRule s sl = refuse s .badParameter := by
  rw [unitSendRule, hsl, sendLengthOk_sendBytes b0 b1 urg n hlen]
  rw [sendBytes_urgency, sendUrgency_eq hurg hc]
  exact (if_neg (by decide)).trans (if_pos ⟨h0, (noRole_iff b1).mpr h1⟩)

theorem unitSendRule_targets (h : b0 = 0 ∨ b1.toNat % 4 ≠ 0) : unitSendRule s sl =
    if sendTargets s b0 b1 n = [] then refuse s .noSuchUnit
    else sendTo s sl.tag (BitVec.ofNat 2 urg.toNat) c body (sendTargets s b0 b1 n) := by
  have hrole : ¬ (byteAt (sendBytes b0 b1 urg n body) 0 ≠ 0 ∧ noRole (byteAt (sendBytes b0 b1 urg n body) 1)) := fun ⟨h0, h1⟩ =>
    h.elim h0 fun hno => hno ((noRole_iff b1).mp h1)
  rw [unitSendRule, hsl, sendLengthOk_sendBytes b0 b1 urg n hlen]
  rw [sendBytes_urgency, sendUrgency_eq hurg hc, sendBytes_identity, sendBytes_body, resolveTargets_eq]
  refine (if_neg (by decide)).trans ((if_neg hrole).trans ?_)
  show (match sendTargets s b0 b1 n with
    | [] => refuse s .noSuchUnit
    | t :: ts => sendTo s sl.tag (BitVec.ofNat 2 urg.toNat) c body (t :: ts)) = _
  cases sendTargets s b0 b1 n with
  | nil => rfl
  | cons t ts => rfl

end

theorem unitSendRule_badLength {s : State} {sl : Slot}
    (h : sl.body.length < 10 ∨ sl.body.length ≠ 10 + (byteAt sl.body 9).toNat ∨ 120 < (byteAt sl.body 9).toNat) :
    unitSendRule s sl = refuse s .badLength := by
  have hbad : sendLengthOk sl.body = false := by
    rw [sendLengthOk, Bool.and_eq_false_iff, Bool.and_eq_false_iff, decide_eq_false_iff_not, decide_eq_false_iff_not,
      decide_eq_false_iff_not]
    rcases h with h | h | h
    · exact .inl (.inl (by omega))
    · exact .inl (.inr h)
    · exact .inr (by simp only [Config.maxFrameBody]; omega)
  rw [unitSendRule, hbad]
  rfl

/-- R176: a request that its rule refuses, an admission of it having been counted. -/
theorem exec_asks_refused {s t : State} {i : SlotId} {ty : Byte} {body : List Byte} {c : Instr} {rule : State → Slot → State × Answer}
    {fin : State → State} {st : Status} (h : asks s i ty body)
    (hr : ∀ sl : Slot, sl.body = body → sl.tag = s.link.slots[i].tag → rule s sl = refuse t st)
    (hx : exec c s = .next (handle s (ofType ty) rule fin)) : exec c s = .next (fin (replied t i st [])) := by
  obtain ⟨-, -, hbody⟩ := id h
  rw [hx, handle_of_asks h, hr _ hbody rfl]
  cases st <;> rfl

/-- Settles O45: the checks in their order, then the fan-out over the targets. -/
theorem sendFansOut : Obligations.SendFansOut := by
  unfold Obligations.SendFansOut
  refine ⟨fun s i b0 b1 urg n body c tgs h hlen => ⟨fun h1 h2 => ?_, fun hurg hc => ⟨fun h0 h1 => ?_, fun hrole htgs => ?_⟩⟩,
    fun s sd r t => ⟨fun hs => ?_, fun a hs ha => ?_⟩, fun s i body h hbad => ?_⟩
  · exact exec_asks_refuse h (fun sl hsl => unitSendRule_urgency hsl hlen h1 h2) rfl
  · exact exec_asks_refuse h (fun sl hsl => unitSendRule_noRole hsl hlen hurg hc h0 h1) rfl
  · subst htgs
    have hrule := fun (sl : Slot) (hsl : sl.body = sendBytes b0 b1 urg n body) =>
      unitSendRule_targets (s := s) hsl hlen hurg hc hrole
    refine ⟨fun hnone => exec_asks_refuse h (fun sl hsl => (hrule sl hsl).trans (if_pos hnone)) rfl, fun hsome =>
      ⟨fun x hx => ?_, fun sd p hg hadm => ⟨fun x hx => ?_, fun hm hcs hb => ?_⟩⟩⟩
    · exact exec_asks_refused h (fun sl hsl _ => (hrule sl hsl).trans ((if_neg hsome).trans (sendTo_noPromise hx))) rfl
    · refine exec_asks_refused h (fun sl hsl htag => (hrule sl hsl).trans ((if_neg hsome).trans ?_)) rfl
      rw [htag]
      exact sendTo_noBody hg hadm hx
    · obtain ⟨r, p1, p2, hgr, hw, heq⟩ := sendTo_done (u := BitVec.ofNat 2 urg.toNat) (tgs := sendTargets s b0 b1 n) hg hadm hm hcs hb
      refine ⟨r, p1, p2, bodySpread p2 r (placedOf s (targetsOf s (sendTargets s b0 b1 n))), targetsOf s (sendTargets s b0 b1 n), hgr, hw, rfl,
        fun hall => bodySpread_none hall p2 r, fun hsome => bodySpread_some hsome p2 r, ?_⟩
      refine exec_asks_done h (fun sl hsl htag => (hrule sl hsl).trans ((if_neg hsome).trans ?_)) rfl
      rw [htag]
      exact heq
  · exact if_pos (beq_iff_eq.mpr hs)
  · rw [placeCopy, not_lineStopped hs, if_neg Bool.false_ne_true, ha]
    rfl
  · exact exec_asks_refuse h (fun sl hsl => unitSendRule_badLength (by rw [hsl]; exact hbad)) rfl

end Sys2Proof.Machine

/-! # Displays (R68, R131 to R133): O48 -/

namespace Sys2Proof.Machine

/-! ## An offer does not look at the entry contexts -/

theorem admitBuilt_atEntry (s : State) (p : Pos) (x : EntryCtx) (c : Cls) (o : Origin) (k : RecKind) (u : Urgency) (b : List Byte) :
    admitBuilt (atEntry s p x) c o k u b = (atEntry (admitBuilt s c o k u b).1 p x, (admitBuilt s c o k u b).2) := by
  cases h : failedTest s.profile s.pool c (chunkNeed b.length) o <;> cases hf : s.pool.lowestFree <;>
    simp only [admitBuilt, admitRec, atEntry, h, hf] <;> rfl

theorem offerControl_atEntry (s : State) (p : Pos) (x : EntryCtx) (l : LineId) (k : FrameKind) (dest : Addr)
    (target : Option EntryId) (owner : Owner) (body : List Byte) :
    offerControl (atEntry s p x) l k dest target owner body =
      (atEntry (offerControl s l k dest target owner body).1 p x, (offerControl s l k dest target owner body).2) := by
  by_cases hl : s.lines[l].state = .stopped
  · rw [offerControl_stopped hl, offerControl_stopped (s := atEntry s p x) hl]
  · rw [offerControl, offerControl, not_lineStopped hl, not_lineStopped (s := atEntry s p x) hl, admitBuilt_atEntry]
    rcases admitBuilt s (classOfUrgency (partUrgency k)) .part (.frame k) (partUrgency k) body with ⟨v, _ | r⟩ <;> rfl

/-! ## Folding (R68) -/

section
variable {s : State} {p : Pos} {l : LineId} {a : Addr} {e : EntryId} {d : DisplayLines} {u : Tone}

theorem foldable_iff (q : QEntry) : foldable s p a q = true ↔ unsentDisplay s p a q := by
  simp only [foldable, unsentDisplay, Bool.and_eq_true, beq_iff_eq, Bool.not_eq_true', and_assoc]

theorem offerDisplay_stopped (h : s.lines[l].state = .stopped) : offerDisplay s l a e p d u = (s, .stopped) := by
  rw [offerDisplay, State.lineStopped, h]
  rfl

theorem offerDisplay_folded {before after : List QEntry} {q : QEntry} (h : s.lines[l].state ≠ .stopped)
    (hq : s.lines[l].control = before ++ q :: after) (hu : unsentDisplay s p a q) (hb : ∀ x ∈ before, ¬ unsentDisplay s p a x) :
    offerDisplay s l a e p d u =
      ({ s with
          pool := s.pool.setBody q.record
            (displayBody d (strongerTone (Tone.ofCode (byteAt (s.pool.body q.record) 32)) u)) }, .carried q.record) := by
  have hfind : s.lines[l].control.find? (foldable s p a) = some q := by
    rw [hq, List.find?_append, List.find?_eq_none.mpr fun x hx => mt (foldable_iff x).mp (hb x hx)]
    exact List.find?_cons_of_pos ((foldable_iff q).mpr hu)
  simp only [offerDisplay, not_lineStopped h, hfind]
  rfl

theorem offerDisplay_offered (h : s.lines[l].state ≠ .stopped) (hn : ∀ x ∈ s.lines[l].control, ¬ unsentDisplay s p a x) :
    offerDisplay s l a e p d u = offerControl s l .display a (some e) (.entry p) (displayBody d u) := by
  have hfind : s.lines[l].control.find? (foldable s p a) = none :=
    List.find?_eq_none.mpr fun x hx => mt (foldable_iff x).mp (hn x hx)
  simp only [offerDisplay, not_lineStopped h, hfind]
  rfl

theorem offerDisplay_atEntry (s : State) (p p' : Pos) (x : EntryCtx) (l : LineId) (a : Addr) (e : EntryId) (d : DisplayLines)
    (u : Tone) :
    offerDisplay (atEntry s p' x) l a e p d u =
      (atEntry (offerDisplay s l a e p d u).1 p' x, (offerDisplay s l a e p d u).2) := by
  by_cases hl : s.lines[l].state = .stopped
  · rw [offerDisplay_stopped hl, offerDisplay_stopped (s := atEntry s p' x) hl]
  · unfold offerDisplay
    rw [not_lineStopped hl, not_lineStopped (s := atEntry s p' x) hl, offerControl_atEntry]
    show (match s.lines[l].control.find? (foldable s p a) with | some q => _ | none => _) = _
    cases s.lines[l].control.find? (foldable s p a) <;> rfl

end

/-! ## A display update (R132) -/

section
variable {s : State} {p : Pos} {e : EntryId} {a : Addr} {d : DisplayLines} {t : Tone}

theorem targetPlace_unreached (h : unreached s p) : targetPlace s s.entry[p].target = none := by
  cases ht : s.entry[p].target with
  | none => rfl
  | some x =>
    obtain ⟨e, i⟩ := x
    rw [targetPlace]
    rcases h e i ht with hne | hnone
    · rw [if_neg hne]
    · rw [hnone, Option.map_none, ite_self]

theorem targetPlace_reached (h : reached s p e a) : targetPlace s s.entry[p].target = some (e, s.dir[e].line, a) := by
  obtain ⟨i, ht, hi, ha⟩ := h
  rw [ht, targetPlace, if_pos hi, ha, Option.map_some]

theorem clearDisplayPending_eq (v : State) (p : Pos) (c : EntryCtx) (d : DisplayLines) :
    clearDisplayPending (atEntry v p { c with wanted := d }) p = atEntry v p (displayed c d) := by
  rw [clearDisplayPending, modEntry_eq_atEntry, atEntry_self, atEntry_atEntry]
  rfl

theorem setDisplayPending_waits (v : State) (p : Pos) (c : EntryCtx) (d : DisplayLines) (u : Tone) :
    setDisplayPending (atEntry v p { c with wanted := d }) p u = atEntry v p (displayWaits c d u) := by
  rw [setDisplayPending_eq, atEntry_self, atEntry_atEntry]
  rfl

/-- R132: the place of the target does not depend on the lines wanted. -/
theorem targetPlace_atEntry (s : State) (p : Pos) (c : EntryCtx) (x : Option (EntryId × Identity)) :
    targetPlace (atEntry s p c) x = targetPlace s x := rfl

theorem displayUpdate_unreached (h : unreached s p) :
    displayUpdate s p d t = atEntry s p { displayed s.entry[p] d with target := none } := by
  simp only [displayUpdate, modEntry_eq_atEntry, atEntry_self, targetPlace_atEntry, targetPlace_unreached h,
    clearDisplayPending_eq, atEntry_atEntry]

theorem displayUpdate_carried {v : State} {r : RecId} (h : reached s p e a)
    (ho : offerDisplay s s.dir[e].line a e p d (strongerTone t s.entry[p].pendTone) = (v, .carried r)) :
    displayUpdate s p d t = atEntry v p (displayed s.entry[p] d) := by
  simp only [displayUpdate, modEntry_eq_atEntry, atEntry_self, targetPlace_atEntry, targetPlace_reached h, offerDisplay_atEntry,
    ho, clearDisplayPending_eq]

theorem displayUpdate_waits {v : State} {x : Offer} (h : reached s p e a) (hx : x = .refused ∨ x = .stopped)
    (ho : offerDisplay s s.dir[e].line a e p d (strongerTone t s.entry[p].pendTone) = (v, x)) :
    displayUpdate s p d t = atEntry v p (displayWaits s.entry[p] d (strongerTone t s.entry[p].pendTone)) := by
  rcases hx with rfl | rfl <;>
    simp only [displayUpdate, modEntry_eq_atEntry, atEntry_self, targetPlace_atEntry, targetPlace_reached h,
      offerDisplay_atEntry, ho, setDisplayPending_waits]

end

/-! ## The retry and the guard (R131, R133) -/

section
variable {s : State} {p : Pos}

theorem targetLineStopped_iff (t : Option (EntryId × Identity)) : targetLineStopped s t = true ↔
    ∃ (e : EntryId) (i : Identity),
      t = some (e, i) ∧ s.dir[e].state ≠ .free ∧ s.dir[e].identity = i ∧ s.lines[s.dir[e].line].state = .stopped := by
  rcases t with _ | ⟨e, i⟩
  · exact ⟨fun h => absurd h Bool.false_ne_true, fun ⟨e, i, h, _⟩ => nomatch h⟩
  · simp only [targetLineStopped, State.lineStopped, Bool.and_eq_true, bne_iff_ne, beq_iff_eq, Option.some.injEq,
      Prod.mk.injEq, and_assoc]
    exact ⟨fun h => ⟨e, i, rfl, rfl, h⟩, fun ⟨_, _, he, hi, h⟩ => by subst he; subst hi; exact h⟩

theorem displayRetry_eq (hp : s.entry[p].dispPending = true) :
    displayRetry s p =
      if targetLineStopped s s.entry[p].target then atEntry s p { s.entry[p] with retryTimer := some 100 }
      else displayUpdate (atEntry s p { s.entry[p] with retryTimer := none }) p s.entry[p].wanted .none := by
  simp only [displayRetry, modEntry_eq_atEntry, atEntry_self, atEntry_atEntry, hp]
  rfl

theorem timerDue_zero : timerDue (some 0) = true := rfl

theorem exec_displayRetry (hr : s.running = true) (ht : s.entry[p].retryTimer = some 0) :
    exec (.displayRetryExpiry p) s = .next (settle (displayRetry s p)) := by
  rw [exec, execDisplayRetryExpiry, hr, ht, timerDue_zero, Bool.and_self, if_pos rfl]

theorem exec_pinGuard (hr : s.running = true) (ht : s.entry[p].guardTimer = some 0) :
    exec (.pinGuardExpiry p) s = .next (atEntry s p { s.entry[p] with guardTimer := none }) := by
  rw [exec, execPinGuardExpiry, hr, ht, timerDue_zero, Bool.and_self, if_pos rfl, modEntry_eq_atEntry]

end

theorem strongerTone_buzz {t u : Tone} (h : t = .buzz ∨ u = .buzz) : strongerTone t u = .buzz := by
  revert h
  cases t <;> cases u <;> decide

/-- Settles O48: a display update is split by where its target is reached and by what becomes of the offered DISPLAY. -/
theorem displaysReachTheKeypad : Obligations.DisplaysReachTheKeypad := by
  refine ⟨fun s p d t u hu => ⟨fun h => displayUpdate_unreached h, fun e a l hr hl => ?_⟩, fun s p hrun => ⟨exec_pinGuard hrun, ?_⟩,
    fun t u => ⟨strongerTone_buzz, by cases t <;> rfl, by cases u <;> rfl, rfl⟩⟩
  · subst hu hl
    refine ⟨fun hs => displayUpdate_waits hr (.inr rfl) (offerDisplay_stopped hs),
      fun hs => ⟨fun before after q hq hu hb => displayUpdate_carried hr (offerDisplay_folded hs hq hu hb), ?_⟩⟩
    intro hn v x hx
    rw [← displayBody, ← offerDisplay_offered hs hn] at hx
    exact ⟨fun ⟨r, hc⟩ => displayUpdate_carried hr (hc ▸ hx), fun hc => displayUpdate_waits hr (.inl hc) hx⟩
  · intro ht hp
    refine ⟨fun h => ?_, fun h => ?_⟩
    · rw [exec_displayRetry hrun ht, displayRetry_eq hp, if_pos ((targetLineStopped_iff _).mpr h)]
    · rw [exec_displayRetry hrun ht, displayRetry_eq hp, if_neg]
      rw [targetLineStopped_iff]
      rintro ⟨e, i, he, hfree, hi, hst⟩
      rcases h e i he with h | h | h
      · exact hfree h
      · exact h hi
      · exact h hst

end Sys2Proof.Machine

/-! # The end of a session (R124 to R129): O47 -/

namespace Sys2Proof.Machine

section
variable {s : State} {p : Pos} {ss : Session} {o : EntryOutcome} {c : Cause} {t : Tone}

/-- R127, R201: the ENTRY_RESULT of a sound session. -/
theorem entryResultBody_eq (hv : valueSound ss) (hf : fieldSound ss.field) : entryResultBody p ss o c = resultBytes p ss o c := by
  rw [entryResultBody, valueField_eq hv hf]
  rfl

/-- R126, steps 1 to 4: the result is completed, the context becomes IDLE, the closing display is offered. -/
def sessionClosed (s : State) (p : Pos) (ss : Session) (o : EntryOutcome) (c : Cause) (t : Tone) : State :=
  displayUpdate
    (atEntry (completePromise s ss.result .entryResult 0 (some p) (resultBytes p ss o c)) p { s.entry[p] with sess := none }) p
    (if c = .unattended then { line1 := s.profile.closedText, line2 := s.profile.closedText }
      else { line1 := List.replicate 16 0x20, line2 := List.replicate 16 0x20 }) t

theorem completePromise_entry (s : State) (r : RecId) (k : NoticeKind) (q : Cls) (pos : Option Pos) (b : List Byte) :
    (completePromise s r k q pos b).entry = s.entry := by
  rw [completePromise_frame]

theorem completePromise_profile (s : State) (r : RecId) (k : NoticeKind) (q : Cls) (pos : Option Pos) (b : List Byte) :
    (completePromise s r k q pos b).profile = s.profile := by
  rw [completePromise_frame]

theorem sessionClosed_profile : (sessionClosed s p ss o c t).profile = s.profile :=
  (calm_displayUpdate _ p _ t).toQuiet.profile.trans
    (completePromise_profile s ss.result .entryResult 0 (some p) (resultBytes p ss o c))

theorem endSession_eq (hv : valueSound ss) (hf : fieldSound ss.field) :
    endSession s p ss o c t =
      if ss.field.isPin && s.profile.pinGuard != 0 then
        atEntry (sessionClosed s p ss o c t) p
          { (sessionClosed s p ss o c t).entry[p] with guardTimer := some (1000 * s.profile.pinGuard) }
      else sessionClosed s p ss o c t := by
  have hprofile (b : List Byte) (x : EntryCtx) :
      (atEntry (completePromise s ss.result .entryResult 0 (some p) b) p x).profile = s.profile :=
    completePromise_profile s ss.result .entryResult 0 (some p) b
  have hclosed : displayUpdate
      (atEntry (completePromise s ss.result .entryResult 0 (some p) (resultBytes p ss o c)) p { s.entry[p] with sess := none }) p
      (closingLines (atEntry (completePromise s ss.result .entryResult 0 (some p) (resultBytes p ss o c)) p
        { s.entry[p] with sess := none }) c) t = sessionClosed s p ss o c t := by
    rw [closingLines, hprofile]
    rfl
  simp only [endSession, entryResultBody_eq hv hf, modEntry_eq_atEntry, completePromise_entry, hclosed, sessionClosed_profile]
  rfl

theorem endSession_guarded (hv : valueSound ss) (hf : fieldSound ss.field) (hpin : ∃ lo hi, ss.field = .pin lo hi)
    (hg : s.profile.pinGuard ≠ 0) :
    endSession s p ss o c t = atEntry (sessionClosed s p ss o c t) p
      { (sessionClosed s p ss o c t).entry[p] with guardTimer := some (1000 * s.profile.pinGuard) } := by
  obtain ⟨lo, hi, hpin⟩ := hpin
  rw [endSession_eq hv hf, hpin, Field.isPin, Bool.true_and, if_pos (bne_iff_ne.mpr hg)]

theorem not_isPin {f : Field} (h : ∀ lo hi, f ≠ .pin lo hi) : f.isPin = false := by
  cases f with
  | pin lo hi => exact absurd rfl (h lo hi)
  | amount => rfl
  | digits => rfl
  | confirm => rfl

theorem endSession_unguarded (hv : valueSound ss) (hf : fieldSound ss.field)
    (h : (∀ lo hi, ss.field ≠ .pin lo hi) ∨ s.profile.pinGuard = 0) :
    endSession s p ss o c t = sessionClosed s p ss o c t := by
  rw [endSession_eq hv hf, if_neg]
  rcases h with h | h
  · rw [not_isPin h, Bool.false_and]
    exact Bool.false_ne_true
  · rw [h, bne_self_eq_false, Bool.and_false]
    exact Bool.false_ne_true

theorem abortSession_none (h : s.entry[p].sess = none) : abortSession s p c = s := by
  rw [abortSession, h]

theorem abortSession_some (h : s.entry[p].sess = some ss) : abortSession s p c = endSession s p ss .aborted c .none := by
  rw [abortSession, h]

theorem sessionTimesOut_eq (h : s.entry[p].sess = some ss) : sessionTimesOut s p c = endSession s p ss .timedOut c .none := by
  rw [sessionTimesOut, h]

theorem sessionTimer_of (h : s.entry[p].sess = some ss) (f : Session → Timer) : sessionTimer s.entry[p] f = f ss := by
  rw [sessionTimer, h]

theorem exec_firstKeyTimeout (hr : s.running = true) (h : s.entry[p].sess = some ss) (ht : ss.firstTimer = some 0) :
    exec (.firstKeyTimeout p) s = .next (settle (endSession s p ss .timedOut .firstKey .none)) := by
  rw [exec, execFirstKeyTimeout, sessionTimesOut_eq h, sessionTimer_of h, ht, hr, timerDue_zero, Bool.and_self, if_pos rfl]

theorem exec_interKeyTimeout (hr : s.running = true) (h : s.entry[p].sess = some ss) (ht : ss.interTimer = some 0) :
    exec (.interKeyTimeout p) s = .next (settle (endSession s p ss .timedOut .interKey .none)) := by
  rw [exec, execInterKeyTimeout, sessionTimesOut_eq h, sessionTimer_of h, ht, hr, timerDue_zero, Bool.and_self, if_pos rfl]

theorem entryCancelRule_idle (h : s.entry[p].sess = none) (sl : Slot) : entryCancelRule s p sl = refuse s .noSession := by
  rw [entryCancelRule, h, Option.isNone_none, if_pos rfl]

theorem entryCancelRule_open (h : s.entry[p].sess = some ss) (sl : Slot) :
    entryCancelRule s p sl = done (endSession s p ss .aborted .entryCancel .none) [] := by
  rw [entryCancelRule, abortSession_some h, h, Option.isNone_some, if_neg Bool.false_ne_true]

end

/-- Settles O47: the parts of an ending in their order, then each of its causes. -/
theorem sessionsEnd : Obligations.SessionsEnd := by
  unfold Obligations.SessionsEnd
  refine ⟨fun s v w p ss o c t hv hf hv' hw => ?_, fun s p c => ⟨abortSession_none, fun ss => abortSession_some⟩,
    fun s p ss hr hs => ⟨exec_firstKeyTimeout hr hs, exec_interKeyTimeout hr hs⟩,
    fun s i p h => ⟨fun hs => ?_, fun ss hs => ?_⟩, fun s i body h => ⟨fun hlen => ?_, fun b hb hbad => ?_⟩⟩
  · subst hv' hw
    exact ⟨endSession_guarded hv hf, endSession_unguarded hv hf⟩
  · exact exec_asks_refuse h (fun sl hsl => (positionBody_named hsl).trans (entryCancelRule_idle hs sl)) rfl
  · exact exec_asks_done h (fun sl hsl _ => (positionBody_named hsl).trans (entryCancelRule_open hs sl)) rfl
  · exact exec_asks_refuse h (fun sl hsl => positionBody_badLength (hsl ▸ hlen)) rfl
  · exact exec_asks_refuse h (fun sl hsl => positionBody_badParameter (hsl.trans hb) hbad) rfl

end Sys2Proof.Machine

/-! # Keys (R117 to R123, R130, R131, R164): O49 -/

namespace Sys2Proof.Machine

/-! ## Key codes (R198) -/

theorem keyOfCode_byteOf {n : Nat} (h : n ≤ 9) : keyOfCode (byteOf n) = .key (.digit n) := by
  have hn : (byteOf n).toNat = n := by rw [toNat_byteOf]; omega
  rw [keyOfCode, hn, if_pos h]

theorem keyOfCode_function (b : Byte) : keyOfCode b = .function ↔ 0x11 ≤ b.toNat ∧ b.toNat ≤ 0x14 := by
  simp only [keyOfCode]
  split_ifs <;> simp <;> omega

theorem keyOfCode_unknown (b : Byte) : keyOfCode b = .unknown ↔ b.toNat = 0x0F ∨ b.toNat = 0x10 ∨ 0x14 < b.toNat := by
  simp only [keyOfCode]
  split_ifs <;> simp <;> omega

theorem guarded_iff (b : Byte) : guarded b = true ↔ b.toNat ≤ 0x0A := by
  simp only [guarded, keyOfCode]
  split_ifs <;> simp <;> omega

/-! ## The fate of a taken key (R119 to R123) -/

/-- The model's name for an effect. -/
def KeyEffect.fate : KeyEffect → Fate
  | .accepts ss => .accepted ss
  | .refuses => .refused
  | .ends o c => .ends o c

theorem KeyEffect.fate_accepts (ss : Session) : (KeyEffect.accepts ss).fate = .accepted ss := rfl

theorem KeyEffect.fate_refuses : KeyEffect.refuses.fate = .refused := rfl

theorem KeyEffect.fate_ends (o : EntryOutcome) (c : Cause) : (KeyEffect.ends o c).fate = .ends o c := rfl

theorem KeyEffect.fate_ite {c : Prop} [Decidable c] (a b : KeyEffect) : (if c then a else b).fate = if c then a.fate else b.fate :=
  apply_ite _ _ _ _

theorem amountKey_eq (ss : Session) (maxV minV : Nat) (k : Key) : amountKey ss maxV minV k = (amountEffect ss maxV minV k).fate := by
  cases k <;> simp only [amountKey, amountEffect, KeyEffect.fate_ite, KeyEffect.fate_accepts, KeyEffect.fate_refuses,
    KeyEffect.fate_ends, Nat.mul_comm]

theorem digitsKey_eq (ss : Session) (lo hi : Nat) (pin : Bool) (k : Key) :
    digitsKey ss lo hi pin k = (listEffect ss lo hi pin k).fate := by
  cases k <;>
    simp only [digitsKey, listEffect, KeyEffect.fate_ite, KeyEffect.fate_accepts, KeyEffect.fate_refuses,
      KeyEffect.fate_ends, List.dropLast_eq_take, Bool.not_eq_true']

/-- R117: the model's fate of a key is its effect. -/
theorem keyFate_eq (ss : Session) (k : Key) : keyFate ss k = (keyEffect ss k).fate := by
  unfold keyFate keyEffect
  cases ss.field with
  | amount => exact amountKey_eq ..
  | digits => exact digitsKey_eq ..
  | pin => exact digitsKey_eq ..
  | confirm => cases k <;> rfl

/-! ## The codes of a frame (R117, R118, R130) -/

section
variable {s : State} {p : Pos} {e : EntryId} {c : Byte} {cs : List Byte} {taken buzz : Bool} {ss : Session} {k : Key}

theorem takeKeys_function (hs : s.entry[p].sess = some ss) (hc : keyOfCode c = .function) :
    takeKeys p e (c :: cs) taken buzz s = takeKeys p e cs taken buzz (keyNotice s p e [c]) := by
  simp only [takeKeys, hs, hc]

theorem takeKeys_unknown (hs : s.entry[p].sess = some ss) (hc : keyOfCode c = .unknown) :
    takeKeys p e (c :: cs) taken buzz s = takeKeys p e cs taken buzz s := by
  simp only [takeKeys, hs, hc]

theorem takeKeys_accepts {x : Session} (hs : s.entry[p].sess = some ss) (hc : keyOfCode c = .key k)
    (hk : keyEffect ss k = .accepts x) :
    takeKeys p e (c :: cs) taken buzz s =
      takeKeys p e cs true buzz (atEntry s p { s.entry[p] with sess := some (afterKey x) }) := by
  simp only [takeKeys, hs, hc, keyFate_eq, hk, KeyEffect.fate]
  rfl

theorem takeKeys_refuses (hs : s.entry[p].sess = some ss) (hc : keyOfCode c = .key k) (hk : keyEffect ss k = .refuses) :
    takeKeys p e (c :: cs) taken buzz s =
      takeKeys p e cs true true (atEntry s p { s.entry[p] with sess := some (afterKey ss) }) := by
  simp only [takeKeys, hs, hc, keyFate_eq, hk, KeyEffect.fate]
  rfl

theorem takeKeys_ends {o : EntryOutcome} {d : Cause} (hs : s.entry[p].sess = some ss) (hc : keyOfCode c = .key k)
    (hk : keyEffect ss k = .ends o d) :
    takeKeys p e (c :: cs) taken buzz s =
      frameRemainder (endSession s p ss o d (if buzz then .buzz else .click)) p e ss.field.isPin cs := by
  simp only [takeKeys, hs, hc, keyFate_eq, hk, KeyEffect.fate]

theorem takeKeys_none_taken (hs : s.entry[p].sess = some ss) : takeKeys p e [] false buzz s = s := by
  simp only [takeKeys, hs, Bool.false_eq_true, if_false]

theorem takeKeys_taken (hs : s.entry[p].sess = some ss) :
    takeKeys p e [] true buzz s = displayUpdate s p (sessionLines ss) (if buzz then .buzz else .click) := by
  simp only [takeKeys, hs, if_true]

theorem frameRemainder_discarded (h : cs = [] ∨ s.time.attended = false) : frameRemainder s p e false cs = s := by
  rw [frameRemainder, if_neg Bool.false_ne_true, if_pos]
  rcases h with h | h <;> rw [h]
  · rfl
  · exact Bool.or_true _

theorem frameRemainder_noticed (hne : cs ≠ []) (ha : s.time.attended = true) :
    frameRemainder s p e false cs = keyNotice s p e cs := by
  have hempty : cs.isEmpty = false := List.isEmpty_eq_false_iff.mpr hne
  rw [frameRemainder, if_neg Bool.false_ne_true, hempty, ha, if_neg (by decide)]

theorem pinRemainder_eq (s : State) (p : Pos) (e : EntryId) (cs : List Byte) :
    pinRemainder s p e cs =
      (cs.filter fun b => decide (0x11 ≤ b.toNat ∧ b.toNat ≤ 0x14)).foldl (fun t b => keyNotice t p e [b]) s := by
  induction cs generalizing s with
  | nil => rfl
  | cons c cs ih =>
    rw [pinRemainder, ih]
    by_cases hc : 0x11 ≤ c.toNat ∧ c.toNat ≤ 0x14
    · rw [if_pos ((keyOfCode_function c).mpr hc), List.filter_cons_of_pos (by simpa using hc), List.foldl_cons]
    · rw [if_neg (mt (keyOfCode_function c).mp hc), List.filter_cons_of_neg (by simpa using hc)]

end

/-! ## Keys under the guard (R131, R164) -/

section
variable {s v : State} {p : Pos} {e : EntryId} {codes : List Byte}

theorem filter_unguarded (codes : List Byte) :
    (codes.filter fun b => !guarded b) = codes.filter fun b => decide (0x0A < b.toNat) := by
  refine List.filter_congr fun b _ => ?_
  rw [Bool.eq_iff_iff, Bool.not_eq_true', ← Bool.not_eq_true, guarded_iff, decide_eq_true_iff, Nat.not_le]

theorem guardDiscards_iff : guardDiscards s codes = true ↔
    (s.time.attended = true ∧ ∃ b ∈ codes, b.toNat ≤ 0x0A) ∨ (s.time.attended = false ∧ codes ≠ []) := by
  unfold guardDiscards
  cases s.time.attended <;> simp [guarded_iff]

theorem guardDiscards_of (h : (∃ b ∈ codes, b.toNat ≤ 0x0A) ∨ (codes ≠ [] ∧ s.time.attended = false)) :
    guardDiscards s codes = true := by
  rw [guardDiscards_iff]
  cases ha : s.time.attended
  · rcases h with ⟨b, hb, -⟩ | ⟨hne, -⟩
    · exact .inr ⟨rfl, List.ne_nil_of_mem hb⟩
    · exact .inr ⟨rfl, hne⟩
  · rcases h with h | ⟨-, h⟩
    · exact .inl ⟨rfl, h⟩
    · exact absurd (ha.symm.trans h) (by decide)

theorem guardKeys_eq {kept : List Byte} (hkept : kept = codes.filter (fun b => decide (0x0A < b.toNat)))
    (hnone : kept = [] ∨ s.time.attended = false → v = s) (hsome : kept ≠ [] → s.time.attended = true → v = keyNotice s p e kept) :
    guardKeys s p e codes = if guardDiscards s codes then displayUpdate v p v.entry[p].wanted .buzz else v := by
  have hv : (if kept.isEmpty || !s.time.attended then s else keyNotice s p e kept) = v := by
    split
    · next h =>
      rw [Bool.or_eq_true, List.isEmpty_iff, Bool.not_eq_true'] at h
      exact (hnone h).symm
    · next h =>
      rw [Bool.or_eq_true, List.isEmpty_iff, Bool.not_eq_true', not_or, Bool.not_eq_false] at h
      exact (hsome h.1 h.2).symm
  unfold guardKeys
  simp only [filter_unguarded, ← hkept, hv]

end

/-! ## The KEY notice (R117) -/

theorem keyNotice_granted {s : State} {p : Pos} {e : EntryId} {codes : List Byte} (hm : memorySound s.pool) (hc : chunksSound s.pool)
    (ha : admissible s.profile s.pool 1 (chunksNeeded codes.length) .part) :
    ∃ (r : RecId) (pl q : Pool), granted s.pool pl r (ownKeys s codes.length) ∧ bodyWritten pl q r codes ∧
      keyNotice s p e codes =
        { s with
          pool := q
          w1 := s.w1 ++ [
            { record := r, kind := .key, tag := 0
              unit := some { identity := s.dir[e].identity, line := s.dir[e].line, addr := s.dir[e].addr, kind := s.dir[e].kind }
              pos := some p, witnessed := false, resent := false }] } := by
  obtain ⟨r, -, hg, hb, heq⟩ := admitBuilt_granted (.notice .key) 0 ha
  refine ⟨r, _, _, hg, hb hm hc, ?_⟩
  rw [keyNotice, heq]
  rfl

theorem keyNotice_refused {s : State} {p : Pos} {e : EntryId} {codes : List Byte} {x : Fin 9}
    (h : refusedAt s.profile s.pool 1 (chunksNeeded codes.length) .part x) :
    keyNotice s p e codes = { s with pool := counted s.pool x } := by
  rw [keyNotice, admitBuilt_refused (.notice .key) 0 h]

/-! ## What a session shows (R118, R120 to R123) -/

theorem fixedDigits_eq (k v : Nat) : fixedDigits k v = (List.range k).map fun j => v / 10 ^ (k - 1 - j) % 10 := by
  induction k generalizing v with
  | zero => rfl
  | succ k ih =>
    rw [fixedDigits, ih, List.range_succ, List.map_append]
    congr 1
    · refine List.map_congr_left fun j hj => ?_
      have hj : j < k := List.mem_range.mp hj
      rw [Nat.div_div_eq_div_mul, ← Nat.pow_succ', show (k - 1 - j).succ = k + 1 - 1 - j by omega]
    · simp

theorem decDigits_eq (fuel n v : Nat) (hv : v < 10 ^ n) (h1 : 1 ≤ n) (hn : n ≤ fuel + 1) (hlow : n = 1 ∨ 10 ^ (n - 1) ≤ v) :
    decDigits fuel v = fixedDigits n v := by
  induction fuel generalizing n v with
  | zero =>
    obtain rfl : n = 1 := by omega
    rfl
  | succ fuel ih =>
    obtain ⟨m, rfl⟩ : ∃ m, n = m + 1 := ⟨n - 1, by omega⟩
    rw [decDigits, fixedDigits]
    split
    · next hsmall =>
      have hm : m = 0 := by
        by_contra hne
        have hten : 10 ^ 1 ≤ 10 ^ m := Nat.pow_le_pow_right (by omega) (by omega)
        rcases hlow with h | h
        · omega
        · rw [Nat.add_sub_cancel] at h
          omega
      subst hm
      rw [fixedDigits, List.nil_append, Nat.mod_eq_of_lt hsmall]
    · next hbig =>
      have hm : m ≠ 0 := fun h => by subst h; omega
      rw [ih m (v / 10) (by rw [Nat.pow_succ] at hv; omega) (by omega) (by omega)]
      obtain ⟨i, rfl⟩ := Nat.exists_eq_succ_of_ne_zero hm
      refine .inr ?_
      have h : 10 ^ (i + 1) ≤ v := hlow.resolve_left (by omega)
      rw [Nat.pow_succ] at h
      rw [Nat.succ_eq_add_one, Nat.add_sub_cancel]
      omega

/-- R120: the amount text, n digits before the point. -/
theorem amountText_eq {k v n : Nat} (hv : v / 10 ^ k < 10 ^ n) (h1 : 1 ≤ n) (hn : n ≤ 13) (hlow : n = 1 ∨ 10 ^ (n - 1) ≤ v / 10 ^ k) :
    amountText k v = ((List.range n).map fun j => byteOf (0x30 + v / 10 ^ k / 10 ^ (n - 1 - j) % 10))
      ++ (if k = 0 then [] else
        0x2E :: (List.range k).map fun j => byteOf (0x30 + v % 10 ^ k / 10 ^ (k - 1 - j) % 10)) := by
  rw [amountText, decDigits_eq 12 n _ hv h1 hn hlow, fixedDigits_eq, fixedDigits_eq, List.map_map, List.map_map]
  rfl

theorem starLine_eq (n : Nat) : starLine n = List.replicate (min 16 n) 0x2A ++ List.replicate (16 - n) 0x20 := by
  rw [starLine, padTo_of_le (by rw [List.length_replicate]; omega), List.length_replicate, show 16 - min 16 n = 16 - n by omega]

/-- R121: the last sixteen digits. -/
theorem digitsLine_eq (ds : List Nat) : ∃ shown : List Nat, shown <:+ ds ∧ shown.length = min 16 ds.length ∧
    padTo 16 0x20 ((ds.drop (ds.length - 16)).map digitChar) =
      (shown.map fun d => byteOf (0x30 + d)) ++ List.replicate (16 - shown.length) 0x20 := by
  have hlen : (ds.drop (ds.length - 16)).length = min 16 ds.length := by rw [List.length_drop]; omega
  refine ⟨ds.drop (ds.length - 16), List.drop_suffix _ _, hlen, ?_⟩
  rw [padTo_of_le (by rw [List.length_map]; omega), List.length_map]
  rfl

/-- Settles O49: the codes one by one, then the guard, the KEY notice, and the lines of a session. -/
theorem keysEditTheValue : Obligations.KeysEditTheValue := by
  unfold Obligations.KeysEditTheValue
  refine ⟨⟨fun n => keyOfCode_byteOf, rfl, rfl, rfl, rfl, rfl, fun b => ⟨keyOfCode_function b, keyOfCode_unknown b⟩⟩,
    fun s p e c cs taken buzz ss hs => ⟨takeKeys_function hs, takeKeys_unknown hs, fun k hc => ⟨fun x => takeKeys_accepts hs hc,
      takeKeys_refuses hs hc, fun o d v hk hv => ⟨fun hpin => ⟨fun hd => ?_, fun hne ha => ?_⟩, fun hpin => ?_⟩⟩⟩,
    fun s p e buzz ss hs => ⟨takeKeys_none_taken hs, takeKeys_taken hs⟩,
    fun s v p e codes kept hkept hnone hsome => ⟨fun hd => ?_, fun hall hd => ?_⟩,
    fun s p e codes => ⟨keyNotice_granted, fun x => keyNotice_refused⟩,
    fun ss => ⟨rfl, fun k maxV minV n hf hv h1 hn hlow => ?_, fun lo hi hf => ?_, fun lo hi hf => ?_, fun hf => ?_⟩⟩
  · rw [takeKeys_ends hs hc hk, ← hv, not_isPin hpin, frameRemainder_discarded hd]
  · rw [takeKeys_ends hs hc hk, ← hv, not_isPin hpin, frameRemainder_noticed hne ha]
  · obtain ⟨lo, hi, hf⟩ := hpin
    rw [takeKeys_ends hs hc hk, ← hv, hf, Field.isPin, frameRemainder, if_pos rfl, pinRemainder_eq]
  · rw [guardKeys_eq hkept hnone hsome, guardDiscards_of hd, if_pos rfl]
  · rw [guardKeys_eq hkept hnone hsome, if_neg]
    rw [guardDiscards_iff]
    rintro (⟨-, b, hb, hle⟩ | ⟨ha, hne⟩)
    · exact absurd hle (Nat.not_le.mpr (hall b hb))
    · rcases hd with h | h
      · exact hne h
      · exact absurd (ha.symm.trans h) (by decide)
  · refine ⟨amountText k ss.value, amountText_eq hv h1 hn hlow, ?_⟩
    rw [sessionLines, sessionLine2, hf]
    rfl
  · rw [sessionLines, sessionLine2, hf]
    exact digitsLine_eq ss.digits
  · rw [sessionLines, sessionLine2]
    rcases hf with hf | hf <;> rw [hf] <;> exact starLine_eq ss.digits.length
  · rw [sessionLines, sessionLine2, hf]
    rfl

end Sys2Proof.Machine

/-! # ENTRY_OPEN (R114 to R116, R124): O46 -/

namespace Sys2Proof.Machine

/-! ## The field kind and its parameters (R115, R203) -/

theorem byteAt_drop (b : List Byte) (n i : Nat) : byteAt b (n + i) = byteAt (b.drop n) i := by
  rw [byteAt, byteAt, List.getD_eq_getElem?_getD, List.getD_eq_getElem?_getD, List.getElem?_drop]

theorem numAt_drop (b : List Byte) (n i k : Nat) : numAt b (n + i) k = numAt (b.drop n) i k := by
  rw [numAt, numAt, bytesAt, bytesAt, List.drop_drop]

theorem leNat_leBytes_of_lt {k n : Nat} (h : n < 256 ^ k) : leNat (leBytes k n) = n := by
  rw [leNat_leBytes, Nat.mod_eq_of_lt h]

theorem toNat_byteOf_of_lt {n : Nat} (h : n < 256) : (byteOf n).toNat = n := by
  rw [toNat_byteOf, Nat.mod_eq_of_lt h]

section
variable {b : List Byte} {f : Field}

theorem parseField_amount {d maxV minV : Nat} (hc : byteAt b 1 = 1) (hf : fieldSound (.amount d maxV minV))
    (hb : b.drop 24 = fieldBytes (.amount d maxV minV)) : parseField b = some (.amount d maxV minV) := by
  have hsound := hf
  obtain ⟨hd, -, hmax, hmin⟩ := hf
  have h24 : (byteAt b 24).toNat = d := by
    rw [byteAt_drop b 24 0, hb]
    exact toNat_byteOf_of_lt (by omega)
  have h25 : numAt b 25 6 = maxV := by
    rw [numAt_drop b 24 1, hb]
    exact leNat_leBytes_of_lt (k := 6) (n := maxV) (by omega)
  have h31 : numAt b 31 6 = minV := by
    rw [numAt_drop b 24 7, hb]
    exact leNat_leBytes_of_lt (k := 6) (n := minV) (by omega)
  rw [parseField, hc, if_pos rfl, h24, h25, h31]
  exact if_pos hsound

theorem parseField_digits {lo hi : Nat} {mask : Bool} (hc : byteAt b 1 = 2) (hf : fieldSound (.digits lo hi mask))
    (hb : b.drop 24 = fieldBytes (.digits lo hi mask)) : parseField b = some (.digits lo hi mask) := by
  obtain ⟨hlo, hlohi, hhi⟩ := hf
  have h24 : (byteAt b 24).toNat = lo := by
    rw [byteAt_drop b 24 0, hb]
    exact toNat_byteOf_of_lt (by omega)
  have h25 : (byteAt b 25).toNat = hi := by
    rw [byteAt_drop b 24 1, hb]
    exact toNat_byteOf_of_lt (by omega)
  have h26 : byteAt b 26 = if mask then 1 else 0 := by
    rw [byteAt_drop b 24 2, hb]
    rfl
  have hmask : (byteAt b 26).toNat ≤ 1 ∧ (byteAt b 26 == 1) = mask := by
    rw [h26]
    cases mask <;> decide
  rw [parseField, hc, if_neg (by decide), if_pos rfl, h24, h25, hmask.2]
  exact if_pos ⟨hlo, hlohi, hhi, hmask.1⟩

theorem parseField_pin {lo hi : Nat} (hc : byteAt b 1 = 3) (hf : fieldSound (.pin lo hi))
    (hb : b.drop 24 = fieldBytes (.pin lo hi)) : parseField b = some (.pin lo hi) := by
  have hsound := hf
  obtain ⟨hlo, hlohi, hhi⟩ := hf
  have h24 : (byteAt b 24).toNat = lo := by
    rw [byteAt_drop b 24 0, hb]
    exact toNat_byteOf_of_lt (by omega)
  have h25 : (byteAt b 25).toNat = hi := by
    rw [byteAt_drop b 24 1, hb]
    exact toNat_byteOf_of_lt (by omega)
  rw [parseField, hc, if_neg (by decide), if_neg (by decide), if_pos rfl, h24, h25]
  exact if_pos hsound

/-- R115, R203: a sound field is read back from its bytes. -/
theorem parseField_fieldBytes (hc : byteAt b 1 = f.code) (hf : fieldSound f) (hb : b.drop 24 = fieldBytes f) :
    parseField b = some f := by
  cases f with
  | amount d maxV minV => exact parseField_amount hc hf hb
  | digits lo hi mask => exact parseField_digits hc hf hb
  | pin lo hi => exact parseField_pin hc hf hb
  | confirm =>
    rw [parseField, hc, if_neg (by decide), if_neg (by decide), if_neg (by decide)]
    rfl

/-- R203: the body length that a field kind asks for. -/
def lengthSuits (k : Byte) (n : Nat) : Prop := (k = 1 ∧ n = 37) ∨ (k = 2 ∧ n = 27) ∨ (k = 3 ∧ n = 26) ∨ (k = 4 ∧ n = 24)

theorem fieldBytes_amount {tail : List Byte} (h : tail.length = 13) :
    tail = fieldBytes (.amount (byteAt tail 0).toNat (numAt tail 1 6) (numAt tail 7 6)) := by
  obtain ⟨x, rest, rfl⟩ := List.exists_cons_of_length_eq_add_one h
  have hrest : rest.length = 12 := by simpa using h
  have hmax : leBytes 6 (numAt (x :: rest) 1 6) = rest.take 6 := by
    have hlen : (rest.take 6).length = 6 := by rw [List.length_take]; omega
    have hback := leBytes_leNat (rest.take 6)
    rw [hlen] at hback
    exact hback
  have hmin : leBytes 6 (numAt (x :: rest) 7 6) = rest.drop 6 := by
    have hlen : (rest.drop 6).length = 6 := by rw [List.length_drop]; omega
    have htake : bytesAt (x :: rest) 7 6 = rest.drop 6 := List.take_of_length_le (by rw [List.drop_succ_cons]; omega)
    have hback := leBytes_leNat (rest.drop 6)
    rw [hlen] at hback
    rw [numAt, htake, hback]
  have hhead : byteOf (byteAt (x :: rest) 0).toNat = x := byteOf_toNat x
  rw [fieldBytes, hmax, hmin, hhead, List.cons_append, List.take_append_drop]

/-- R115, R203: what is read is a sound field, and the body carries its bytes. -/
theorem parseField_sound (hk : lengthSuits (byteAt b 1) b.length) (h : parseField b = some f) :
    fieldSound f ∧ b.drop 24 = fieldBytes f := by
  have htail : (b.drop 24).length = b.length - 24 := List.length_drop
  unfold parseField at h
  rcases hk with ⟨hk, hlen⟩ | ⟨hk, hlen⟩ | ⟨hk, hlen⟩ | ⟨hk, hlen⟩
  · rw [hk, if_pos rfl] at h
    obtain ⟨hok, hf⟩ := Option.ite_none_right_eq_some.mp h
    obtain rfl := Option.some.inj hf
    refine ⟨hok, ?_⟩
    rw [byteAt_drop b 24 0, numAt_drop b 24 1, numAt_drop b 24 7]
    exact fieldBytes_amount (by omega)
  · rw [hk, if_neg (by decide), if_pos rfl] at h
    obtain ⟨⟨hlo, hlohi, hhi, hmask⟩, hf⟩ := Option.ite_none_right_eq_some.mp h
    obtain rfl := Option.some.inj hf
    refine ⟨⟨hlo, hlohi, hhi⟩, ?_⟩
    rw [byteAt_drop b 24 0, byteAt_drop b 24 1, byteAt_drop b 24 2] at *
    obtain ⟨x, y, z, hxyz⟩ := List.length_eq_three.mp (htail.trans (by omega) : (b.drop 24).length = 3)
    rw [hxyz] at hmask ⊢
    have hz : z = if z == 1 then 1 else 0 := by
      have hmask : z.toNat ≤ 1 := hmask
      have hcases : z = 0 ∨ z = 1 := by clear hlo hlohi hhi h; bv_omega
      rcases hcases with rfl | rfl <;> rfl
    rw [fieldBytes, byteOf_toNat, byteOf_toNat]
    exact congrArg (fun w => [x, y, w]) hz
  · rw [hk, if_neg (by decide), if_neg (by decide), if_pos rfl] at h
    obtain ⟨hok, hf⟩ := Option.ite_none_right_eq_some.mp h
    obtain rfl := Option.some.inj hf
    refine ⟨hok, ?_⟩
    rw [byteAt_drop b 24 0, byteAt_drop b 24 1]
    obtain ⟨x, y, hxy⟩ := List.length_eq_two.mp (htail.trans (by omega) : (b.drop 24).length = 2)
    rw [hxy, fieldBytes, byteOf_toNat, byteOf_toNat]
    rfl
  · rw [hk, if_neg (by decide), if_neg (by decide), if_neg (by decide), if_pos rfl] at h
    obtain rfl := Option.some.inj h
    exact ⟨trivial, List.eq_nil_of_length_eq_zero (by omega)⟩

/-! ## The checks on the body (R114) -/

theorem entryLengthOk_of (h : lengthSuits (byteAt b 1) b.length) : entryLengthOk b = true := by
  unfold entryLengthOk
  rcases h with ⟨hk, hlen⟩ | ⟨hk, hlen⟩ | ⟨hk, hlen⟩ | ⟨hk, hlen⟩ <;> rw [hk, hlen] <;> decide

theorem fieldKindOk_of (h : lengthSuits (byteAt b 1) b.length) : fieldKindOk (byteAt b 1) = true := by
  rcases h with ⟨hk, -⟩ | ⟨hk, -⟩ | ⟨hk, -⟩ | ⟨hk, -⟩ <;> rw [hk] <;> decide

theorem entryLengthOk_false (h : b.length < 2 ∨ (byteAt b 1 = 1 ∧ b.length ≠ 37) ∨ (byteAt b 1 = 2 ∧ b.length ≠ 27) ∨
    (byteAt b 1 = 3 ∧ b.length ≠ 26) ∨ (byteAt b 1 = 4 ∧ b.length ≠ 24)) : entryLengthOk b = false := by
  unfold entryLengthOk
  rcases h with h | ⟨hk, hlen⟩ | ⟨hk, hlen⟩ | ⟨hk, hlen⟩ | ⟨hk, hlen⟩
  · rw [decide_eq_false (by omega), Bool.false_and]
  · rw [hk, if_pos rfl, beq_eq_false_iff_ne.mpr hlen, Bool.and_false]
  · rw [hk, if_neg (by decide), if_pos rfl, beq_eq_false_iff_ne.mpr hlen, Bool.and_false]
  · rw [hk, if_neg (by decide), if_neg (by decide), if_pos rfl, beq_eq_false_iff_ne.mpr hlen, Bool.and_false]
  · rw [hk, if_neg (by decide), if_neg (by decide), if_neg (by decide), if_pos rfl, beq_eq_false_iff_ne.mpr hlen, Bool.and_false]

theorem entryLengthOk_unnamed (hlen : 2 ≤ b.length) (hk : byteAt b 1 = 0 ∨ 4 < (byteAt b 1).toNat) : entryLengthOk b = true := by
  unfold entryLengthOk
  rw [decide_eq_true hlen, Bool.true_and, if_neg (by bv_omega), if_neg (by bv_omega), if_neg (by bv_omega), if_neg (by bv_omega)]

theorem fieldKindOk_unnamed {k : Byte} (h : k = 0 ∨ 4 < k.toNat) : fieldKindOk k = false := decide_eq_false (by bv_omega)

end

/-! ## The keypad (R114, third check) -/

theorem openKeypad_some {s : State} {p : Pos} {e : EntryId} : openKeypad s p = some e ↔ servesSessions s p e := by
  unfold openKeypad servesSessions
  cases hslot : slotOf s .keypad p with
  | none => simp
  | some x =>
    simp only [Option.ite_none_right_eq_some, Bool.and_eq_true, targetable, Bool.or_eq_true, beq_iff_eq, Bool.not_eq_true',
      State.lineStopped, beq_eq_false_iff_ne, Option.some.injEq]
    constructor
    · rintro ⟨h, rfl⟩
      exact ⟨rfl, h⟩
    · rintro ⟨rfl, h⟩
      exact ⟨h, rfl⟩

theorem openKeypad_none {s : State} {p : Pos} (h : ∀ e : EntryId, ¬ servesSessions s p e) : openKeypad s p = none :=
  Option.eq_none_iff_forall_ne_some.mpr fun e he => h e (openKeypad_some.mp he)

/-! ## The rule (R114 to R116) -/

section
variable {s : State} {sl : Slot} {p : Pos} {e : EntryId}

theorem entryOpenRule_badLength (h : entryLengthOk sl.body = false) : entryOpenRule s sl = refuse s .badLength := by
  simp only [entryOpenRule, h, Bool.not_false, if_true]

theorem entryOpenRule_badKind (hlen : entryLengthOk sl.body = true) (hk : fieldKindOk (byteAt sl.body 1) = false) :
    entryOpenRule s sl = refuse s .badParameter := by
  simp only [entryOpenRule, hlen, hk, Bool.not_true, Bool.not_false, Bool.false_eq_true, if_true, if_false]

theorem entryOpenRule_badPosition (hb : lengthSuits (byteAt sl.body 1) sl.body.length) (hp : posOfByte (byteAt sl.body 0) = none) :
    entryOpenRule s sl = refuse s .badParameter := by
  simp only [entryOpenRule, entryLengthOk_of hb, fieldKindOk_of hb, hp, Bool.not_true, Bool.false_eq_true, if_false]

theorem entryOpenRule_noKeypad (hb : lengthSuits (byteAt sl.body 1) sl.body.length) (hp : posOfByte (byteAt sl.body 0) = some p)
    (h : ∀ e : EntryId, ¬ servesSessions s p e) : entryOpenRule s sl = refuse s .noSuchUnit := by
  simp only [entryOpenRule, entryLengthOk_of hb, fieldKindOk_of hb, hp, openKeypad_none h, Bool.not_true, Bool.false_eq_true,
    if_false]

theorem entryOpenRule_busy (hb : lengthSuits (byteAt sl.body 1) sl.body.length) (hp : posOfByte (byteAt sl.body 0) = some p)
    (he : servesSessions s p e) (hs : s.entry[p].sess ≠ none) : entryOpenRule s sl = refuse s .sessionBusy := by
  simp only [entryOpenRule, entryLengthOk_of hb, fieldKindOk_of hb, hp, openKeypad_some.mpr he, Option.isSome_iff_ne_none.mpr hs,
    Bool.not_true, Bool.false_eq_true, if_false, if_true]

theorem entryOpenRule_badField (hb : lengthSuits (byteAt sl.body 1) sl.body.length) (hp : posOfByte (byteAt sl.body 0) = some p)
    (he : servesSessions s p e) (hs : s.entry[p].sess = none)
    (hf : 3 < (byteAt sl.body 20).toNat ∨ parseField sl.body = none) : entryOpenRule s sl = refuse s .badParameter := by
  simp only [entryOpenRule, entryLengthOk_of hb, fieldKindOk_of hb, hp, openKeypad_some.mpr he, hs, Option.isSome_none,
    Bool.not_true, Bool.false_eq_true, if_false]
  split
  · rfl
  · next hm => rw [hf.resolve_left hm]

variable {f : Field} {s1 : State}

theorem entryOpenRule_noPromise (hb : lengthSuits (byteAt sl.body 1) sl.body.length)
    (hp : posOfByte (byteAt sl.body 0) = some p) (he : servesSessions s p e) (hs : s.entry[p].sess = none)
    (hm : (byteAt sl.body 20).toNat ≤ 3) (hf : parseField sl.body = some f)
    (hr : reserve s .entryResult sl.tag = (s1, none)) : entryOpenRule s sl = refuse s1 .poolFull := by
  simp only [entryOpenRule, entryLengthOk_of hb, fieldKindOk_of hb, hp, openKeypad_some.mpr he, hs, Option.isSome_none,
    Nat.not_lt.mpr hm, hf, hr, Bool.not_true, Bool.false_eq_true, if_false]

theorem entryOpenRule_promised {r : RecId} (hb : lengthSuits (byteAt sl.body 1) sl.body.length)
    (hp : posOfByte (byteAt sl.body 0) = some p) (he : servesSessions s p e) (hs : s.entry[p].sess = none)
    (hm : (byteAt sl.body 20).toNat ≤ 3) (hf : parseField sl.body = some f)
    (hr : reserve s .entryResult sl.tag = (s1, some r)) :
    entryOpenRule s sl =
      doneClamped (openSession s1 p (openedSession s1 sl.body f r sl.tag e))
        (timeoutClamped (byteAt sl.body 2).toNat 120 || timeoutClamped (byteAt sl.body 3).toNat 60)
        [byteOf (openedSession s1 sl.body f r sl.tag e).firstKey, byteOf (openedSession s1 sl.body f r sl.tag e).interKey] := by
  simp only [entryOpenRule, entryLengthOk_of hb, fieldKindOk_of hb, hp, openKeypad_some.mpr he, hs, Option.isSome_none,
    Nat.not_lt.mpr hm, hf, hr, Bool.not_true, Bool.false_eq_true, if_false]

end

/-! ## The body with its fields (R203) -/

section
variable {p : Pos} {f : Field} {t1 t2 m : Byte} {prompt pfx : List Byte}

theorem drop_openBody_twenty (h : prompt.length = 16) :
    (openBody p f t1 t2 prompt m pfx).drop 20 = m :: (pfx ++ fieldBytes f) := by
  have hshape : openBody p f t1 t2 prompt m pfx =
      (byteOf (p.val + 1) :: f.code :: t1 :: t2 :: prompt) ++ (m :: (pfx ++ fieldBytes f)) := by
    simp [openBody]
  rw [hshape]
  exact List.drop_left' (by simp [h])

theorem byteAt_openBody_twenty (h : prompt.length = 16) : byteAt (openBody p f t1 t2 prompt m pfx) 20 = m := by
  rw [byteAt_drop _ 20 0, drop_openBody_twenty h]
  rfl

theorem drop_openBody_tail (h : prompt.length = 16) : (openBody p f t1 t2 prompt m pfx).drop 21 = pfx ++ fieldBytes f := by
  rw [← List.drop_drop (i := 1) (j := 20), drop_openBody_twenty h]
  rfl

theorem drop_openBody_field (h : prompt.length = 16) (hx : pfx.length = 3) :
    (openBody p f t1 t2 prompt m pfx).drop 24 = fieldBytes f := by
  rw [← List.drop_drop (i := 3) (j := 21), drop_openBody_tail h]
  exact List.drop_left' hx

theorem bytesAt_openBody_prompt (h : prompt.length = 16) : bytesAt (openBody p f t1 t2 prompt m pfx) 4 16 = prompt := by
  have hdrop : (openBody p f t1 t2 prompt m pfx).drop 4 = prompt ++ (m :: (pfx ++ fieldBytes f)) := by simp [openBody]
  rw [bytesAt, hdrop]
  exact List.take_left' h

theorem bytesAt_openBody_prefix (h : prompt.length = 16) (hx : pfx.length = 3) (hm : m.toNat ≤ 3) :
    bytesAt (openBody p f t1 t2 prompt m pfx) 21 m.toNat = pfx.take m.toNat := by
  rw [bytesAt, drop_openBody_tail h]
  exact List.take_append_of_le_length (by omega)

theorem lengthSuits_openBody (h : prompt.length = 16) (hx : pfx.length = 3) :
    lengthSuits (byteAt (openBody p f t1 t2 prompt m pfx) 1) (openBody p f t1 t2 prompt m pfx).length := by
  have hcode : byteAt (openBody p f t1 t2 prompt m pfx) 1 = f.code := by simp [openBody, byteAt]
  have hlen : (openBody p f t1 t2 prompt m pfx).length = 24 + (fieldBytes f).length := by
    simp [openBody, h, hx]
    omega
  rw [hcode, hlen]
  cases f <;> simp [lengthSuits, Field.code, fieldBytes]

theorem parseField_openBody (hf : fieldSound f) (h : prompt.length = 16) (hx : pfx.length = 3) :
    parseField (openBody p f t1 t2 prompt m pfx) = some f :=
  parseField_fieldBytes (by simp [openBody, byteAt]) hf (drop_openBody_field h hx)

theorem posOfByte_openBody : posOfByte (byteAt (openBody p f t1 t2 prompt m pfx) 0) = some p := by
  have hbyte : byteAt (openBody p f t1 t2 prompt m pfx) 0 = byteOf (p.val + 1) := by simp [openBody, byteAt]
  rw [hbyte, posOfByte_posByte]

theorem takenTimeout_eq (t : Byte) (dflt : Nat) {hi : Nat} (h : 1 ≤ hi) : takenTimeout t.toNat dflt hi = timeoutTaken t dflt hi := by
  unfold takenTimeout timeoutTaken
  by_cases ht : t = 0
  · rw [if_pos ht, if_pos (by rw [ht]; rfl)]
  · have hne : t.toNat ≠ 0 := by bv_omega
    rw [if_neg ht, if_neg hne]
    omega

/-- R116, step 3: the session that opens. -/
theorem openedSession_openBody (s : State) (r : RecId) (tag : Byte) (e : EntryId) (h : prompt.length = 16) (hx : pfx.length = 3)
    (hm : m.toNat ≤ 3) : openedSession s (openBody p f t1 t2 prompt m pfx) f r tag e =
      { active := false, field := f, value := 0, digits := [], prompt := prompt, pfx := pfx.take m.toNat
        firstKey := timeoutTaken t1 s.profile.firstKey 120, interKey := timeoutTaken t2 s.profile.interKey 60
        firstTimer := some (1000 * timeoutTaken t1 s.profile.firstKey 120), interTimer := none, result := r
        tag := tag, keypad := e, keypadId := s.dir[e].identity, witness := !f.isPin } := by
  have h2 : byteAt (openBody p f t1 t2 prompt m pfx) 2 = t1 := by simp [openBody, byteAt]
  have h3 : byteAt (openBody p f t1 t2 prompt m pfx) 3 = t2 := by simp [openBody, byteAt]
  simp only [openedSession, byteAt_openBody_twenty h, bytesAt_openBody_prompt h, bytesAt_openBody_prefix h hx hm, h2, h3,
    takenTimeout_eq _ _ (show 1 ≤ 120 by decide), takenTimeout_eq _ _ (show 1 ≤ 60 by decide), armSec]

theorem timeoutClamped_openBody :
    (timeoutClamped (byteAt (openBody p f t1 t2 prompt m pfx) 2).toNat 120 ||
      timeoutClamped (byteAt (openBody p f t1 t2 prompt m pfx) 3).toNat 60) = decide (120 < t1.toNat ∨ 60 < t2.toNat) := by
  have h2 : byteAt (openBody p f t1 t2 prompt m pfx) 2 = t1 := by simp [openBody, byteAt]
  have h3 : byteAt (openBody p f t1 t2 prompt m pfx) 3 = t2 := by simp [openBody, byteAt]
  rw [h2, h3, timeoutClamped, timeoutClamped, ← Bool.decide_or]

end

theorem openSession_eq (s : State) (p : Pos) (ss : Session) :
    openSession s p ss = displayUpdate
      (atEntry s p { s.entry[p] with sess := some ss, guardTimer := none, target := some (ss.keypad, ss.keypadId) }) p
      (sessionLines ss) .none := rfl

/-- R116: the session opens, its result promised. -/
theorem entryOpenRule_opens {s s1 : State} {sl : Slot} {p : Pos} {e : EntryId} {f : Field} {t1 t2 m : Byte} {prompt pfx : List Byte}
    {r : RecId} (hb : sl.body = openBody p f t1 t2 prompt m pfx) (hf : fieldSound f) (h : prompt.length = 16) (hx : pfx.length = 3)
    (hm : m.toNat ≤ 3) (he : servesSessions s p e) (hs : s.entry[p].sess = none) (hr : reserve s .entryResult sl.tag = (s1, some r)) :
    entryOpenRule s sl =
      doneClamped (openSession s1 p (openedSession s1 (openBody p f t1 t2 prompt m pfx) f r sl.tag e))
        (decide (120 < t1.toNat ∨ 60 < t2.toNat))
        [byteOf (openedSession s1 (openBody p f t1 t2 prompt m pfx) f r sl.tag e).firstKey,
          byteOf (openedSession s1 (openBody p f t1 t2 prompt m pfx) f r sl.tag e).interKey] := by
  rw [entryOpenRule_promised (hb ▸ lengthSuits_openBody h hx) (hb ▸ posOfByte_openBody) he hs
    (hb ▸ (byteAt_openBody_twenty h).symm ▸ hm) (hb ▸ parseField_openBody hf h hx) hr, hb, timeoutClamped_openBody]

/-- Settles O46: the checks of R114 in their order, then the promise, then the session and its opening display. -/
theorem sessionsOpen : Obligations.SessionsOpen := by
  unfold Obligations.SessionsOpen
  refine ⟨fun s i p f t1 t2 m prompt pfx h hf hprompt hpfx hm => ⟨fun hnone => ?_, fun e he => ⟨fun hs => ?_,
      fun hs => ⟨fun x hx => ?_, fun hadm => ?_⟩⟩⟩,
    fun s i body k h hk hlen => ?_, fun s i body k h hk hlen hkind => ?_,
    fun s i body k h hk hlen => ⟨fun hpos => ?_, fun p hp => ⟨fun hnone => ?_, fun e he => ⟨fun hs => ?_, fun hs hbad => ?_⟩⟩⟩⟩
  · exact exec_asks_refuse h (fun sl hsl => entryOpenRule_noKeypad (hsl ▸ lengthSuits_openBody hprompt hpfx)
      (hsl ▸ posOfByte_openBody) hnone) rfl
  · exact exec_asks_refuse h (fun sl hsl => entryOpenRule_busy (hsl ▸ lengthSuits_openBody hprompt hpfx)
      (hsl ▸ posOfByte_openBody) he hs) rfl
  · refine exec_asks_refused h (fun sl hsl _ => ?_) rfl
    exact entryOpenRule_noPromise (hsl ▸ lengthSuits_openBody hprompt hpfx) (hsl ▸ posOfByte_openBody) he hs
      (hsl ▸ (byteAt_openBody_twenty hprompt).symm ▸ hm) (hsl ▸ parseField_openBody hf hprompt hpfx)
      (reserve_refused (k := .entryResult) hx)
  · obtain ⟨r, -, hg, -, heq⟩ := reserve_granted (k := .entryResult) s.link.slots[i].tag hadm
    obtain ⟨-, -, hbody⟩ := id h
    refine ⟨r, _, openedSession s (openBody p f t1 t2 prompt m pfx) f r s.link.slots[i].tag e, hg, ?_,
      (exec_asks_clamped h (entryOpenRule_opens hbody hf hprompt hpfx hm he hs heq) rfl).trans ?_⟩
    · rw [openedSession_openBody _ r _ e hprompt hpfx hm]
      cases f <;> rfl
    · simp only [decide_eq_true_eq]
      rfl
  · subst hk
    exact exec_asks_refuse h (fun sl hsl => entryOpenRule_badLength (hsl ▸ entryLengthOk_false hlen)) rfl
  · subst hk
    exact exec_asks_refuse h (fun sl hsl => entryOpenRule_badKind (hsl ▸ entryLengthOk_unnamed hlen hkind)
      (hsl ▸ fieldKindOk_unnamed hkind)) rfl
  · subst hk
    exact exec_asks_refuse h (fun sl hsl => entryOpenRule_badPosition (hsl ▸ hlen) (hsl ▸ posOfByte_eq_none hpos)) rfl
  · subst hk
    exact exec_asks_refuse h (fun sl hsl => entryOpenRule_noKeypad (hsl ▸ hlen) (hsl ▸ hp ▸ posOfByte_posByte p) hnone) rfl
  · subst hk
    exact exec_asks_refuse h (fun sl hsl => entryOpenRule_busy (hsl ▸ hlen) (hsl ▸ hp ▸ posOfByte_posByte p) he hs) rfl
  · subst hk
    refine exec_asks_refuse h (fun sl hsl => entryOpenRule_badField (hsl ▸ hlen) (hsl ▸ hp ▸ posOfByte_posByte p) he hs ?_) rfl
    rw [hsl]
    refine hbad.imp_right fun hno => Option.eq_none_iff_forall_ne_some.mpr fun f hf => ?_
    obtain ⟨hsound, hbytes⟩ := parseField_sound hlen hf
    exact hno f hsound hbytes

end Sys2Proof.Machine

/-! # Card contexts (R137 to R151): O52 -/

namespace Sys2Proof.Machine

/-! ## The reader and its commands (R138) -/

section
variable {s : State} {p : Pos} {e : EntryId} {a : Addr}

theorem readerPlace_eq (hslot : slotOf s .reader p = some e) :
    readerPlace s p = s.dir[e].addr.map fun a => (e, s.dir[e].line, a) := by
  rw [readerPlace, hslot]

theorem readerPlace_of (h : readerServes s p e a) : readerPlace s p = some (e, s.dir[e].line, a) := by
  obtain ⟨hslot, haddr, -⟩ := h
  rw [readerPlace_eq hslot, haddr, Option.map_some]

theorem readerUsable_of (h : readerServes s p e a) : readerUsable s p = true := by
  rw [readerUsable, readerPlace_of h]
  show (!s.lineStopped s.dir[e].line) = true
  rw [not_lineStopped h.2.2]
  rfl

theorem readerUsable_away (h : readerAway s p) : readerUsable s p = false := by
  rw [readerUsable]
  cases hslot : slotOf s .reader p with
  | none => rw [readerPlace, hslot]
  | some e =>
    rw [readerPlace_eq hslot]
    cases haddr : s.dir[e].addr with
    | none => rfl
    | some a =>
      have hline : s.lines[s.dir[e].line].state = .stopped := (h e hslot).resolve_left fun hnone => nomatch haddr.symm.trans hnone
      show (!s.lineStopped s.dir[e].line) = false
      rw [State.lineStopped, hline]
      rfl

theorem offerCommand_of (h : readerServes s p e a) (cmd : CardCommand) (m : BitVec 3) :
    offerCommand s p cmd m =
      offerControl s s.dir[e].line .cardCommand a (some e) (.card p) [cmd.code, byteOf m.toNat] := by
  rw [offerCommand, readerPlace_of h]

/-- R138: what serves a position does not depend on the pool. -/
theorem readerServes_pool (h : readerServes s p e a) (q : Pool) : readerServes { s with pool := q } p e a := h

variable {cmd : CardCommand} {st : CardState} {c : Cause} {v : State} {r : RecId}

theorem ownCommand_carried (h : readerServes s p e a)
    (ho : offerControl s s.dir[e].line .cardCommand a (some e) (.card p) [cmd.code, 0] = (v, .carried r)) :
    ownCommand s p cmd st c = cardEnter v p st c (some (cmd, r)) 0 := by
  have hoffer : offerCommand s p cmd 0 = (v, .carried r) := (offerCommand_of h cmd 0).trans ho
  rw [ownCommand, hoffer]

theorem ownCommand_refused (h : readerServes s p e a)
    (ho : offerControl s s.dir[e].line .cardCommand a (some e) (.card p) [cmd.code, 0] = (v, .refused)) :
    ownCommand s p cmd st c = cardTo v p .fault .poolFull := by
  have hoffer : offerCommand s p cmd 0 = (v, .refused) := (offerCommand_of h cmd 0).trans ho
  rw [ownCommand, hoffer]

theorem ownCommand_stopped (hslot : slotOf s .reader p = some e) (haddr : s.dir[e].addr = some a)
    (hline : s.lines[s.dir[e].line].state = .stopped) : ownCommand s p cmd st c = cardTo s p .fault .lineStopped := by
  have hplace : readerPlace s p = some (e, s.dir[e].line, a) := by
    rw [readerPlace_eq hslot, haddr, Option.map_some]
  have hoffer : offerCommand s p cmd 0 = (s, .stopped) := by
    rw [offerCommand, hplace]
    exact offerControl_stopped hline ..
  rw [ownCommand, hoffer]

end

/-! ## Reads (R140, R143) -/

theorem trackReport_eq (c : CardCtx) (i : Fin 3) : trackReport c i = trackByte c i := by
  unfold trackReport trackByte
  cases c.mask.getLsbD i.val <;> cases c.holds[i] <;> rfl

theorem readDoneBody_eq (p : Pos) (c : CardCtx) (o : ReadOutcome) (cause : Cause) (resent : Bool) (reason : Byte) :
    readDoneBody p c o cause resent reason = readDoneBytes p c o cause resent reason := by
  rw [readDoneBody, trackReport_eq, trackReport_eq, trackReport_eq, readDoneBytes]
  cases c.reader <;> rfl

theorem readEnd_eq {s : State} {p : Pos} {r : RecId} (h : s.card[p].result = some r) (o : ReadOutcome) (c : Cause) (x : Byte) :
    readEnd s p o c x = atCard (completePromise s r .readDone 1 (some p) (readDoneBytes p s.card[p] o c false x)) p
      { s.card[p] with result := none, readTimer := none } := by
  have hcard (b : List Byte) : (completePromise s r .readDone 1 (some p) b).card = s.card := by rw [completePromise_frame]
  simp only [readEnd, h, readDoneBody_eq, modCard_eq_atCard, hcard]

/-- R137: READING is entered with the holds as they are. -/
theorem cardEnter_reading (t : State) (p : Pos) (k : CardCtx) (c : Cause) (cur : Option (CardCommand × RecId)) (sec : Nat) :
    cardEnter (atCard t p k) p .reading c cur sec = atCard t p (entered t k .reading c cur sec) := by
  rw [cardEnter_eq, holdsDropped, if_pos (.inl rfl), atCard_self]
  exact atCard_atCard t p k (entered t k .reading c cur sec)

/-- R140: the context once a read has started, its records not yet released. -/
def readStarted (c : CardCtx) (pr : RecId) (m : BitVec 3) (tag : Byte) (reader : Option (EntryId × Identity)) : CardCtx :=
  { c with holds := Vector.replicate 3 none, result := some pr, mask := m, tag := tag, reader := reader }

theorem startRead_eq (s : State) (p : Pos) (pr cmd : RecId) (m : BitVec 3) (tag : Byte) (sec : Nat) (c : Cause) :
    startRead s p pr cmd m tag sec c =
      atCard { s with pool := (heldBy s.card[p]).foldl Pool.dropRef s.pool } p
        (entered s (readStarted s.card[p] pr m tag ((slotOf s .reader p).map fun e => (e, s.dir[e].identity)))
          .reading c (some (.read, cmd)) sec) := by
  have hstarted : (releaseHolds s p).modCard p (fun c =>
      { c with
        result := some pr, mask := m, tag := tag
        reader := (slotOf (releaseHolds s p) .reader p).map fun e => (e, (releaseHolds s p).dir[e].identity) }) =
      atCard { s with pool := (heldBy s.card[p]).foldl Pool.dropRef s.pool } p
        (readStarted s.card[p] pr m tag ((slotOf s .reader p).map fun e => (e, s.dir[e].identity))) := by
    rw [releaseHolds_eq, modCard_eq_atCard, atCard_self, atCard_atCard]
    rfl
  rw [startRead, hstarted, cardEnter_reading]
  rfl

theorem offerControl_card (s : State) (l : LineId) (k : FrameKind) (dest : Addr) (t : Option EntryId) (o : Owner) (b : List Byte) :
    (offerControl s l k dest t o b).1.card = s.card := by
  rw [offerControl_frame]

/-- R140: a read that starts on a command just offered. -/
theorem startRead_offered {s v : State} {p : Pos} {e : EntryId} {a : Addr} {x : Offer} {b : List Byte} {l : LineId}
    {t : Option EntryId} (h : readerServes s p e a) (ho : offerControl s l .cardCommand a t (.card p) b = (v, x))
    (pr cmd : RecId) (m : BitVec 3) (tag : Byte) (sec : Nat) (c : Cause) :
    startRead v p pr cmd m tag sec c =
      atCard { v with pool := (heldBy s.card[p]).foldl Pool.dropRef v.pool } p
        (entered s (readStarted s.card[p] pr m tag (some (e, s.dir[e].identity))) .reading c (some (.read, cmd)) sec) := by
  have hv : v = { s with pool := v.pool, lines := v.lines } := by
    have hframe := offerControl_frame s l .cardCommand a t (.card p) b
    rwa [ho] at hframe
  have hslot : slotOf v .reader p = some e := by
    rw [hv]
    exact h.1
  have hdir : v.dir = s.dir := by rw [hv]
  have hcard : v.card = s.card := by rw [hv]
  have hent (k : CardCtx) : entered v k .reading c (some (.read, cmd)) sec = entered s k .reading c (some (.read, cmd)) sec := by
    rw [hv]
    rfl
  rw [startRead_eq, hslot, Option.map_some, hdir, hcard, hent]

/-- R16: a promise that is granted. -/
theorem reserve_of_granted {s : State} {k : NoticeKind} {tag : Byte} {pr : RecId} {pl : Pool}
    (hg : granted s.pool pl pr (promised s k tag)) (h : admissible s.profile s.pool 0 (if k = .sendDone then 4 else 1) .part) :
    reserve s k tag = ({ s with pool := pl }, some pr) := by
  obtain ⟨r, hr, -, -, heq⟩ := reserve_granted tag h
  obtain rfl : r = pr := Option.some.inj (hr.symm.trans (lowestFree_of_granted hg))
  rw [heq, granted_eq hg]

/-! ## Read-on-insert (R140) -/

section
variable {s : State} {p : Pos} {e : EntryId} {a : Addr} {pr : RecId} {pl : Pool} {v : State}

theorem readOnInsert_noPromise {y : Fin 9} (h : refusedAt s.profile s.pool 0 1 .part y) :
    readOnInsert s p = cardTo { s with pool := counted s.pool y } p .present .cardInserted := by
  rw [readOnInsert, reserve_refused (k := .readDone) h]

theorem readOnInsert_noCommand (h : readerServes s p e a) (hg : granted s.pool pl pr (promised s .readDone 0))
    (ha : admissible s.profile s.pool 0 1 .part)
    (ho : offerControl { s with pool := pl } s.dir[e].line .cardCommand a (some e) (.card p) [1, 7] = (v, .refused)) :
    readOnInsert s p = cardTo { v with pool := v.pool.dropRef pr } p .present .cardInserted := by
  have hoffer : offerCommand { s with pool := pl } p .read 7 = (v, .refused) :=
    (offerCommand_of (readerServes_pool h pl) .read 7).trans ho
  simp only [readOnInsert, reserve_of_granted (k := .readDone) hg ha, hoffer]
  rfl

theorem readOnInsert_reads {r : RecId} (h : readerServes s p e a) (hg : granted s.pool pl pr (promised s .readDone 0))
    (ha : admissible s.profile s.pool 0 1 .part)
    (ho : offerControl { s with pool := pl } s.dir[e].line .cardCommand a (some e) (.card p) [1, 7] = (v, .carried r)) :
    readOnInsert s p =
      atCard { v with pool := (heldBy s.card[p]).foldl Pool.dropRef v.pool } p
        (entered s (readStarted s.card[p] pr 7 0 (some (e, s.dir[e].identity))) .reading .cardInserted (some (.read, r))
          s.profile.readTimeout) := by
  have hoffer : offerCommand { s with pool := pl } p .read 7 = (v, .carried r) :=
    (offerCommand_of (readerServes_pool h pl) .read 7).trans ho
  have hprofile : v.profile = s.profile := by
    have hframe := congrArg State.profile (offerControl_frame { s with pool := pl } s.dir[e].line .cardCommand a (some e) (.card p) [1, 7])
    rwa [ho] at hframe
  simp only [readOnInsert, reserve_of_granted (k := .readDone) hg ha, hoffer]
  rw [← hprofile]
  exact startRead_offered (readerServes_pool h pl) ho pr r 7 0 v.profile.readTimeout .cardInserted

end

/-! ## Movement reports, the line, the service (R145, R148 to R150) -/

section
variable {s : State} {p : Pos} {c : Cause}

theorem cardServiceEnd_empty (h : s.card[p].state = .empty) : cardServiceEnd s p c = s := if_pos h

theorem cardGone_empty (h : s.card[p].state = .empty) : cardGone s p c = s := if_pos h

theorem cardServiceEnd_other (h : s.card[p].state ≠ .empty) (hr : s.card[p].state ≠ .reading) :
    cardServiceEnd s p c = cardTo s p .empty c := by
  simp only [cardServiceEnd, if_neg h, if_neg hr]

theorem cardGone_other (h : s.card[p].state ≠ .empty) (hr : s.card[p].state ≠ .reading) :
    cardGone s p c = cardTo s p .empty c := by
  simp only [cardGone, if_neg h, if_neg hr]

theorem cardServiceEnd_reading (h : s.card[p].state = .reading) :
    cardServiceEnd s p c = cardTo (readEnd s p .unitGone c 0) p .empty c := by
  simp only [cardServiceEnd, h, if_true, reduceCtorEq, if_false]

theorem cardGone_reading (h : s.card[p].state = .reading) :
    cardGone s p c = cardTo (readEnd s p .withdrawn c 0) p .empty c := by
  simp only [cardGone, h, if_true, reduceCtorEq, if_false]

theorem cardJammed_reading (h : s.card[p].state = .reading) :
    cardJammed s p = cardTo (readEnd s p .unitFailed .jammed 0) p .fault .jammed := by
  rw [cardJammed, if_pos h]

theorem cardJammed_other (h : s.card[p].state ≠ .reading) : cardJammed s p = cardTo s p .fault .jammed := by
  rw [cardJammed, if_neg h]

theorem cardLineStopped_reading (h : s.card[p].state = .reading) :
    cardLineStopped s p = cardTo (readEnd s p .unitFailed .lineStopped 0) p .fault .lineStopped := by
  rw [cardLineStopped, if_pos h]

theorem cardLineStopped_other (h : s.card[p].state ≠ .reading) : cardLineStopped s p = cardTo s p .fault .lineStopped := by
  rw [cardLineStopped, if_neg h]

variable {v : State}

theorem cardInserted_unattended (hv : v = (if s.card[p].state = .reading then readEnd s p .withdrawn .cardInserted 0 else s))
    (h : s.time.attended = false) : cardInserted s p = ownCommand v p .eject .ejecting .cardInserted := by
  simp only [cardInserted, ← hv, h, Bool.not_false, if_true]

theorem cardInserted_read (hv : v = (if s.card[p].state = .reading then readEnd s p .withdrawn .cardInserted 0 else s))
    (h : s.time.attended = true)
    (hon : (s.card[p].state = .empty ∨ s.card[p].state = .fault) ∧ s.profile.readOnInsert.getLsbD p.val = true) :
    cardInserted s p = readOnInsert s p := by
  obtain rfl : v = s := by
    rw [hv, if_neg]
    rcases hon.1 with h | h <;> rw [h] <;> decide
  simp only [cardInserted, ← hv, h, Bool.not_true, Bool.false_eq_true, if_false, if_pos hon]

theorem cardInserted_present (hv : v = (if s.card[p].state = .reading then readEnd s p .withdrawn .cardInserted 0 else s))
    (h : s.time.attended = true)
    (hon : ¬ ((s.card[p].state = .empty ∨ s.card[p].state = .fault) ∧ s.profile.readOnInsert.getLsbD p.val = true)) :
    cardInserted s p = cardTo v p .present .cardInserted := by
  simp only [cardInserted, ← hv, h, Bool.not_true, Bool.false_eq_true, if_false, if_neg hon]

variable {r : RecId}

theorem cardMoveFrame_named {b : Byte} {m : Movement} (hb : s.pool.body r = [b]) (hm : Movement.ofCode b = some m) :
    cardMoveFrame s p r = dropRef (cardMove s p m) r := by
  simp only [cardMoveFrame, hb, hm]

theorem cardMoveFrame_other (h : ∀ b m, s.pool.body r = [b] → Movement.ofCode b ≠ some m) : cardMoveFrame s p r = dropRef s r := by
  simp only [cardMoveFrame]
  split
  · next b hb =>
    split
    · next m hm => exact absurd hm (h b m hb)
    · rfl
  · rfl

end

/-! ## Tracks (R142) -/

theorem trackStatus_ofCode {b : Byte} {t : TrackStatus} : TrackStatus.ofCode b = some t ↔ b = t.code := by
  unfold TrackStatus.ofCode
  cases t <;> (split_ifs <;> simp_all [TrackStatus.code])

theorem trackOf_eq_some {body : List Byte} {i : Fin 3} {t : TrackStatus} :
    trackOf body = some (i, t) ↔ ∃ cs : List Byte, cs.length ≤ 107 ∧ body = byteOf (i.val + 1) :: t.code :: cs := by
  unfold trackOf
  split
  · next n st chars =>
    split
    · next h =>
      rw [Option.map_eq_some_iff]
      constructor
      · rintro ⟨u, hu, heq⟩
        obtain ⟨hi, rfl⟩ := Prod.mk.inj heq
        have hval : n.toNat - 1 = i.val := congrArg Fin.val hi
        refine ⟨chars, h.2.2, ?_⟩
        rw [trackStatus_ofCode.mp hu, ← byteOf_toNat n, show n.toNat = i.val + 1 by omega]
      · rintro ⟨cs, -, heq⟩
        obtain ⟨hn, hst⟩ := List.cons.inj heq
        obtain ⟨hst, -⟩ := List.cons.inj hst
        have hi := i.isLt
        have hval : n.toNat = i.val + 1 := by rw [hn, toNat_byteOf_of_lt (by omega)]
        exact ⟨t, trackStatus_ofCode.mpr hst, by simp [hval]⟩
    · next h =>
      refine ⟨fun hx => (nomatch hx), ?_⟩
      rintro ⟨cs, hlen, heq⟩
      obtain ⟨rfl, hst⟩ := List.cons.inj heq
      obtain ⟨-, rfl⟩ := List.cons.inj hst
      have hi := i.isLt
      rw [toNat_byteOf_of_lt (by omega)] at h
      exact absurd ⟨by omega, by omega, hlen⟩ h
  · next h =>
    refine ⟨fun hx => (nomatch hx), ?_⟩
    rintro ⟨cs, -, rfl⟩
    exact absurd rfl (h _ _ _)

section
variable {s : State} {p : Pos} {e : EntryId} {r : RecId}

theorem trackFrame_noTrack (h : ∀ (i : Fin 3) (t : TrackStatus), trackOf (s.pool.body r) ≠ some (i, t)) :
    trackFrame s p e r = dropRef s r := by
  have hnone : trackOf (s.pool.body r) = none := Option.eq_none_iff_forall_ne_some.mpr fun x => h x.1 x.2
  rw [trackFrame, hnone]

theorem trackFrame_unasked {i : Fin 3} {t : TrackStatus} (ht : trackOf (s.pool.body r) = some (i, t))
    (h : s.card[p].state ≠ .reading ∨ s.card[p].mask.getLsbD i.val = false ∨ s.card[p].holds[i] ≠ none) :
    trackFrame s p e r = dropRef s r := by
  simp only [trackFrame, ht]
  refine if_neg ?_
  rintro ⟨hs, hm, hn⟩
  rcases h with h | h | h
  · exact h hs
  · exact absurd (hm.symm.trans h) (by decide)
  · exact h (Option.isNone_iff_eq_none.mp hn)

theorem trackNotice_eq (resent : Bool) (h : s.pool.recs[r].refs < 20) :
    trackNotice s p e r resent =
      { s with
        pool := { s.pool with recs := s.pool.recs.set r { s.pool.recs[r] with refs := s.pool.recs[r].refs + 1 } }
        w1 := s.w1 ++ [trackEntry s p e r resent] } := by
  have hadd : addRef s r = (s.modPool fun p => p.modRec r fun x => { x with refs := x.refs + 1 }, true) :=
    if_neg (Nat.not_le.mpr h)
  rw [trackNotice, hadd]
  rfl

/-- R142: the state once a requested track has been collected. -/
def trackTaken (s : State) (p : Pos) (e : EntryId) (r : RecId) (i : Fin 3) (t : TrackStatus) : State :=
  atCard
    { s with
      pool := { s.pool with recs := s.pool.recs.set r { s.pool.recs[r] with refs := s.pool.recs[r].refs + 1 } }
      w1 := s.w1 ++ [trackEntry s p e r false] } p
    { s.card[p] with holds := s.card[p].holds.set i (some (t, r)) }

theorem trackFrame_taken {i : Fin 3} {t : TrackStatus} (ht : trackOf (s.pool.body r) = some (i, t))
    (hs : s.card[p].state = .reading) (hm : s.card[p].mask.getLsbD i.val = true) (hn : s.card[p].holds[i] = none)
    (hrefs : s.pool.recs[r].refs < 20) :
    trackFrame s p e r =
      if allHeld (trackTaken s p e r i t).card[p] then
        cardTo (readEnd (trackTaken s p e r i t) p .ok .readComplete 0) p .read .readComplete
      else trackTaken s p e r i t := by
  have hnotice : trackNotice (s.modCard p fun c => { c with holds := c.holds.set i (some (t, r)) }) p e r false =
      trackTaken s p e r i t := trackNotice_eq false hrefs
  simp only [trackFrame, ht, hs, hm, hn, Option.isNone_none, true_and, if_true, hnotice]

theorem allHeld_iff (c : CardCtx) : allHeld c = true ↔ ∀ j : Fin 3, c.mask.getLsbD j.val = true → c.holds[j] ≠ none := by
  have hall : ∀ j : Fin 3, j ∈ ([0, 1, 2] : List (Fin 3)) := by decide
  unfold allHeld
  rw [List.all_eq_true]
  refine ⟨fun h j hm => ?_, fun h j _ => ?_⟩
  · have hj := h j (hall j)
    rw [hm, Bool.not_true, Bool.false_or] at hj
    exact Option.isSome_iff_ne_none.mp hj
  · cases hm : c.mask.getLsbD j.val
    · rfl
    · rw [Bool.not_true, Bool.false_or]
      exact Option.isSome_iff_ne_none.mpr (h j hm)

end

/-! ## The timers (R143, R147) -/

section
variable {s : State} {p : Pos}

theorem readTimesOut_eq (s : State) (p : Pos) : readTimesOut s p =
    cardTo (readEnd s p .timedOut .readTimedOut 0) p (if heldBy s.card[p] = [] then .present else .read) .readTimedOut := by
  simp only [readTimesOut, heldRecords_eq, List.isEmpty_iff]

theorem exec_readTimer (hr : s.running = true) (ht : s.card[p].readTimer = some 0) :
    exec (.readTimerExpiry p) s = .next (settle (readTimesOut s p)) := by
  rw [exec, execReadTimerExpiry, hr, ht, timerDue_zero, Bool.and_self, if_pos rfl]

theorem exec_movementTimer (hr : s.running = true) (ht : s.card[p].moveTimer = some 0) :
    exec (.movementTimerExpiry p) s = .next (settle (cardTo s p .fault .movementTimeout)) := by
  rw [exec, execMovementTimerExpiry, hr, ht, timerDue_zero, Bool.and_self, if_pos rfl]

theorem exec_takeTimer (hr : s.running = true) (ht : s.card[p].takeTimer = some 0) :
    exec (.takeTimerExpiry p) s = .next (settle (ownCommand s p .retain .retaining .takeTimeout)) := by
  rw [exec, execTakeTimerExpiry, hr, ht, timerDue_zero, Bool.and_self, if_pos rfl]

end

/-- Settles O52: each way in which a context moves, by the lemma of its name. -/
theorem cardContextsMove : Obligations.CardContextsMove := by
  unfold Obligations.CardContextsMove
  refine ⟨fun s p st c cur sec => ⟨cardEnter_eq .., rfl⟩, fun s p r o c x h => readEnd_eq h o c x,
    fun s p hrun => ⟨fun ht => by rw [exec_readTimer hrun ht, readTimesOut_eq], exec_movementTimer hrun,
      fun ht e a v x h ho => ⟨fun r hx => ?_, fun hx => ?_⟩⟩,
    fun s p c => ⟨fun h => ⟨cardServiceEnd_empty h, cardGone_empty h⟩,
      fun h hr => ⟨cardServiceEnd_other h hr, cardGone_other h hr⟩,
      fun h => ⟨cardServiceEnd_reading h, cardGone_reading h, cardJammed_reading h, cardLineStopped_reading h⟩,
      fun h => ⟨cardJammed_other h, cardLineStopped_other h⟩, rfl, rfl, fun h => if_pos h, fun h => if_neg h⟩,
    fun s p cmd st c e a => ⟨fun v x h ho => ⟨fun r hx => ownCommand_carried h (hx ▸ ho), fun hx => ownCommand_refused h (hx ▸ ho)⟩,
      ownCommand_stopped⟩,
    fun s v p hv => ⟨cardInserted_unattended hv, fun ha => ⟨cardInserted_read hv ha, cardInserted_present hv ha⟩⟩,
    fun s p e a pr pl v x h => ⟨fun y => readOnInsert_noPromise, fun hg ha ho => ⟨fun hx => readOnInsert_noCommand h hg ha (hx ▸ ho),
      fun r hx => readOnInsert_reads h hg ha (hx ▸ ho)⟩⟩,
    fun s p r b m => cardMoveFrame_named, fun s p r => cardMoveFrame_other,
    fun s p e r => ⟨fun h => ?_, fun i t cs hlen hb => ⟨fun h => ?_, fun v hs hm hn hrefs hv => ?_⟩⟩⟩
  · rw [exec_takeTimer hrun ht, ownCommand_carried h (hx ▸ ho)]
  · rw [exec_takeTimer hrun ht, ownCommand_refused h (hx ▸ ho)]
  · rcases h with h | h
    · refine trackFrame_noTrack fun i t ht => ?_
      obtain ⟨cs, hlen, hb⟩ := trackOf_eq_some.mp ht
      exact h i t cs hlen hb
    · cases ht : trackOf (s.pool.body r) with
      | none => exact trackFrame_noTrack fun i t hx => nomatch ht.symm.trans hx
      | some x => exact trackFrame_unasked (i := x.1) (t := x.2) ht (.inl h)
  · exact trackFrame_unasked (trackOf_eq_some.mpr ⟨cs, hlen, hb⟩) (.inr h)
  · obtain rfl : v = trackTaken s p e r i t := hv
    have hmask : (trackTaken s p e r i t).card[p].mask = s.card[p].mask := by rw [trackTaken, atCard_self]
    rw [trackFrame_taken (trackOf_eq_some.mpr ⟨cs, hlen, hb⟩) hs hm hn hrefs]
    refine ⟨fun h => if_pos ((allHeld_iff _).mpr fun j hj => h j (hmask ▸ hj)), fun ⟨j, hj, hnone⟩ => if_neg fun h => ?_⟩
    exact (allHeld_iff _).mp h j (hmask.symm ▸ hj) hnone

end Sys2Proof.Machine

/-! # CARD_READ, CARD_EJECT and CARD_RETAIN (R141, R146): O50 -/

namespace Sys2Proof.Machine

/-! ## CARD_READ (R141) -/

theorem maskOk_false {m : Byte} (h : m = 0 ∨ 7 < m.toNat) : maskOk m = false := decide_eq_false (by bv_omega)

theorem maskOk_true {m : Byte} (h1 : 1 ≤ m.toNat) (h7 : m.toNat ≤ 7) : maskOk m = true := decide_eq_true ⟨h1, h7⟩

theorem byteOf_mask {m : Byte} (h : m.toNat ≤ 7) : byteOf (BitVec.ofNat 3 m.toNat).toNat = m := by
  rw [BitVec.toNat_ofNat, Nat.mod_eq_of_lt (by omega), byteOf_toNat]

theorem readable_iff (st : CardState) : readable st = true ↔ st = .present ∨ st = .read := by cases st <;> decide

section
variable {s : State} {sl : Slot} {p : Pos} {m t : Byte}

theorem cardReadRule_badLength (h : sl.body.length ≠ 3) : cardReadRule s sl = refuse s .badLength := by
  unfold cardReadRule
  split
  · next hb => exact absurd (by rw [hb]; rfl) h
  · rfl

theorem cardReadRule_badPosition {b : Byte} (h : sl.body = [b, m, t]) (hb : b = 0 ∨ 8 < b.toNat) :
    cardReadRule s sl = refuse s .badParameter := by
  simp only [cardReadRule, h, posOfByte_eq_none hb]

theorem cardReadRule_badMask (h : sl.body = [byteOf (p.val + 1), m, t]) (hm : m = 0 ∨ 7 < m.toNat) :
    cardReadRule s sl = refuse s .badParameter := by
  simp only [cardReadRule, h, posOfByte_posByte, maskOk_false hm, Bool.not_false, if_true]

theorem cardReadRule_wrongState (h : sl.body = [byteOf (p.val + 1), m, t]) (h1 : 1 ≤ m.toNat) (h7 : m.toNat ≤ 7)
    (hw : (s.card[p].state ≠ .present ∧ s.card[p].state ≠ .read) ∨ readerAway s p) :
    cardReadRule s sl = refuse s .wrongState := by
  have hcheck : (!readable s.card[p].state || !readerUsable s p) = true := by
    rcases hw with ⟨hpresent, hread⟩ | haway
    · rw [Bool.eq_false_iff.mpr (mt (readable_iff _).mp (not_or.mpr ⟨hpresent, hread⟩)), Bool.not_false, Bool.true_or]
    · rw [readerUsable_away haway, Bool.not_false, Bool.or_true]
  simp only [cardReadRule, h, posOfByte_posByte, maskOk_true h1 h7, hcheck, Bool.not_true, Bool.false_eq_true, if_false, if_true]

theorem cardReadRule_reads {e : EntryId} {a : Addr} (h : sl.body = [byteOf (p.val + 1), m, t]) (h1 : 1 ≤ m.toNat)
    (h7 : m.toNat ≤ 7) (hs : s.card[p].state = .present ∨ s.card[p].state = .read) (he : readerServes s p e a) :
    cardReadRule s sl = readFor s p (BitVec.ofNat 3 m.toNat) t.toNat sl.tag := by
  have hcheck : (!readable s.card[p].state || !readerUsable s p) = false := by
    rw [(readable_iff _).mpr hs, readerUsable_of he]
    rfl
  simp only [cardReadRule, h, posOfByte_posByte, maskOk_true h1 h7, hcheck, Bool.not_true, Bool.false_eq_true, if_false]

variable {e : EntryId} {a : Addr} {tag : Byte} {pr : RecId} {pl : Pool} {v : State}

theorem readFor_noPromise {mask : BitVec 3} {given : Nat} {y : Fin 9} (h : refusedAt s.profile s.pool 0 1 .part y) :
    readFor s p mask given tag = refuse { s with pool := counted s.pool y } .poolFull := by
  simp only [readFor, reserve_refused (k := .readDone) h]

theorem offerCommand_read (he : readerServes s p e a) (h7 : m.toNat ≤ 7) (pl : Pool) :
    offerCommand { s with pool := pl } p .read (BitVec.ofNat 3 m.toNat) =
      offerControl { s with pool := pl } s.dir[e].line .cardCommand a (some e) (.card p) [1, m] := by
  rw [offerCommand_of (readerServes_pool he pl), byteOf_mask h7]
  rfl

theorem readFor_noCommand {given : Nat} (he : readerServes s p e a) (h7 : m.toNat ≤ 7)
    (hg : granted s.pool pl pr (promised s .readDone tag)) (ha : admissible s.profile s.pool 0 1 .part)
    (ho : offerControl { s with pool := pl } s.dir[e].line .cardCommand a (some e) (.card p) [1, m] = (v, .refused)) :
    readFor s p (BitVec.ofNat 3 m.toNat) given tag = refuse { v with pool := v.pool.dropRef pr } .poolFull := by
  simp only [readFor, reserve_of_granted (k := .readDone) hg ha, offerCommand_read he h7, ho]
  rfl

theorem readFor_starts {r : RecId} (he : readerServes s p e a) (h7 : m.toNat ≤ 7)
    (hg : granted s.pool pl pr (promised s .readDone tag)) (ha : admissible s.profile s.pool 0 1 .part)
    (ho : offerControl { s with pool := pl } s.dir[e].line .cardCommand a (some e) (.card p) [1, m] = (v, .carried r)) :
    readFor s p (BitVec.ofNat 3 m.toNat) t.toNat tag =
      doneClamped
        (atCard { v with pool := (heldBy s.card[p]).foldl Pool.dropRef v.pool } p
          (entered s (readStarted s.card[p] pr (BitVec.ofNat 3 m.toNat) tag (some (e, s.dir[e].identity)))
            .reading .request (some (.read, r)) (timeoutTaken t s.profile.readTimeout 20)))
        (decide (20 < t.toNat)) [byteOf (timeoutTaken t s.profile.readTimeout 20)] := by
  simp only [readFor, reserve_of_granted (k := .readDone) hg ha, offerCommand_read he h7, ho, takenTimeout_eq t _ (show 1 ≤ 20 by decide)]
  exact congrArg (fun x => doneClamped x _ _) (startRead_offered (readerServes_pool he pl) ho pr r _ tag _ .request)

end

/-! ## CARD_EJECT and CARD_RETAIN (R146) -/

theorem ejectable_iff (st : CardState) : ejectable st = true ↔ st ∈ [CardState.present, .reading, .read] := by
  cases st <;> decide

theorem retainable_iff (st : CardState) : retainable st = true ↔ st ∉ [CardState.empty, .retaining] := by
  cases st <;> decide

section
variable {s v : State} {p : Pos} {cmd : CardCommand} {st : CardState} {e : EntryId} {a : Addr}

/-- R146: the rule of the request that offers a command. -/
def movementRule : CardCommand → State → Pos → Slot → State × Answer
  | .eject => cardEjectRule
  | _ => cardRetainRule

/-- R146: the states in which a command is not accepted. -/
def movementBarred (cmd : CardCommand) (st : CardState) : Prop :=
  (cmd = .eject ∧ st ∉ [CardState.present, .reading, .read]) ∨ (cmd = .retain ∧ st ∈ [CardState.empty, .retaining])

theorem movementRule_wrongState (sl : Slot) (hcmd : cmd ≠ .read) (h : movementBarred cmd s.card[p].state ∨ readerAway s p) :
    movementRule cmd s p sl = refuse s .wrongState := by
  cases cmd with
  | read => exact absurd rfl hcmd
  | eject =>
    refine if_pos ?_
    rcases h with (⟨-, h⟩ | ⟨h, -⟩) | h
    · rw [Bool.eq_false_iff.mpr (mt (ejectable_iff _).mp h), Bool.not_false, Bool.true_or]
    · nomatch h
    · rw [readerUsable_away h, Bool.not_false, Bool.or_true]
  | retain =>
    refine if_pos ?_
    rcases h with (⟨h, -⟩ | ⟨-, h⟩) | h
    · nomatch h
    · rw [Bool.eq_false_iff.mpr fun hr => (retainable_iff _).mp hr h, Bool.not_false, Bool.true_or]
    · rw [readerUsable_away h, Bool.not_false, Bool.or_true]

/-- R137, R146: the state that a command gives. -/
def movementState : CardCommand → CardState
  | .eject => .ejecting
  | _ => .retaining

theorem movementRule_accepted (sl : Slot) (hcmd : cmd ≠ .read) (he : readerServes s p e a)
    (heject : cmd = .eject → s.card[p].state ∈ [.present, .reading, .read])
    (hretain : cmd = .retain → s.card[p].state ∉ [.empty, .retaining]) :
    movementRule cmd s p sl = commandFor s p cmd (movementState cmd) := by
  cases cmd with
  | read => exact absurd rfl hcmd
  | eject =>
    refine if_neg ?_
    rw [(ejectable_iff _).mpr (heject rfl), readerUsable_of he]
    decide
  | retain =>
    refine if_neg ?_
    rw [(retainable_iff _).mpr (hretain rfl), readerUsable_of he]
    decide

theorem commandFor_refused (he : readerServes s p e a)
    (ho : offerControl s s.dir[e].line .cardCommand a (some e) (.card p) [cmd.code, 0] = (v, .refused)) :
    commandFor s p cmd st = refuse v .poolFull := by
  have hoffer : offerCommand s p cmd 0 = (v, .refused) := (offerCommand_of he cmd 0).trans ho
  rw [commandFor, hoffer]

theorem commandFor_carried {r : RecId} (he : readerServes s p e a)
    (ho : offerControl s s.dir[e].line .cardCommand a (some e) (.card p) [cmd.code, 0] = (v, .carried r)) :
    commandFor s p cmd st = done (moveCard v p cmd r st) [] := by
  have hoffer : offerCommand s p cmd 0 = (v, .carried r) := (offerCommand_of he cmd 0).trans ho
  rw [commandFor, hoffer]

theorem moveCard_eq {w : State} {r : RecId} (hcard : v.card = s.card)
    (hw : w = if s.card[p].state = .reading then readEnd v p .aborted .request 0 else v) :
    moveCard v p cmd r st =
      atCard { w with pool := holdsDropped w p st } p (entered w w.card[p] st .request (some (cmd, r)) 0) := by
  simp only [moveCard, hcard, ← hw, cardEnter_eq]

theorem entered_congr {t : State} (htime : t.time = s.time) (hprofile : t.profile = s.profile) (k : CardCtx) (st : CardState) (c : Cause)
    (cur : Option (CardCommand × RecId)) (sec : Nat) : entered t k st c cur sec = entered s k st c cur sec := by
  rw [entered, entered, htime, hprofile]

/-- R146: an offer, and the read that a movement ends, leave the time and the profile. -/
theorem entered_moved {l : LineId} {x : Offer} {b : List Byte} {w : State} {t : Option EntryId}
    (ho : offerControl s l .cardCommand a t (.card p) b = (v, x))
    (hw : w = if s.card[p].state = .reading then readEnd v p .aborted .request 0 else v) (k : CardCtx) (st : CardState) (c : Cause)
    (cur : Option (CardCommand × RecId)) (sec : Nat) : entered w k st c cur sec = entered s k st c cur sec := by
  have hv : v = { s with pool := v.pool, lines := v.lines } := by
    have hframe := offerControl_frame s l .cardCommand a t (.card p) b
    rwa [ho] at hframe
  have hvtime : v.time = s.time := by rw [hv]
  have hvprofile : v.profile = s.profile := by rw [hv]
  have hwv : w.time = v.time ∧ w.profile = v.profile := by
    rw [hw]
    split
    · rw [readEnd_frame]
      exact ⟨rfl, rfl⟩
    · exact ⟨rfl, rfl⟩
  exact entered_congr (hwv.1.trans hvtime) (hwv.2.trans hvprofile) k st c cur sec

/-- The command of CARD_EJECT or CARD_RETAIN, whichever it is. -/
theorem exec_movement {c : Instr} {ty : Byte}
    (h : (cmd = .eject ∧ c = .cardEject ∧ ty = 0x2A ∧ st = .ejecting) ∨ (cmd = .retain ∧ c = .cardRetain ∧ ty = 0x2B ∧ st = .retaining))
    (s : State) :
    cmd ≠ .read ∧ st = movementState cmd ∧ exec c s = .next (handle s (ofType ty) (positionBody (movementRule cmd)) settle) := by
  rcases h with ⟨rfl, rfl, rfl, rfl⟩ | ⟨rfl, rfl, rfl, rfl⟩
  · exact ⟨by decide, rfl, rfl⟩
  · exact ⟨by decide, rfl, rfl⟩

end

/-- Settles O50: the checks of each request, then its promise and its command. -/
theorem cardRequestsCommandTheReader : Obligations.CardRequestsCommandTheReader := by
  unfold Obligations.CardRequestsCommandTheReader
  refine ⟨fun s i p m t h => ⟨fun hm => ?_, fun h1 h7 => ⟨fun hw => ?_, fun e a hs he => ⟨fun x hx => ?_,
      fun pr pl v x hg ha ho => ⟨fun hx => ?_, fun r hx => ?_⟩⟩⟩⟩,
    fun s i p cmd c ty st hc h => ⟨fun hw => ?_, fun e a v x he heject hretain ho => ⟨fun hx => ?_, fun r w hx hw => ?_⟩⟩,
    fun s i body => ⟨fun hlen h => ?_, fun hlen h => ?_, fun hlen h => ?_, fun b m t hb => ⟨fun h => ?_, fun h => ?_, fun h => ?_⟩⟩⟩
  · exact exec_asks_refuse h (fun sl hsl => cardReadRule_badMask hsl hm) rfl
  · exact exec_asks_refuse h (fun sl hsl => cardReadRule_wrongState hsl h1 h7 hw) rfl
  · exact exec_asks_refused h (fun sl hsl _ => (cardReadRule_reads hsl h1 h7 hs he).trans (readFor_noPromise hx)) rfl
  · subst hx
    refine exec_asks_refused h (fun sl hsl htag => (cardReadRule_reads hsl h1 h7 hs he).trans ?_) rfl
    exact readFor_noCommand he h7 (htag ▸ hg) ha ho
  · subst hx
    obtain ⟨-, -, hbody⟩ := id h
    refine (exec_asks_clamped h ((cardReadRule_reads hbody h1 h7 hs he).trans (readFor_starts he h7 hg ha ho)) rfl).trans ?_
    simp only [decide_eq_true_eq]
    rfl
  · obtain ⟨hcmd, -, hexec⟩ := exec_movement hc s
    refine exec_asks_refuse h (fun sl hsl => (positionBody_named hsl).trans (movementRule_wrongState sl hcmd ?_)) hexec
    exact or_assoc.mpr hw
  · subst hx
    obtain ⟨hcmd, hst, hexec⟩ := exec_movement hc s
    refine exec_asks_refused h (fun sl hsl _ => (positionBody_named hsl).trans ?_) hexec
    exact (movementRule_accepted sl hcmd he heject hretain).trans (commandFor_refused he ho)
  · subst hx
    obtain ⟨hcmd, hst, hexec⟩ := exec_movement hc s
    have hcard : v.card = s.card := by
      have hframe := offerControl_card s s.dir[e].line .cardCommand a (some e) (.card p) [cmd.code, 0]
      rwa [ho] at hframe
    refine exec_asks_done h (fun sl hsl _ => (positionBody_named hsl).trans ?_) hexec
    rw [movementRule_accepted sl hcmd he heject hretain, commandFor_carried he ho, moveCard_eq hcard hw,
      entered_moved ho hw, hst]
  · exact exec_asks_refuse h (fun sl hsl => cardReadRule_badLength (hsl ▸ hlen)) rfl
  · exact exec_asks_refuse h (fun sl hsl => positionBody_badLength (hsl ▸ hlen)) rfl
  · exact exec_asks_refuse h (fun sl hsl => positionBody_badLength (hsl ▸ hlen)) rfl
  · exact exec_asks_refuse h (fun sl hsl => cardReadRule_badPosition hsl hb) rfl
  · exact exec_asks_refuse h (fun sl hsl => positionBody_badParameter hsl hb) rfl
  · exact exec_asks_refuse h (fun sl hsl => positionBody_badParameter hsl hb) rfl

end Sys2Proof.Machine

/-! # CARD_RESEND (R144): O51 -/

namespace Sys2Proof.Machine

/-! ## The held tracks again (R15, R101, R144) -/

/-- A record with one more reference (R13). -/
def Rec.shared (x : Rec) : Rec := { x with refs := x.refs + 1 }

/-- R144: the notice of a track that is queued again, from its record's origin. -/
def trackAgain (s : State) (p : Pos) (r : RecId) (n : Notice) : Prop :=
  ∃ (e : EntryId) (l : LineId) (a : Addr), s.pool.recs[r].origin = .unit e l a ∧ n = trackEntry s p e r true

/-- R144, step 1, for one held track. -/
def resendTrack (p : Pos) (t : State) (r : RecId) : State :=
  match originEntry t.pool.recs[r] with
  | some e => trackNotice t p e r true
  | none => t

theorem resendTracks_eq (s : State) (p : Pos) : resendTracks s p = (heldBy s.card[p]).foldl (resendTrack p) s := by
  rw [resendTracks, heldRecords_eq]
  rfl

theorem resendTrack_eq {s : State} {p : Pos} {r : RecId} {n : Notice} (hn : trackAgain s p r n) (h : s.pool.recs[r].refs < 20) :
    resendTrack p s r =
      { s with pool := { s.pool with recs := s.pool.recs.set r s.pool.recs[r].shared }, w1 := s.w1 ++ [n] } := by
  obtain ⟨e, l, a, horigin, rfl⟩ := hn
  have hentry : originEntry s.pool.recs[r] = some e := by rw [originEntry, horigin]
  rw [resendTrack, hentry]
  exact trackNotice_eq true h

theorem trackAgain_congr {s t : State} {p : Pos} {rs : List RecId} {ns : List Notice}
    (hrecs : ∀ r ∈ rs, t.pool.recs[r] = s.pool.recs[r]) (hdir : t.dir = s.dir) (h : List.Forall₂ (trackAgain s p) rs ns) :
    List.Forall₂ (trackAgain t p) rs ns := by
  refine ((List.forall₂_and_left (p := (· ∈ rs)) rs ns).mpr ⟨fun _ => id, h⟩).imp ?_
  rintro r n ⟨hr, e, l, a, horigin, rfl⟩
  exact ⟨e, l, a, (hrecs r hr).symm ▸ horigin, by rw [trackEntry, trackEntry, hdir]⟩

/-- R144: each of the records gains a reference, and their notices join W1 in order. -/
theorem resendTrack_foldl {p : Pos} {rs : List RecId} {ns : List Notice} (s : State) (hnodup : rs.Nodup)
    (hrefs : ∀ r ∈ rs, s.pool.recs[r].refs < 20) (hns : List.Forall₂ (trackAgain s p) rs ns) :
    ∃ recs : Vector Rec 64, rs.foldl (resendTrack p) s = { s with pool := { s.pool with recs := recs }, w1 := s.w1 ++ ns } ∧
      ∀ x : RecId, recs[x] = if x ∈ rs then s.pool.recs[x].shared else s.pool.recs[x] := by
  induction rs generalizing s ns with
  | nil =>
    obtain rfl := List.forall₂_nil_left_iff.mp hns
    exact ⟨s.pool.recs, by rw [List.append_nil]; rfl, fun x => (if_neg List.not_mem_nil).symm⟩
  | cons r rs ih =>
    obtain ⟨n, ns', hn, hns', rfl⟩ := List.forall₂_cons_left_iff.mp hns
    obtain ⟨hr, hnodup⟩ := List.nodup_cons.mp hnodup
    have hstep := resendTrack_eq hn (hrefs r List.mem_cons_self)
    generalize hv : resendTrack p s r = v at hstep
    have hother : ∀ x ∈ rs, v.pool.recs[x] = s.pool.recs[x] := fun x hx => by
      rw [hstep, recs_set_get, if_neg fun h : r = x => hr (h ▸ hx)]
    have hagain : List.Forall₂ (trackAgain v p) rs ns' := trackAgain_congr hother (by rw [hstep]) hns'
    obtain ⟨recs, heq, hrecs⟩ := ih v hnodup (fun x hx => (hother x hx).symm ▸ hrefs x (List.mem_cons_of_mem r hx)) hagain
    refine ⟨recs, ?_, fun x => ?_⟩
    · rw [List.foldl_cons, hv, heq, hstep, List.append_assoc]
      rfl
    · rw [hrecs x, hstep, recs_set_get]
      by_cases hx : r = x
      · subst hx
        rw [if_neg hr, if_pos rfl, if_pos List.mem_cons_self]
      · have hmem : x ∈ r :: rs ↔ x ∈ rs := List.mem_cons.trans (or_iff_right (Ne.symm hx))
        simp only [if_neg hx, hmem]

/-! ## The rule (R144) -/

section
variable {s : State} {p : Pos} {sl : Slot}

theorem cardResendRule_wrongState (h : s.card[p].state ≠ .read) : cardResendRule s p sl = refuse s .wrongState := if_pos h

theorem holdsAtLimit_iff : holdsAtLimit s p = true ↔ ∃ r ∈ heldBy s.card[p], 20 ≤ s.pool.recs[r].refs := by
  rw [holdsAtLimit, heldRecords_eq, List.any_eq_true]
  exact exists_congr fun r => and_congr_right fun _ => decide_eq_true_iff

theorem cardResendRule_atLimit (h : s.card[p].state = .read) (hl : ∃ r ∈ heldBy s.card[p], 20 ≤ s.pool.recs[r].refs) :
    cardResendRule s p sl =
      refuse { s with pool := { s.pool with refLimit := min 65535 (s.pool.refLimit + 1) } } .poolFull := by
  rw [cardResendRule, if_neg (not_not_intro h), if_pos (holdsAtLimit_iff.mpr hl)]
  rfl

theorem not_holdsAtLimit (hl : ∀ r ∈ heldBy s.card[p], s.pool.recs[r].refs < 20) : ¬ holdsAtLimit s p = true := fun h => by
  obtain ⟨r, hr, h⟩ := holdsAtLimit_iff.mp h
  exact absurd (hl r hr) (Nat.not_lt.mpr h)

theorem cardResendRule_noPromise {x : Fin 9} (h : s.card[p].state = .read)
    (hl : ∀ r ∈ heldBy s.card[p], s.pool.recs[r].refs < 20) (hx : refusedAt s.profile s.pool 0 1 .part x) :
    cardResendRule s p sl = refuse { s with pool := counted s.pool x } .poolFull := by
  rw [cardResendRule, if_neg (not_not_intro h), if_neg (not_holdsAtLimit hl), reserve_refused (k := .readDone) hx]

theorem cardResendRule_resends {pr : RecId} {pl q : Pool} {ns : List Notice} (h : s.card[p].state = .read)
    (hl : ∀ r ∈ heldBy s.card[p], s.pool.recs[r].refs < 20) (hg : granted s.pool pl pr (promised s .readDone sl.tag))
    (ha : admissible s.profile s.pool 0 1 .part) (hnodup : (heldBy s.card[p]).Nodup)
    (hlive : ∀ r ∈ heldBy s.card[p], s.pool.recs[r].state ≠ .free) (hq : q = { pl with recs := q.recs })
    (hrecs : ∀ r : RecId, q.recs[r] = if r ∈ heldBy s.card[p] then pl.recs[r].shared else pl.recs[r])
    (hns : List.Forall₂ (trackAgain s p) (heldBy s.card[p]) ns) :
    cardResendRule s p sl =
      done (completePromise { s with pool := q, w1 := s.w1 ++ ns } pr .readDone 1 (some p)
        (readDoneBytes p s.card[p] .ok .request true 0)) [] := by
  obtain ⟨hprfree, -, -, hkept, -⟩ := id hg
  have hsame : ∀ r ∈ heldBy s.card[p], pl.recs[r] = s.pool.recs[r] := fun r hr =>
    hkept r fun heq => hlive r hr (heq ▸ hprfree)
  have hagain : List.Forall₂ (trackAgain { s with pool := pl } p) (heldBy s.card[p]) ns := trackAgain_congr hsame rfl hns
  obtain ⟨recs, heq, hget⟩ := resendTrack_foldl { s with pool := pl } hnodup (fun r hr => (hsame r hr).symm ▸ hl r hr) hagain
  have hqrecs : q.recs = recs := by
    refine Vector.ext fun n hn => ?_
    exact (hrecs ⟨n, hn⟩).trans (hget ⟨n, hn⟩).symm
  have hresent : resendTracks { s with pool := pl } p = { s with pool := q, w1 := s.w1 ++ ns } := by
    rw [resendTracks_eq, heq, hq, hqrecs]
  rw [cardResendRule, if_neg (not_not_intro h), if_neg (not_holdsAtLimit hl), reserve_of_granted (k := .readDone) hg ha]
  show done (completePromise (resendTracks { s with pool := pl } p) pr .readDone 1 (some p)
    (readDoneBody p s.card[p] .ok .request true 0)) [] = _
  rw [hresent, readDoneBody_eq]

end

/-- Settles O51: the checks of CARD_RESEND, then the held tracks one by one. -/
theorem resentTracksAreQueuedAgain : Obligations.ResentTracksAreQueuedAgain := by
  unfold Obligations.ResentTracksAreQueuedAgain
  refine ⟨fun s i p h => ⟨fun hs => ?_, fun hs => ⟨fun hl => ?_, fun hl => ⟨fun x hx => ?_,
      fun pr pl q ns hg ha hnodup hlive hq hrecs hns => ?_⟩⟩⟩,
    fun s i body h => ⟨fun hlen => ?_, fun b hb hbad => ?_⟩⟩
  · exact exec_asks_refuse h (fun sl hsl => (positionBody_named hsl).trans (cardResendRule_wrongState hs)) rfl
  · exact exec_asks_refused h (fun sl hsl _ => (positionBody_named hsl).trans (cardResendRule_atLimit hs hl)) rfl
  · exact exec_asks_refused h (fun sl hsl _ => (positionBody_named hsl).trans (cardResendRule_noPromise hs hl hx)) rfl
  · refine exec_asks_done h (fun sl hsl htag => (positionBody_named hsl).trans ?_) rfl
    exact cardResendRule_resends hs hl (htag ▸ hg) ha hnodup hlive hq hrecs hns
  · exact exec_asks_refuse h (fun sl hsl => positionBody_badLength (hsl ▸ hlen)) rfl
  · exact exec_asks_refuse h (fun sl hsl => positionBody_badParameter (hsl.trans hb) hbad) rfl

end Sys2Proof.Machine

/-! # The part becomes UNATTENDED (R151, R162, R163): O54 -/

namespace Sys2Proof.Machine

/-! ## What the engines leave alone -/

/-- Of the state, only the pool, the lines, W0, W1 and the contexts may have changed. -/
def EnginesOnly (s t : State) : Prop :=
  t = { s with pool := t.pool, lines := t.lines, w0 := t.w0, w1 := t.w1, entry := t.entry, card := t.card }

theorem EnginesOnly.refl (s : State) : EnginesOnly s s := rfl

theorem EnginesOnly.trans {s t u : State} (h : EnginesOnly s t) (k : EnginesOnly t u) : EnginesOnly s u := by
  unfold EnginesOnly at h k ⊢
  refine k.trans ?_
  rw [h]

theorem EnginesOnly.foldl {α : Type} {f : State → α → State} (h : ∀ t x, EnginesOnly t (f t x)) (l : List α) (s : State) :
    EnginesOnly s (l.foldl f s) := by
  induction l generalizing s with
  | nil => exact .refl s
  | cons x l ih => exact (h s x).trans (ih _)

theorem offerDisplay_frame (s : State) (l : LineId) (a : Addr) (e : EntryId) (p : Pos) (d : DisplayLines) (u : Tone) :
    (offerDisplay s l a e p d u).1 =
      { s with pool := (offerDisplay s l a e p d u).1.pool, lines := (offerDisplay s l a e p d u).1.lines } := by
  unfold offerDisplay
  split
  · rfl
  · split
    · rfl
    · exact offerControl_frame ..

theorem reached_or_unreached (s : State) (p : Pos) : unreached s p ∨ ∃ (e : EntryId) (a : Addr), reached s p e a := by
  by_cases h : unreached s p
  · exact .inl h
  · unfold unreached at h
    push Not at h
    obtain ⟨e, i, ht, hi, ha⟩ := h
    obtain ⟨a, ha⟩ := Option.ne_none_iff_exists'.mp ha
    exact .inr ⟨e, a, i, ht, hi, ha⟩

theorem displayUpdate_frame (s : State) (p : Pos) (d : DisplayLines) (t : Tone) :
    displayUpdate s p d t =
      { s with
        pool := (displayUpdate s p d t).pool, lines := (displayUpdate s p d t).lines, entry := (displayUpdate s p d t).entry } := by
  rcases reached_or_unreached s p with h | ⟨e, a, h⟩
  · rw [displayUpdate_unreached h]
    rfl
  · rcases ho : offerDisplay s s.dir[e].line a e p d (strongerTone t s.entry[p].pendTone) with ⟨v, x⟩
    have hframe : v = { s with pool := v.pool, lines := v.lines } := by
      have hframe := offerDisplay_frame s s.dir[e].line a e p d (strongerTone t s.entry[p].pendTone)
      rwa [ho] at hframe
    cases x with
    | carried r => rw [displayUpdate_carried h ho, atEntry, hframe]
    | refused => rw [displayUpdate_waits h (.inl rfl) ho, atEntry, hframe]
    | stopped => rw [displayUpdate_waits h (.inr rfl) ho, atEntry, hframe]

/-- R126: an ending queues its result on W0 and works on its own context. -/
theorem endSession_frame (s : State) (p : Pos) (ss : Session) (o : EntryOutcome) (c : Cause) (t : Tone) :
    ∃ n : Notice, n.record = ss.result ∧ endSession s p ss o c t =
      { s with
        pool := (endSession s p ss o c t).pool, lines := (endSession s p ss o c t).lines, w0 := s.w0 ++ [n]
        entry := (endSession s p ss o c t).entry } := by
  refine ⟨{ record := ss.result, kind := .entryResult, tag := s.pool.recs[ss.result].promise.getD 0, unit := none, pos := some p
            witnessed := false, resent := false }, rfl, ?_⟩
  simp only [endSession, completePromise_eq]
  split
  · rw [State.modEntry, displayUpdate_frame]
    rfl
  · rw [displayUpdate_frame]
    rfl

theorem enginesOnly_abortSession (s : State) (p : Pos) (c : Cause) : EnginesOnly s (abortSession s p c) := by
  cases h : s.entry[p].sess with
  | none => rw [abortSession_none h]; rfl
  | some ss =>
    obtain ⟨n, -, hn⟩ := endSession_frame s p ss .aborted c .none
    rw [abortSession_some h, hn]
    rfl

theorem abortSession_w0 (s : State) (p : Pos) (c : Cause) :
    (abortSession s p c).w0.map Notice.record = s.w0.map Notice.record ++ (s.entry[p].sess.map Session.result).toList := by
  cases h : s.entry[p].sess with
  | none => rw [abortSession_none h, Option.map_none, Option.toList_none, List.append_nil]
  | some ss =>
    obtain ⟨n, hrec, hn⟩ := endSession_frame s p ss .aborted c .none
    rw [abortSession_some h, hn, List.map_append, List.map_singleton, hrec]
    rfl

theorem offerCommand_frame (s : State) (p : Pos) (cmd : CardCommand) (m : BitVec 3) :
    (offerCommand s p cmd m).1 =
      { s with pool := (offerCommand s p cmd m).1.pool, lines := (offerCommand s p cmd m).1.lines } := by
  unfold offerCommand
  split
  · rfl
  · exact offerControl_frame ..

theorem cardEnter_frame (s : State) (p : Pos) (st : CardState) (c : Cause) (cur : Option (CardCommand × RecId)) (n : Nat) :
    cardEnter s p st c cur n = { s with pool := (cardEnter s p st c cur n).pool, card := (cardEnter s p st c cur n).card } := by
  rw [cardEnter_eq]
  rfl

theorem ownCommand_frame (s : State) (p : Pos) (cmd : CardCommand) (st : CardState) (c : Cause) :
    ownCommand s p cmd st c =
      { s with
        pool := (ownCommand s p cmd st c).pool, lines := (ownCommand s p cmd st c).lines
        card := (ownCommand s p cmd st c).card } := by
  rcases ho : offerCommand s p cmd 0 with ⟨v, x⟩
  have hframe : v = { s with pool := v.pool, lines := v.lines } := by
    have hframe := offerCommand_frame s p cmd 0
    rwa [ho] at hframe
  rw [ownCommand, ho]
  cases x with
  | carried r =>
    dsimp only
    rw [cardEnter_frame, hframe]
  | refused =>
    dsimp only
    rw [cardTo_frame, hframe]
  | stopped =>
    dsimp only
    rw [cardTo_frame, hframe]

theorem cardUnattended_eq (s : State) (p : Pos) : cardUnattended s p = cardClosed s p := by
  unfold cardUnattended cardClosed
  cases s.card[p].state <;> rfl

theorem cardClosed_frame (s : State) (p : Pos) :
    cardClosed s p =
      { s with
        pool := (cardClosed s p).pool, lines := (cardClosed s p).lines, w1 := (cardClosed s p).w1, card := (cardClosed s p).card } := by
  unfold cardClosed
  split
  · rw [ownCommand_frame, readEnd_frame]
  · split
    · rw [ownCommand_frame]
    · rfl

/-! ## A round over the positions -/

/-- A round in which each step works on one position's contexts: the step of position p, with what the other steps change around it. -/
theorem round_split {f : State → Pos → State} {P Q : Pos → Pos → Prop} (h : ∀ t p, Touches (P p) (Q p) t (f t p))
    (hP : ∀ p p', P p p' → p' = p) (hQ : ∀ p p', Q p p' → p' = p) (s : State) (p : Pos) :
    ∃ u : State, Touches (· ≠ p) (· ≠ p) s u ∧ Touches (· ≠ p) (· ≠ p) (f u p) (allPos.foldl f s) := by
  have others : ∀ (ps : List Pos) (t : State), p ∉ ps → Touches (· ≠ p) (· ≠ p) t (ps.foldl f t) := fun ps => by
    induction ps with
    | nil => exact fun t _ => .refl t
    | cons x ps ih =>
      intro t hp
      obtain ⟨hx, hp⟩ := not_or.mp (fun k => hp (List.mem_cons.mpr k))
      exact ((h t x).mono (fun p' k => (hP x p' k).symm ▸ Ne.symm hx) (fun p' k => (hQ x p' k).symm ▸ Ne.symm hx)).trans (ih _ hp)
  obtain ⟨before, after, hall⟩ := List.append_of_mem (mem_allPos p)
  have hnd : (p :: (before ++ after)).Nodup := List.nodup_middle.mp (hall ▸ (by decide : allPos.Nodup))
  obtain ⟨hb, ha⟩ := not_or.mp (mt List.mem_append.mpr (List.nodup_cons.mp hnd).1)
  refine ⟨before.foldl f s, others before s hb, ?_⟩
  rw [hall, List.foldl_append, List.foldl_cons]
  exact others after _ ha

theorem allPos_eq : allPos = List.finRange 8 := by decide

/-! ## The sessions end (R163, step 1) -/

/-- R163, step 1: the sessions end by ascending position. -/
def sessionsAborted (s : State) : State := (List.finRange 8).foldl (fun x p => abortSession x p .unattended) s

theorem sessionsAborted_touches (s : State) : Touches (fun _ => True) nowhere s (sessionsAborted s) :=
  Touches.foldl (fun t p => (ofEntry_abortSession t p .unattended).mono (fun _ _ => trivial) fun _ h => h) _ s

/-- R163, step 1: the position's own step, among those of the others. -/
theorem sessionsAborted_entry (s : State) (p : Pos) :
    ∃ u : State, u.entry[p] = s.entry[p] ∧ (sessionsAborted s).entry[p] = (abortSession u p .unattended).entry[p] := by
  obtain ⟨u, hu, -, hentry, -⟩ := round_at (P := fun p q => q = p) (Q := fun _ => nowhere)
    (fun t p => ofEntry_abortSession t p .unattended) (fun t p => (calm_abortSession t p .unattended).toQuiet) (fun _ _ h => h)
    (fun _ _ h => h.elim) s p
  rw [allPos_eq] at hentry
  exact ⟨u, hu.entry p (by simp), hentry⟩

theorem sessionsAborted_sess (s : State) (p : Pos) : (sessionsAborted s).entry[p].sess = none := by
  obtain ⟨u, -, hentry⟩ := sessionsAborted_entry s p
  rw [hentry]
  exact abortSession_sess u p .unattended

theorem sessionsAborted_idle {s : State} {p : Pos} (h : s.entry[p].sess = none) :
    (sessionsAborted s).entry[p] = s.entry[p] := by
  obtain ⟨u, hu, hentry⟩ := sessionsAborted_entry s p
  rw [hentry, abortSession_none (hu.symm ▸ h), hu]

theorem abortSession_foldl_w0 (ps : List Pos) (hps : ps.Nodup) (s : State) :
    (ps.foldl (fun x p => abortSession x p .unattended) s).w0.map Notice.record =
      s.w0.map Notice.record ++ ps.filterMap fun p => s.entry[p].sess.map Session.result := by
  induction ps generalizing s with
  | nil => exact (List.append_nil _).symm
  | cons p ps ih =>
    obtain ⟨hp, hps⟩ := List.nodup_cons.mp hps
    have hrest : (ps.filterMap fun q => (abortSession s p .unattended).entry[q].sess.map Session.result) =
        ps.filterMap fun q => s.entry[q].sess.map Session.result :=
      List.filterMap_congr fun q hq => by rw [(ofEntry_abortSession s p .unattended).entry q fun h => hp (h ▸ hq)]
    rw [List.foldl_cons, ih hps, abortSession_w0, hrest, List.append_assoc]
    rw [List.filterMap_cons]
    cases s.entry[p].sess <;> rfl

theorem enginesOnly_sessionsAborted (s : State) : EnginesOnly s (sessionsAborted s) :=
  EnginesOnly.foldl (fun t p => enginesOnly_abortSession t p .unattended) _ s

theorem sessionsAborted_w0 (s : State) : (sessionsAborted s).w0.map Notice.record =
    s.w0.map Notice.record ++ (List.finRange 8).filterMap fun p => s.entry[p].sess.map Session.result :=
  abortSession_foldl_w0 _ (List.nodup_finRange 8) s

/-! ## The idle contexts (R163, step 2) -/

/-- R163, step 2: an idle context with a display pending wants the closed text. -/
def closedWanted (s : State) (text : List Byte) : State :=
  { s with
    entry := s.entry.map fun c =>
      if c.sess = none ∧ c.dispPending = true then { c with wanted := { line1 := text, line2 := text } } else c }

theorem enginesOnly_closedWanted (s : State) (text : List Byte) : EnginesOnly s (closedWanted s text) := rfl

theorem closedWanted_w0 (s : State) (text : List Byte) : (closedWanted s text).w0 = s.w0 := rfl

theorem closeStaleDisplay_frame (s : State) (p : Pos) : closeStaleDisplay s p = { s with entry := (closeStaleDisplay s p).entry } := by
  unfold closeStaleDisplay
  split <;> rfl

theorem closeStaleDisplay_entry (s : State) (p : Pos) :
    (closeStaleDisplay s p).entry[p] =
      if s.entry[p].sess = none ∧ s.entry[p].dispPending = true then
        { s.entry[p] with wanted := { line1 := s.profile.closedText, line2 := s.profile.closedText } }
      else s.entry[p] := by
  have hiff : (s.entry[p].sess.isNone && s.entry[p].dispPending) = true ↔
      s.entry[p].sess = none ∧ s.entry[p].dispPending = true := by
    rw [Bool.and_eq_true, Option.isNone_iff_eq_none]
  unfold closeStaleDisplay
  simp only [hiff]
  split
  · rw [modEntry_eq_atEntry, atEntry_self]
  · rfl

theorem closeStaleDisplay_foldl_frame (ps : List Pos) (s : State) :
    ps.foldl closeStaleDisplay s = { s with entry := (ps.foldl closeStaleDisplay s).entry } := by
  induction ps generalizing s with
  | nil => rfl
  | cons p ps ih => rw [List.foldl_cons, ih, closeStaleDisplay_frame]

theorem closedWanted_entry (s : State) (text : List Byte) (p : Pos) :
    (closedWanted s text).entry[p] =
      if s.entry[p].sess = none ∧ s.entry[p].dispPending = true then
        { s.entry[p] with wanted := { line1 := text, line2 := text } }
      else s.entry[p] := Vector.getElem_map ..

theorem closedWanted_sess (s : State) (text : List Byte) (p : Pos) : (closedWanted s text).entry[p].sess = s.entry[p].sess := by
  rw [closedWanted_entry]
  split <;> rfl

theorem closeStaleDisplay_round (s : State) : allPos.foldl closeStaleDisplay s = closedWanted s s.profile.closedText := by
  have hentry : (allPos.foldl closeStaleDisplay s).entry = (closedWanted s s.profile.closedText).entry := by
    refine Vector.ext fun n hn => ?_
    obtain ⟨u, hu, hquiet, hround, -⟩ := round_at (P := fun p q => q = p) (Q := fun _ => nowhere)
      ofEntry_closeStaleDisplay (fun t p => (Calm.ite (calm_modEntry t p _) (.refl t)).toQuiet) (fun _ _ h => h)
      (fun _ _ h => h.elim) s ⟨n, hn⟩
    have hsame : u.entry[(⟨n, hn⟩ : Pos)] = s.entry[(⟨n, hn⟩ : Pos)] := hu.entry ⟨n, hn⟩ (by simp)
    have hstep := closeStaleDisplay_entry u ⟨n, hn⟩
    rw [hsame, hquiet.profile, ← closedWanted_entry] at hstep
    exact hround.trans hstep
  rw [closeStaleDisplay_foldl_frame, hentry]
  rfl

theorem closedWanted_touches (s : State) :
    Touches (fun _ => True) nowhere s (closedWanted s s.profile.closedText) := by
  rw [← closeStaleDisplay_round]
  exact Touches.foldl (fun t p => (ofEntry_closeStaleDisplay t p).mono (fun _ _ => trivial) fun _ h => h) _ s

/-! ## The cards (R151, R163, step 3) -/

/-- R163, step 3: the cards are ejected by ascending position. -/
def cardsClosed (s : State) : State := (List.finRange 8).foldl cardClosed s

/-- R151: a card context after the EJECT of its own account, with the control queue of its reader's line. -/
def cardEjected (p : Pos) (e : EntryId) (a : Addr) (k : CardCtx) (queue : List QEntry) : Prop :=
  ((k.state = .ejecting ∧ k.cause = .unattended ∧ k.moveTimer = some 5000 ∧
      ∃ q ∈ queue, k.current = some (.eject, q.record) ∧ q.dest = a ∧ q.target = some e ∧ q.owner = .card p) ∨
    (k.state = .fault ∧ k.cause = .poolFull ∧ k.moveTimer = none ∧ k.current = none)) ∧
  k.mark = true ∧ k.readTimer = none ∧ k.holds = Vector.replicate 3 none

theorem cardEjected.mono {p : Pos} {e : EntryId} {a : Addr} {k : CardCtx} {qs qs' : List QEntry} (h : cardEjected p e a k qs)
    (hqs : qs <+: qs') : cardEjected p e a k qs' := by
  obtain ⟨hstate, hrest⟩ := h
  refine ⟨hstate.imp_left ?_, hrest⟩
  rintro ⟨hs, hc, hm, q, hq, hcur⟩
  exact ⟨hs, hc, hm, q, hqs.subset hq, hcur⟩

section
variable {s t : State} {p : Pos} {e : EntryId} {a : Addr} {l : LineId}

/-- R138, R151: an EJECT on the context's own account is taken by the reader's line, or refused by the pool. -/
theorem ownCommand_ejects (h : readerServes s p e a) (hl : s.dir[e].line = l) :
    cardEjected p e a (ownCommand s p .eject .ejecting .unattended).card[p]
      (ownCommand s p .eject .ejecting .unattended).lines[l].control := by
  subst hl
  rcases offerControl_cases s s.dir[e].line .cardCommand a (some e) (.card p) [CardCommand.eject.code, 0] with
    ⟨hline, -⟩ | ⟨-, r, q, ho⟩ | ⟨-, q, ho⟩
  · exact absurd hline h.2.2
  · rw [ownCommand_carried h ho, cardEnter_eq, atCard_self]
    refine ⟨.inl ⟨rfl, rfl, rfl, queuedFrame s r a (some e) (.card p), ?_, rfl, rfl, rfl, rfl⟩, rfl, rfl, rfl⟩
    rw [atCard, onLine_self]
    exact List.mem_append_right _ (List.mem_singleton_self _)
  · rw [ownCommand_refused h ho, cardTo_eq, atCard_self]
    exact ⟨.inr ⟨rfl, rfl, rfl, rfl⟩, rfl, rfl, rfl⟩

theorem Works.readerServes {P Q : Pos → Prop} (h : Works P Q s t) (hs : readerServes s p e a) : readerServes t p e a := by
  obtain ⟨hslot, haddr, hline⟩ := hs
  refine ⟨(h.slotOf .reader p).trans hslot, h.dir.symm ▸ haddr, ?_⟩
  simp only [h.dir, (h.lines _).state]
  exact hline

theorem Works.unitLine {P Q : Pos → Prop} (h : Works P Q s t) (hl : s.dir[e].line = l) : t.dir[e].line = l := by
  rw [h.dir]
  exact hl

theorem cardClosed_ejects (h : readerServes s p e a) (hl : s.dir[e].line = l) (hs : s.card[p].state ∈ [.present, .reading, .read]) :
    cardEjected p e a (cardClosed s p).card[p] (cardClosed s p).lines[l].control := by
  have hread := (ofCard_readEnd s p .aborted .unattended 0).toWorks
  unfold cardClosed
  split
  · exact ownCommand_ejects (hread.readerServes h) (hread.unitLine hl)
  · next hnot =>
    have hother : s.card[p].state = .present ∨ s.card[p].state = .read := by
      revert hs hnot
      cases s.card[p].state <;> decide
    rw [if_pos hother]
    exact ownCommand_ejects h hl

theorem cardClosed_other (hs : s.card[p].state ∉ [.present, .reading, .read]) : cardClosed s p = s := by
  obtain ⟨hpresent, hreading, hread⟩ : s.card[p].state ≠ .present ∧ s.card[p].state ≠ .reading ∧ s.card[p].state ≠ .read := by
    revert hs
    cases s.card[p].state <;> decide
  rw [cardClosed, if_neg hreading, if_neg (not_or.mpr ⟨hpresent, hread⟩)]

theorem ofCard_cardClosed (s : State) (p : Pos) : OfCard p s (cardClosed s p) := cardUnattended_eq s p ▸ ofCard_cardUnattended s p

theorem cardsClosed_touches (s : State) : Touches nowhere (fun _ => True) s (cardsClosed s) :=
  Touches.foldl (fun t p => (ofCard_cardClosed t p).mono (fun _ h => h) fun _ _ => trivial) _ s

/-- R163, step 3: the position's own step, among those of the others. -/
theorem cardsClosed_split (s : State) (p : Pos) :
    ∃ u : State, Touches (· ≠ p) (· ≠ p) s u ∧ Touches (· ≠ p) (· ≠ p) (cardClosed u p) (cardsClosed s) := by
  rw [cardsClosed, ← allPos_eq]
  exact round_split (P := fun _ => nowhere) (Q := fun p q => q = p) ofCard_cardClosed (fun _ _ h => h.elim) (fun _ _ h => h) s p

theorem cardsClosed_ejects (h : readerServes s p e a) (hl : s.dir[e].line = l)
    (hs : s.card[p].state ∈ [.present, .reading, .read]) :
    cardEjected p e a (cardsClosed s).card[p] (cardsClosed s).lines[l].control := by
  obtain ⟨u, hbefore, hafter⟩ := cardsClosed_split s p
  have hu : u.card[p] = s.card[p] := hbefore.card p (by simp)
  have hejects := cardClosed_ejects (hbefore.toWorks.readerServes h) (hbefore.toWorks.unitLine hl) (hu.symm ▸ hs)
  rw [hafter.card p (by simp)]
  exact hejects.mono (hafter.lines _).front

theorem cardsClosed_other (hs : s.card[p].state ∉ [.present, .reading, .read]) : (cardsClosed s).card[p] = s.card[p] := by
  obtain ⟨u, hbefore, hafter⟩ := cardsClosed_split s p
  have hu : u.card[p] = s.card[p] := hbefore.card p (by simp)
  rw [hafter.card p (by simp), cardClosed_other (hu.symm ▸ hs), hu]

theorem enginesOnly_cardClosed (s : State) (p : Pos) : EnginesOnly s (cardClosed s p) := by
  rw [EnginesOnly, cardClosed_frame]

theorem cardClosed_foldl_w0 (ps : List Pos) (s : State) : (ps.foldl cardClosed s).w0 = s.w0 := by
  induction ps generalizing s with
  | nil => rfl
  | cons p ps ih => rw [List.foldl_cons, ih, cardClosed_frame]

theorem enginesOnly_cardsClosed (s : State) : EnginesOnly s (cardsClosed s) := EnginesOnly.foldl enginesOnly_cardClosed _ s

theorem cardsClosed_w0 (s : State) : (cardsClosed s).w0 = s.w0 := cardClosed_foldl_w0 _ s

end

/-! ## The closed text on the lines (R163, step 4) -/

/-- R163, step 4: what a line is offered, by its state and the closed text of another state with the same. -/
theorem offerClosedText_eq {s t : State} {l : LineId} (hl : t.lines[l].state = s.lines[l].state) (hp : t.profile = s.profile) :
    offerClosedText t l =
      if s.lines[l].state = .active then
        (offerControl t l .display 15 none .timeBase (s.profile.closedText ++ s.profile.closedText ++ [0])).1
      else t := by
  unfold offerClosedText
  simp only [hl, hp, beq_iff_eq]
  rfl

theorem offerClosedText_foldl {s : State} (ls : List LineId) (t : State) (hl : ∀ l : LineId, t.lines[l].state = s.lines[l].state)
    (hp : t.profile = s.profile) :
    ls.foldl offerClosedText t =
      ls.foldl
        (fun x l =>
          if s.lines[l].state = .active then
            (offerControl x l .display 15 none .timeBase (s.profile.closedText ++ s.profile.closedText ++ [0])).1
          else x) t := by
  induction ls generalizing t with
  | nil => rfl
  | cons l ls ih =>
    have hstate (x : LineId) : (offerClosedText t l).lines[x].state = s.lines[x].state :=
      ((offered_offerClosedText t l).lines x).state.trans (hl x)
    have hprofile : (offerClosedText t l).profile = s.profile := (calm_offerClosedText t l).toQuiet.profile.trans hp
    rw [List.foldl_cons, List.foldl_cons, ih _ hstate hprofile, offerClosedText_eq (hl l) hp]

/-! ## The expiry (R162, R163) -/

/-- R162, R163: the part UNATTENDED, nothing of the blocks done yet. -/
def attendanceEnded (s : State) : State :=
  { s with time := { s.time with attended := false, latest := s.time.mono, mark := true, timer := none } }

theorem attendanceEnded_w0 (s : State) : (attendanceEnded s).w0 = s.w0 := rfl

/-- R163, steps 1 to 3. -/
def contextsClosed (s : State) : State :=
  cardsClosed (closedWanted (sessionsAborted (attendanceEnded s)) s.profile.closedText)

section
variable {s : State}

theorem sessionsAborted_profile (s : State) : (sessionsAborted s).profile = s.profile :=
  (Calm.foldl (fun t p => calm_abortSession t p .unattended) _ s).toQuiet.profile

theorem sessionsClosed_touches (s : State) :
    Touches (fun _ => True) nowhere (attendanceEnded s) (closedWanted (sessionsAborted (attendanceEnded s)) s.profile.closedText) := by
  have hwanted := closedWanted_touches (sessionsAborted (attendanceEnded s))
  rw [sessionsAborted_profile] at hwanted
  exact (sessionsAborted_touches _).trans hwanted

theorem enginesOnly_contextsClosed (s : State) : EnginesOnly (attendanceEnded s) (contextsClosed s) := by
  exact ((enginesOnly_sessionsAborted _).trans (enginesOnly_closedWanted _ _)).trans (enginesOnly_cardsClosed _)

theorem contextsClosed_lines (s : State) (l : LineId) : Grown s.lines[l] (contextsClosed s).lines[l] :=
  ((sessionsClosed_touches s).lines l).trans ((cardsClosed_touches _).lines l)

theorem contextsClosed_w0 (s : State) : (contextsClosed s).w0.map Notice.record =
    s.w0.map Notice.record ++ (List.finRange 8).filterMap fun p => s.entry[p].sess.map Session.result := by
  have hentry : (attendanceEnded s).entry = s.entry := rfl
  rw [contextsClosed, cardsClosed_w0, closedWanted_w0, sessionsAborted_w0, hentry, attendanceEnded_w0]

theorem contextsClosed_entry (s : State) (p : Pos) :
    (contextsClosed s).entry[p] = (closedWanted (sessionsAborted (attendanceEnded s)) s.profile.closedText).entry[p] :=
  (cardsClosed_touches _).entry p id

theorem contextsClosed_sess (s : State) (p : Pos) : (contextsClosed s).entry[p].sess = none := by
  rw [contextsClosed_entry, closedWanted_sess, sessionsAborted_sess]

theorem contextsClosed_idle {p : Pos} (hs : s.entry[p].sess = none) :
    (contextsClosed s).entry[p] =
      if s.entry[p].dispPending = true then
        { s.entry[p] with wanted := { line1 := s.profile.closedText, line2 := s.profile.closedText } }
      else s.entry[p] := by
  have hidle : (sessionsAborted (attendanceEnded s)).entry[p] = s.entry[p] := sessionsAborted_idle hs
  rw [contextsClosed_entry, closedWanted_entry, hidle, hs]
  simp only [true_and]

theorem becomeUnattended_eq (s : State) :
    becomeUnattended { s with time := { s.time with timer := none } } =
      allLines.foldl
        (fun x l =>
          if s.lines[l].state = .active then
            (offerControl x l .display 15 none .timeBase (s.profile.closedText ++ s.profile.closedText ++ [0])).1
          else x) (contextsClosed s) := by
  have hset : setAttendance { s with time := { s.time with timer := none } } false = attendanceEnded s := rfl
  have hsessions : allPos.foldl (fun t p => abortSession t p .unattended) (attendanceEnded s) = sessionsAborted (attendanceEnded s) := by
    rw [allPos_eq, sessionsAborted]
  have htext : (sessionsAborted (attendanceEnded s)).profile.closedText = s.profile.closedText := by
    rw [sessionsAborted_profile]
    rfl
  have hcards (t : State) : allPos.foldl cardUnattended t = cardsClosed t := by
    rw [show cardUnattended = cardClosed from funext fun t => funext fun p => cardUnattended_eq t p, allPos_eq, cardsClosed]
  have hprofile : (contextsClosed s).profile = s.profile := by
    rw [enginesOnly_contextsClosed s]
    rfl
  simp only [becomeUnattended, hset, hsessions, closeStaleDisplay_round, htext, hcards]
  rw [← contextsClosed, offerClosedText_foldl allLines (contextsClosed s) (fun l => (contextsClosed_lines s l).state) hprofile]

theorem exec_attendanceTimer (hr : s.running = true) (ht : s.time.timer = some 0) :
    exec .attendanceTimerExpiry s = .next (settle (attendanceExpires s)) := by
  rw [exec, execAttendanceTimerExpiry, hr, ht, timerDue_zero, Bool.and_self, if_pos rfl]

end

/-- Settles O54: the four steps of R163 one after the other, each by what its round does at a position. -/
theorem attendanceIsLost : Obligations.AttendanceIsLost := by
  unfold Obligations.AttendanceIsLost
  refine ⟨fun s hr ht => ⟨fun h0 => ?_, fun h0 => ⟨sessionsAborted (attendanceEnded s),
      closedWanted (sessionsAborted (attendanceEnded s)) s.profile.closedText, contextsClosed s, rfl, rfl, rfl, ?_,
      enginesOnly_contextsClosed s, fun l => ⟨(contextsClosed_lines s l).same, (contextsClosed_lines s l).front⟩,
      contextsClosed_w0 s, fun p => ⟨contextsClosed_sess s p, fun hs hd => ?_, fun hs hd => ?_⟩,
      fun p => ⟨fun hs => ?_, fun e a hs he => ?_⟩⟩⟩,
    fun s v p e a x he ho => ⟨fun r hx => ?_, fun hx => ?_⟩⟩
  · rw [exec_attendanceTimer hr ht, attendanceExpires]
    exact congrArg (fun t => Host.Outcome.next (settle t)) (if_pos h0)
  · rw [exec_attendanceTimer hr ht, attendanceExpires, if_neg h0, becomeUnattended_eq]
    rfl
  · rw [contextsClosed_idle hs, hd, if_neg Bool.false_ne_true]
  · rw [contextsClosed_idle hs, if_pos hd]
  · have hcard := (sessionsClosed_touches s).card p id
    exact (cardsClosed_other (hcard.symm ▸ hs)).trans hcard
  · have hcard := (sessionsClosed_touches s).card p id
    have hserves := (sessionsClosed_touches s).toWorks.readerServes (s := attendanceEnded s) he
    exact cardsClosed_ejects hserves ((sessionsClosed_touches s).toWorks.unitLine rfl) (hcard.symm ▸ hs)
  · subst hx
    have hcard : v.card = s.card := by
      have hframe := offerControl_card s s.dir[e].line .cardCommand a (some e) (.card p) [2, 0]
      rwa [ho] at hframe
    rw [ownCommand_carried (cmd := .eject) he ho, cardEnter_eq, hcard]
  · subst hx
    have hcard : v.card = s.card := by
      have hframe := offerControl_card s s.dir[e].line .cardCommand a (some e) (.card p) [2, 0]
      rwa [ho] at hframe
    rw [ownCommand_refused (cmd := .eject) he ho, cardTo_eq, hcard]

end Sys2Proof.Machine
